-- ==== Sys2Proof/Word.lean ====
section
/-! DEFINITION. Words, bytes and addresses: the plain types every other file uses. -/

namespace Sys2Proof

/-- A 64-bit scalar register or memory doubleword (R60). -/
abbrev Word := BitVec 64

/-- A 32-bit instruction word (R31). -/
abbrev Word32 := BitVec 32

/-- One byte of memory. -/
abbrev Byte := BitVec 8

/-- A 256-bit vector register, tile command word, flit or stream element (R127, R49, R218). -/
abbrev Vec := BitVec 256

/-- A 48-bit virtual address value (R306). -/
abbrev VAddr := BitVec 48

/-- A scalar, vector or mask register number. -/
abbrev Reg := BitVec 5

end Sys2Proof
end

