-- ==== Sys2Proof/Config.lean ====
section
/-! DEFINITION. What an implementation fixes and the spec leaves open: opaque free values (no statement can rest on
their value) and the plain constants of the headline tables. -/

namespace Sys2Proof.Config

/-- Free value: the word an agent outside the spec (an SPDM signature, a digest, a certificate) returns for request
number `n` (R375 names ECDSA P-384 with SHA-384 but gives no bytes). Log entry 5. -/
opaque spdmSignature : Nat → List (BitVec 8)

/-- Free value: the certificate chain digest and body the responder holds (R375). Log entry 5. -/
opaque spdmCertificate : Nat → List (BitVec 8)

/-- Free value: the digests of measurement blocks 1 to 3 (R375): boot ROM, firmware, manifest. Log entry 5. -/
opaque measurementDigest : Nat → List (BitVec 8)

/-- Free value: which element of a BAG a pop takes, before reduction modulo the number held (R240). Log entry 7. -/
opaque bagChoice : Nat → Nat

/-- Free value: a doubleword whose contents the spec leaves to the device, such as a slot of an overflow sub-ring
(R187). Log entry 8. -/
opaque freeWord : Nat → BitVec 64

/-- Free value: the SHAKE256 digest of the bytes of the defect manifest (R375). Log entry 5. -/
opaque manifestDigest : List (BitVec 8) → List (BitVec 8)

/-- Free value: where in its header an image holds its magic (0), version (1), length (2) and digest (3), which the spec does not
lay out (R329, R331). Log entry 35. -/
opaque headerOffset : Nat → Nat

/-- Free value: the base site of a die's overflow area, which boot firmware chooses (R325). Log entry 22. -/
opaque overflowSite : Nat → BitVec 21

/-- Free value: the attach site of a die's synchronisation engine or of a bank of its scratchpad, before reduction to a site of
the die; the topology map names it (R216, R308, R325). Log entry 10. -/
opaque attachSite : Nat → Nat

/-- Free value: the current of a cluster measured over a microsecond, by microsecond and cluster, before reduction to what the
cluster may draw (R265). Log entry 23. -/
opaque measuredCurrent : Nat → Nat → Nat

/-- Free value: the 5 mV step above 600 mV at which die management sets the core rail of a cluster, before reduction to the 31
steps there are (R262). Log entry 23. -/
opaque railStep : Nat → Nat

/-! Sizes of the machine (R2, R323). -/

/-- Sites along X and Y (R2). -/
def sitesX : Nat := 1088
def sitesY : Nat := 512
/-- Logical cores along X and Y (R2). -/
def coresX : Nat := 1024
def coresY : Nat := 512
def numCores : Nat := 524288
def numSites : Nat := 557056
def numDies : Nat := 64
def numPorts : Nat := 64
def numQueues : Nat := 64

end Sys2Proof.Config
end

