-- ==== Sys2Proof/Syntax.lean ====
section
/-! DEFINITION. The abstract syntax: one constructor of `Instr` per row of the opcode table. Rows with a 32-bit
encoding carry its fields (R36–R48), tile commands carry the fields of their 256-bit word (R49–R51), and the machine's
own steps carry the parties they concern and, for inputs, what the outside brings. -/

namespace Sys2Proof

/-- Element types, R45. -/
inductive ElemTy where
  | f32 | bf16 | f16 | f64 | i32 | i16 | i8 | i64
  deriving DecidableEq, Repr

/-- The three engine queues, R40 and R108. -/
inductive EngineQ where
  | mxq | cpq0 | cpq1
  deriving DecidableEq, Repr

/-- The five classes of outstanding operations, R75. -/
inductive CountClass where
  | ld | st | cp | mx | sy
  deriving DecidableEq, Repr

/-- The items RDID reads, R40. -/
inductive IdItem where
  | core | site | module | context
  deriving DecidableEq, Repr

/-- VCMP conditions, R46. -/
inductive CmpCond where
  | eq | ne | lt | le
  deriving DecidableEq, Repr

/-- Mesh directions, R215 and R222. -/
inductive Dir where
  | n | e | s | w
  deriving DecidableEq, Repr

/-- MXOUT result types, R51. -/
inductive OutTy where
  | fp32 | bf16 | int32
  deriving DecidableEq, Repr

/-- A run code of a route, R222. -/
structure Run where
  /-- direction of the run -/
  dir  : Dir
  /-- raise the escape class at the start of this run -/
  bump : Bool
  /-- pairing permitted along this run -/
  pair : Bool
  /-- hops in the run, less one -/
  len  : Nat
  deriving DecidableEq, Repr

/-- Packet kinds, R221. -/
inductive PktKind where
  | data | marker | fence
  | memReq | memRep | syncReq | syncRep | pairReq | pairRep
  | mgmt | migrate
  | reserved (k : Nat)
  deriving DecidableEq, Repr

/-- What a memory request does at its home (R269, R291, R293, R304). -/
inductive MemOp where
  | load
  | store
  | amoAdd | amoAnd | amoOr | amoXor | amoMin | amoMax | amoMinu | amoMaxu | amoSwap | amoFadd
  | cas
  | decz
  deriving DecidableEq, Repr

/-- The physical memories, in the order of the tile spaces of R345, with sync space beside them (R286). -/
inductive Space where
  | dram | scratch | cluster | die | sync
  deriving DecidableEq, Repr

/-- A physical place: a memory, its owner (site, cluster or die number) and the byte offset in it (R345, R309). -/
structure Place where
  space : Space
  owner : Nat
  off   : Nat
  deriving DecidableEq, Repr

/-- A synchronisation operation as it reaches an engine (R242–R244, R291, R297–R299, R301). -/
inductive SyncOp where
  | amo (op : MemOp) (wide : Bool) (v cmp : Word)
  | objInit (desc : Word)
  | barInit (n : Nat)
  | barArr
  | barWait (g : Option Nat)
  | phase (g : Nat)
  deriving DecidableEq, Repr

/-- Answers of an engine to a synchronisation operation. -/
inductive SyncAns where
  | value (v : Word)
  | gen (g : Nat)
  | status (st gen : Nat)
  | refused
  | done
  deriving DecidableEq, Repr

/-- Pairing operations, R245. -/
inductive PairOp where
  | push | pop | popw
  deriving DecidableEq, Repr

/-- The parts of a migration save, R209. -/
inductive MigPart where
  | part (n : Nat) | endPart
  deriving DecidableEq, Repr

/-- What follows a packet's header. The spec lays out the bits of kinds 0 to 2 and 8, 9 (R220, R245); the bodies of
kinds 4 to 7 it leaves to the device, so they are structured data here. -/
inductive Body where
  | message (payload : List Word)
  | empty
  | memReq (id : Nat) (op : MemOp) (place : Place) (size : Nat) (data : List Byte) (cmp : Word)
      (ret : List Run) (host : Bool) (tracked : Bool)
  | memRep (id : Nat) (data : List Byte) (poisoned : Bool) (ok : Bool)
  | syncReq (id : Nat) (place : Place) (op : SyncOp) (ret : List Run)
  | syncRep (id : Nat) (ans : SyncAns)
  | pairReq (id : Nat) (op : PairOp) (win : Nat) (place : Place) (wide nopair : Bool) (value : Vec) (ret : List Run)
      (popSite : Nat)
  /-- with the object's number, size and page class of its request (R245) -/
  | pairRep (id : Nat) (value : Vec) (empty refused : Bool) (obj : Nat) (wide nopair : Bool)
  /-- a die's arrival at a group's home engine, and a release on its way to a die's engine (R302) -/
  | phase (die g : Nat) (release : Bool)
  | mgmt (payload : List Word)
  | migrate (part : MigPart) (unit : Nat) (crcOk : Bool)
  deriving DecidableEq, Repr

/-- The header flit of R220, with the extension's module ids and ingress bytes (R220, R378). -/
structure Header where
  port  : Nat
  fin   : Bool
  tied  : Bool
  logged : Bool
  score : Nat
  ssite : Nat
  gen   : Nat
  sch   : Nat
  rch   : Nat
  fmt   : Nat
  round : Nat
  tag   : Nat
  kind  : PktKind
  cur   : Nat
  ext   : Bool
  last  : Nat
  dsite : Nat
  runs  : List Run
  dmod  : Nat
  smod  : Nat
  ingress : List Nat
  /-- of a reply: the ingress ports that its request recorded, and the core that awaits it (R226, R378) -/
  reqPorts : List Nat
  asker : Nat
  deriving DecidableEq, Repr

/-- A packet: header and body (R220, R221). -/
structure Packet where
  hdr  : Header
  body : Body
  deriving DecidableEq, Repr

/-- One data flit of a fabric group: flit `idx` of a packet of escape class
`cls` that left span site `span`, or a null flit (R379, R381). -/
inductive FabFlit where
  | null
  | flit (span : Nat) (pkt : Packet) (cls idx : Nat) (tail : Bool)
  deriving DecidableEq, Repr

/-- A flit group as it is sent (R381, R390). The encryption is symbolic: the group names the key and salt it was
sealed under, and its tag verifies exactly under these. -/
structure Group where
  ctx     : Nat
  counter : Nat
  keyIdx  : Nat
  key     : BitVec 256
  salt    : BitVec 56
  sealed  : Bool
  flits   : List FabFlit
  deriving DecidableEq, Repr

/-- A route-fault report or moved notice that a control frame brings from another module: its TRAPVAL, the ingress ports it
has still to pass back through, and the request it concerns (R210, R226, R378). -/
structure ReportFrame where
  val     : Word
  ingress : List Nat
  req     : Option Nat
  deriving DecidableEq, Repr

/-- Where an arrived request or reply stands: an operation of the core on its own memory, which crosses no link, or a
packet in an ejection buffer (R65, R217, R218). -/
inductive Arrival where
  | own (id : Nat)
  | packet (flight : Nat)
  deriving DecidableEq, Repr

/-- Who waits for a translation (R311, R312). -/
inductive Requester where
  | context (core ctx : Nat)
  /-- a stream register, for the binding of a serial number (R104) -/
  | stream (core q serial : Nat)
  /-- an unbound stream that still sends, by the serial number of its binding (R23, R104) -/
  | drain (core serial : Nat)
  | engineSrc (core : Nat) (q : EngineQ)
  | engineDst (core : Nat) (q : EngineQ)
  | fetch (core ctx : Nat)
  deriving DecidableEq, Repr

/-- The instructions and steps: one constructor per row of the opcode table. -/
inductive Instr where
  -- RV64IM and Zicsr (R36, R37, R60–R64, R68)
  | lui (d : Reg) (imm : BitVec 20)
  | auipc (d : Reg) (imm : BitVec 20)
  | jal (d : Reg) (imm : BitVec 20)
  | jalr (d a : Reg) (imm : BitVec 12)
  | beq (a b : Reg) (imm : BitVec 12)
  | bne (a b : Reg) (imm : BitVec 12)
  | blt (a b : Reg) (imm : BitVec 12)
  | bge (a b : Reg) (imm : BitVec 12)
  | bltu (a b : Reg) (imm : BitVec 12)
  | bgeu (a b : Reg) (imm : BitVec 12)
  | lb (d a : Reg) (imm : BitVec 12)
  | lh (d a : Reg) (imm : BitVec 12)
  | lw (d a : Reg) (imm : BitVec 12)
  | ld (d a : Reg) (imm : BitVec 12)
  | lbu (d a : Reg) (imm : BitVec 12)
  | lhu (d a : Reg) (imm : BitVec 12)
  | lwu (d a : Reg) (imm : BitVec 12)
  | sb (b a : Reg) (imm : BitVec 12)
  | sh (b a : Reg) (imm : BitVec 12)
  | sw (b a : Reg) (imm : BitVec 12)
  | sd (b a : Reg) (imm : BitVec 12)
  | addi (d a : Reg) (imm : BitVec 12)
  | slti (d a : Reg) (imm : BitVec 12)
  | sltiu (d a : Reg) (imm : BitVec 12)
  | xori (d a : Reg) (imm : BitVec 12)
  | ori (d a : Reg) (imm : BitVec 12)
  | andi (d a : Reg) (imm : BitVec 12)
  | slli (d a : Reg) (sh : BitVec 6)
  | srli (d a : Reg) (sh : BitVec 6)
  | srai (d a : Reg) (sh : BitVec 6)
  | addiw (d a : Reg) (imm : BitVec 12)
  | slliw (d a : Reg) (sh : BitVec 5)
  | srliw (d a : Reg) (sh : BitVec 5)
  | sraiw (d a : Reg) (sh : BitVec 5)
  | add (d a b : Reg)
  | sll (d a b : Reg)
  | slt (d a b : Reg)
  | sltu (d a b : Reg)
  | xor (d a b : Reg)
  | srl (d a b : Reg)
  | or (d a b : Reg)
  | and (d a b : Reg)
  | sub (d a b : Reg)
  | sra (d a b : Reg)
  | mul (d a b : Reg)
  | mulh (d a b : Reg)
  | mulhsu (d a b : Reg)
  | mulhu (d a b : Reg)
  | div (d a b : Reg)
  | divu (d a b : Reg)
  | rem (d a b : Reg)
  | remu (d a b : Reg)
  | addw (d a b : Reg)
  | sllw (d a b : Reg)
  | srlw (d a b : Reg)
  | subw (d a b : Reg)
  | sraw (d a b : Reg)
  | mulw (d a b : Reg)
  | divw (d a b : Reg)
  | divuw (d a b : Reg)
  | remw (d a b : Reg)
  | remuw (d a b : Reg)
  | fence (fm pred succ : BitVec 4)
  | fenceI
  | ecall
  | ebreak
  | csrrw (d a : Reg) (csr : BitVec 12)
  | csrrs (d a : Reg) (csr : BitVec 12)
  | csrrc (d a : Reg) (csr : BitVec 12)
  | csrrwi (d : Reg) (u : BitVec 5) (csr : BitVec 12)
  | csrrsi (d : Reg) (u : BitVec 5) (csr : BitVec 12)
  | csrrci (d : Reg) (u : BitVec 5) (csr : BitVec 12)
  -- custom-0 (R40–R43)
  | wcall (off : BitVec 22)
  | wcallr (a : Reg)
  | wret
  | done
  | tretReplay
  | tretDiscard
  | send (tag ch : BitVec 6) (pl : BitVec 5)
  | sendi (tag ch : BitVec 6) (pl : BitVec 5)
  | sendm (ch : BitVec 6)
  | tagopEnSet (d : Reg) (tag : BitVec 6)
  | tagopEnClr (d : Reg) (tag : BitVec 6)
  | tagopPdSet (d : Reg) (tag : BitVec 6)
  | tagopPdClr (d : Reg) (tag : BitVec 6)
  | tagopEnSetMask (d a : Reg)
  | tagopEnClrMask (d a : Reg)
  | tagopPdSetMask (d a : Reg)
  | tagopPdClrMask (d a : Reg)
  | waitc (sy mx cp st ld : BitVec 4)
  | enq (a : Reg) (q : EngineQ)
  | enqm (a : Reg) (q : EngineQ)
  | sbind (n : BitVec 3) (a : Reg)
  | sunbind (n : BitVec 3)
  | trctlStatus (d : Reg)
  | trctlMarkr (a : Reg)
  | trctlMarkw (a : Reg)
  | trctlSat
  | trctlFlush
  | pair (west : Bool)
  | unpair
  | migrateCtx (a : Reg)
  | migrateFull (a : Reg)
  | rdcnt (d : Reg) (c : CountClass)
  | rdqf (d : Reg) (q : EngineQ)
  | rdstrm (d : Reg) (n : BitVec 3)
  | rdid (d : Reg) (item : IdItem)
  -- custom-1 (R44)
  | ldp (d a p : Reg) (imm : BitVec 6)
  | stp (d a p : Reg) (imm : BitVec 6)
  | ldacq (d a : Reg) (w : Bool) (g : BitVec 8)
  | strel (d a : Reg) (w : Bool) (g : BitVec 8)
  | amoAdd (d a b : Reg) (w aq rl : Bool)
  | amoAnd (d a b : Reg) (w aq rl : Bool)
  | amoOr (d a b : Reg) (w aq rl : Bool)
  | amoXor (d a b : Reg) (w aq rl : Bool)
  | amoMin (d a b : Reg) (w aq rl : Bool)
  | amoMax (d a b : Reg) (w aq rl : Bool)
  | amoMinu (d a b : Reg) (w aq rl : Bool)
  | amoMaxu (d a b : Reg) (w aq rl : Bool)
  | amoSwap (d a b : Reg) (w aq rl : Bool)
  | amoFadd (d a b : Reg) (aq rl : Bool)
  | amoAddPeer (d a p : Reg) (w aq rl : Bool)
  | amoAndPeer (d a p : Reg) (w aq rl : Bool)
  | amoOrPeer (d a p : Reg) (w aq rl : Bool)
  | amoXorPeer (d a p : Reg) (w aq rl : Bool)
  | amoMinPeer (d a p : Reg) (w aq rl : Bool)
  | amoMaxPeer (d a p : Reg) (w aq rl : Bool)
  | amoMinuPeer (d a p : Reg) (w aq rl : Bool)
  | amoMaxuPeer (d a p : Reg) (w aq rl : Bool)
  | amoSwapPeer (d a p : Reg) (w aq rl : Bool)
  | amoFaddPeer (d a p : Reg) (aq rl : Bool)
  | cas (d a b : Reg) (w aq rl : Bool)
  | push (d a : Reg) (v : Bool) (win : BitVec 8)
  | pop (d a : Reg) (v : Bool) (win : BitVec 8)
  | popw (d a : Reg) (v : Bool) (win : BitVec 8)
  | objinit (a b : Reg)
  | barinit (a b : Reg)
  | bararr (a : Reg)
  | barwait (d a : Reg)
  | decz (a b : Reg)
  | phase (mask : BitVec 3) (g : BitVec 8)
  | rtset (a b : Reg)
  | rtinv (a : Reg)
  | rtinvAll
  | rtbind (a b : Reg)
  -- custom-2 (R46)
  | vadd (et : ElemTy) (d a b : Reg) (k : BitVec 3)
  | vsub (et : ElemTy) (d a b : Reg) (k : BitVec 3)
  | vmul (et : ElemTy) (d a b : Reg) (k : BitVec 3)
  | vfma (et : ElemTy) (d a b : Reg) (k : BitVec 3)
  | vfms (et : ElemTy) (d a b : Reg) (k : BitVec 3)
  | vfnma (et : ElemTy) (d a b : Reg) (k : BitVec 3)
  | vmin (et : ElemTy) (d a b : Reg) (k : BitVec 3)
  | vmax (et : ElemTy) (d a b : Reg) (k : BitVec 3)
  | vand (et : ElemTy) (d a b : Reg) (k : BitVec 3)
  | vor (et : ElemTy) (d a b : Reg) (k : BitVec 3)
  | vxor (et : ElemTy) (d a b : Reg) (k : BitVec 3)
  | vshl (et : ElemTy) (d a b : Reg) (k : BitVec 3)
  | vshr (et : ElemTy) (d a b : Reg) (k : BitVec 3)
  | vsra (et : ElemTy) (d a b : Reg) (k : BitVec 3)
  | vcmp (c : CmpCond) (et : ElemTy) (kd : BitVec 3) (a b : Reg) (k : BitVec 3)
  | vabs (et : ElemTy) (d a : Reg) (k : BitVec 3)
  | vneg (et : ElemTy) (d a : Reg) (k : BitVec 3)
  | vrcp (et : ElemTy) (d a : Reg) (k : BitVec 3)
  | vsqrt (et : ElemTy) (d a : Reg) (k : BitVec 3)
  | vrsq (et : ElemTy) (d a : Reg) (k : BitVec 3)
  | vexp2 (et : ElemTy) (d a : Reg) (k : BitVec 3)
  | vclz (et : ElemTy) (d a : Reg) (k : BitVec 3)
  | vpopc (et : ElemTy) (d a : Reg) (k : BitVec 3)
  | vredAdd (et : ElemTy) (d a : Reg) (k : BitVec 3)
  | vredMin (et : ElemTy) (d a : Reg) (k : BitVec 3)
  | vredMax (et : ElemTy) (d a : Reg) (k : BitVec 3)
  -- custom-3 (R47, R48)
  | vld (et : ElemTy) (d a : Reg) (imm : BitVec 5) (k : BitVec 3)
  | vst (et : ElemTy) (d a : Reg) (imm : BitVec 5) (k : BitVec 3)
  | vlds (et : ElemTy) (d a b : Reg) (k : BitVec 3)
  | vsts (et : ElemTy) (d a b : Reg) (k : BitVec 3)
  | vldx (et : ElemTy) (d a b : Reg) (k : BitVec 3)
  | vstx (et : ElemTy) (d a b : Reg) (k : BitVec 3)
  | vcvtTo (et : ElemTy) (d a : Reg) (code : BitVec 4) (k : BitVec 3)
  | vcvtFrom (et : ElemTy) (d a : Reg) (code : BitVec 4) (k : BitVec 3)
  | vpack (et : ElemTy) (d a b : Reg) (k : BitVec 3)
  | vunpk (et : ElemTy) (d a : Reg) (hi : Bool) (k : BitVec 3)
  | vperm (et : ElemTy) (d a b : Reg) (k : BitVec 3)
  | vbcast (et : ElemTy) (d a : Reg) (k : BitVec 3)
  | vins (et : ElemTy) (d a : Reg) (n : BitVec 5)
  | vext (et : ElemTy) (d a : Reg) (n : BitVec 5)
  | vsel (et : ElemTy) (d a b : Reg) (k : BitVec 3)
  | vdot (et : ElemTy) (d a b : Reg) (k : BitVec 3)
  | vmma64 (d a b : Reg)
  | kand (kd ka kb : BitVec 3)
  | kor (kd ka kb : BitVec 3)
  | kxor (kd ka kb : BitVec 3)
  | knot (kd ka : BitVec 3)
  | kmovKK (kd ka : BitVec 3)
  | kmovKX (kd : BitVec 3) (a : Reg)
  | kmovXK (d : Reg) (ka : BitVec 3)
  -- tile commands (R49–R51): performed for the queue in focus
  | qnop
  | qfence (mask : BitVec 3)
  | qsignalAdd (addr : VAddr) (v : BitVec 28)
  | qsignalDecz (addr : VAddr)
  | qsignalBararr (addr : VAddr)
  | qwait (eq : Bool) (addr : VAddr) (v : BitVec 32)
  | qwaitPoll (core : Nat) (q : EngineQ)
  | mxloadb (m : Bool) (sel : BitVec 2) (loop : BitVec 8) (a sc : VAddr)
  | mxloada (sel : BitVec 2) (loop : BitVec 8) (a sc : VAddr)
  | mxrun (bank two sparse : Bool) (sel : BitVec 2) (pat : VAddr)
  | mxout (bank : Bool) (ty : OutTy) (loop : BitVec 8) (a : VAddr)
  | mxzero (bank : Bool) (w : BitVec 8)
  | mxcfg (op1 op2 : BitVec 48)
  | mxswap
  | cpy (loop : BitVec 8) (src dst : VAddr) (count : BitVec 48)
  | cpyg (src dst idx : VAddr)
  | cpys (src dst idx : VAddr)
  | cpyfill (loop : BitVec 8) (dst : VAddr) (count : BitVec 48) (pat : BitVec 32)
  | commandPerformed (core : Nat) (q : EngineQ)
  -- scheduling, inbox and traps (R13, R28, R186–R202, R210, R236)
  | activationStart (core queue : Nat)
  | pendingStart (core tag : Nat)
  | codeletStart (core : Nat)
  | closeStart (core tag : Nat)
  | managementStart (core : Nat)
  | routeFaultReport (core : Nat) (frame : Option ReportFrame)
  | movedNotice (core : Nat) (frame : Option ReportFrame)
  | acttime (core ctx : Nat)
  | messageInjection (core : Nat)
  | messageArrival (core flight : Nat)
  | heldMessageAccept (core flight : Nat)
  | subringRefill (core queue : Nat)
  | roundMarkerArrival (core flight : Nat)
  | fenceMarkerArrival (core flight : Nat)
  | argumentUpdateEffect (core tag : Nat)
  -- mesh (R218–R229)
  | routerHeaderStep (flight : Nat)
  | creditReturn (site : Nat) (dir : Dir) (lane : Nat)
  | flitCrcError (site : Nat) (dir : Dir)
  | linkReplay (site : Nat) (dir : Dir)
  | linkDown (site : Nat) (dir : Dir)
  -- homes and replies (R65–R67, R269, R289, R304, R397)
  | memoryRequestArrival (at' : Arrival)
  | deczHome (at' : Arrival)
  | loadReply (at' : Arrival)
  | storeAck (at' : Arrival)
  | syReply (at' : Arrival)
  | syncOperation (die : Nat)
  | dieArrival (die g : Nat)
  | phaseReleaseArrival (die g : Nat)
  | pairingArrival (flight : Nat)
  | parkedDeparture (site : Nat)
  | strelInject (id : Nat)
  | streamElementAccess (core q : Nat)
  -- translation (R312, R314)
  | walkComplete (die page : Nat)
  | missRetry (die : Nat) (r : Requester) (page : Nat)
  | busyRetry (die : Nat) (r : Requester) (page : Nat)
  | pageUpdate (va : VAddr) (leaf : Word) (move : Bool)
  -- checked pairs and migration (R204–R211)
  | twinCompare (core : Nat) (mismatch : Bool)
  | twinTimeout (core : Nat)
  | migrationDrainTimeout (core : Nat)
  | migrationAbandon (core : Nat) (targetError : Bool)
  | migrationTransfer (core : Nat) (crcOk : Bool) (badUnits : List Nat) (badMsgs : List Nat)
  | forwardPacket (site flight : Nat)
  -- power, cooling, reliability, bring-up (R263–R265, R366–R373)
  | regPhase (cluster : Nat)
  | regDark (cluster : Nat)
  | holdupEnd (cluster : Nat)
  | powerStageStart (cluster : Nat)
  | powerStageEnd (cluster : Nat)
  | powerWait (cluster : Nat)
  | convFail (die : Nat)
  | thermalSample (cluster junction dram : Nat)
  | trayUndervoltage (volts us : Nat)
  | coolantLowFlow (mlPerMin us : Nat)
  | softErr (die : Nat)
  | dramScrub (site : Nat)
  | coldReset
  | stagePower (firmwareOk : Bool) (version : Nat) (manifestOk supplyOk : Bool)
  | stageDramTraining (badBanks : List (Nat × Nat)) (ok : Bool)
  | stageLinkTest (failing : List (Nat × Dir)) (ok : Bool)
  | stageGraft
  -- launch queues, LOAD, launches, host (R331–R344, R355–R358)
  | qclaim (q : Nat)
  | qpublish (q : Nat) (slot : BitVec 7) (port : Nat)
  | queueTake
  | load
  | launch
  | roundStart
  | logReplay (core : Nat)
  | quiescenceSweep
  | labort (v : Word)
  | launchTimeout
  | hostRead (port off : Nat) (n : Nat)
  | hostWrite (port off : Nat) (data : List Byte)
  | registerWrite (port off : Nat) (v : Word)
  -- attestation (R375)
  | spdmGetVersion (port : Nat)
  | spdmGetCapabilities (port : Nat)
  | spdmNegotiateAlgorithms (port : Nat)
  | spdmGetDigests (port : Nat)
  | spdmGetCertificate (port : Nat)
  | spdmChallenge (port : Nat)
  | spdmGetMeasurements (port : Nat)
  | spdmUnsupported (port : Nat) (code : Nat)
  -- optical ports (R380–R398)
  | portTrain (p : Nat)
  | portDisable (p : Nat)
  | portTrained (p : Nat) (lanes : BitVec 16)
  | keyStage (p : Nat) (v : Word)
  | groupSend (p c : Nat)
  | groupReceive (p : Nat) (g : Group) (crcGood flitsGood : Bool) (uncorr : Nat)
  | ackFrame (p c key upto : Nat)
  | nakFrame (p c key counter : Nat)
  | fabricCreditFrame (p lane n : Nat)
  | keySwitch (p c idx : Nat) (count : Option Nat)
  | los (p : Nat) (lanes : BitVec 16)
  | restripe (p : Nat) (rx : Bool) (lanes : BitVec 16)
  | laneRejoin (p : Nat) (lane : Nat)
  | replayLog (p : Nat)
  | laserFailureDetect (p l : Nat)
  | laserMonitorUpdate (p l : Nat) (bias power temp hours trend drift : Word)
  | ptpSync (offset : Int) (time : Nat)
  | ptpLost
  | ptpResume
  | rotationStart
  | slotStart (p slot : Nat)
  -- words and commands no row names, and the remaining internal steps
  | illegalEncoding (w : Word32)
  | rejectedCommand (w : Vec)
  | hostRingWrite (q off : Nat) (data : List Byte)
  | streamElementArrival (core q : Nat) (poisoned : Bool)
  | engineReadReturn (core : Nat) (q : EngineQ) (poisoned : Bool)
  | fetchBlockReturn (core ctx : Nat) (poisoned : Bool)
  | graftRewrite (rows : List (Nat × Nat)) (remaps : List (Nat × Nat × Nat × Nat))
  | forwardingEntryRetire (site : Nat)
  deriving DecidableEq, Repr

end Sys2Proof
end

