-- ==== Sys2Proof/WellFormed.lean ====
section
/-! DEFINITION. Which terms of the syntax are instructions: the legality conditions of R38, R41, R45–R48 and R49–R51 that
the field types do not already express, and the ranges of the parties a machine step names. -/

namespace Sys2Proof

/-- The et code of R45. -/
def ElemTy.code : ElemTy → BitVec 3
  | .f32 => 0 | .bf16 => 1 | .f16 => 2 | .f64 => 3 | .i32 => 4 | .i16 => 5 | .i8 => 6 | .i64 => 7

/-- The element type of an et code (R45). -/
def ElemTy.ofCode (c : BitVec 3) : ElemTy :=
  if c = 0#3 then .f32 else if c = 1#3 then .bf16 else if c = 2#3 then .f16 else if c = 3#3 then .f64
  else if c = 4#3 then .i32 else if c = 5#3 then .i16 else if c = 6#3 then .i8 else .i64

/-- "FP" of R46: et 000 to 011. -/
def ElemTy.isFp : ElemTy → Bool
  | .f32 => true | .bf16 => true | .f16 => true | .f64 => true
  | .i32 => false | .i16 => false | .i8 => false | .i64 => false

/-- Width of an element in bits (R45, R113, R116). -/
def ElemTy.width : ElemTy → Nat
  | .f32 => 32 | .bf16 => 16 | .f16 => 16 | .f64 => 64 | .i32 => 32 | .i16 => 16 | .i8 => 8 | .i64 => 64

/-- `nelem(et)` of R9. -/
def ElemTy.nelem (et : ElemTy) : Nat := 256 / et.width

/-- A term that an encoding of the spec (or a step of the table) can name. -/
def Instr.wf : Instr → Bool
  | .lui _ _ => true
  | .auipc _ _ => true
  | .jal _ _ => true
  | .jalr _ _ _ => true
  | .beq _ _ _ => true
  | .bne _ _ _ => true
  | .blt _ _ _ => true
  | .bge _ _ _ => true
  | .bltu _ _ _ => true
  | .bgeu _ _ _ => true
  | .lb _ _ _ => true
  | .lh _ _ _ => true
  | .lw _ _ _ => true
  | .ld _ _ _ => true
  | .lbu _ _ _ => true
  | .lhu _ _ _ => true
  | .lwu _ _ _ => true
  | .sb _ _ _ => true
  | .sh _ _ _ => true
  | .sw _ _ _ => true
  | .sd _ _ _ => true
  | .addi _ _ _ => true
  | .slti _ _ _ => true
  | .sltiu _ _ _ => true
  | .xori _ _ _ => true
  | .ori _ _ _ => true
  | .andi _ _ _ => true
  | .slli _ _ _ => true
  | .srli _ _ _ => true
  | .srai _ _ _ => true
  | .addiw _ _ _ => true
  | .slliw _ _ _ => true
  | .srliw _ _ _ => true
  | .sraiw _ _ _ => true
  | .add _ _ _ => true
  | .sll _ _ _ => true
  | .slt _ _ _ => true
  | .sltu _ _ _ => true
  | .xor _ _ _ => true
  | .srl _ _ _ => true
  | .or _ _ _ => true
  | .and _ _ _ => true
  | .sub _ _ _ => true
  | .sra _ _ _ => true
  | .mul _ _ _ => true
  | .mulh _ _ _ => true
  | .mulhsu _ _ _ => true
  | .mulhu _ _ _ => true
  | .div _ _ _ => true
  | .divu _ _ _ => true
  | .rem _ _ _ => true
  | .remu _ _ _ => true
  | .addw _ _ _ => true
  | .sllw _ _ _ => true
  | .srlw _ _ _ => true
  | .subw _ _ _ => true
  | .sraw _ _ _ => true
  | .mulw _ _ _ => true
  | .divw _ _ _ => true
  | .divuw _ _ _ => true
  | .remw _ _ _ => true
  | .remuw _ _ _ => true
  | .fence _ _ _ => true
  | .fenceI => true
  | .ecall => true
  | .ebreak => true
  | .csrrw _ _ _ => true
  | .csrrs _ _ _ => true
  | .csrrc _ _ _ => true
  | .csrrwi _ _ _ => true
  | .csrrsi _ _ _ => true
  | .csrrci _ _ _ => true
  | .wcall _ => true
  | .wcallr _ => true
  | .wret => true
  | .done => true
  | .tretReplay => true
  | .tretDiscard => true
  | .send _ _ pl => pl == 0#5 || 16 <= pl.toNat
  | .sendi _ _ pl => pl == 0#5 || 16 <= pl.toNat
  | .sendm _ => true
  | .tagopEnSet _ _ => true
  | .tagopEnClr _ _ => true
  | .tagopPdSet _ _ => true
  | .tagopPdClr _ _ => true
  | .tagopEnSetMask _ _ => true
  | .tagopEnClrMask _ _ => true
  | .tagopPdSetMask _ _ => true
  | .tagopPdClrMask _ _ => true
  | .waitc _ _ _ _ _ => true
  | .enq _ _ => true
  | .enqm _ _ => true
  | .sbind _ _ => true
  | .sunbind _ => true
  | .trctlStatus _ => true
  | .trctlMarkr _ => true
  | .trctlMarkw _ => true
  | .trctlSat => true
  | .trctlFlush => true
  | .pair _ => true
  | .unpair => true
  | .migrateCtx _ => true
  | .migrateFull _ => true
  | .rdcnt _ _ => true
  | .rdqf _ _ => true
  | .rdstrm _ _ => true
  | .rdid _ _ => true
  | .ldp _ _ _ _ => true
  | .stp _ _ _ _ => true
  | .ldacq _ _ _ _ => true
  | .strel _ _ _ _ => true
  | .amoAdd _ _ _ _ _ _ => true
  | .amoAnd _ _ _ _ _ _ => true
  | .amoOr _ _ _ _ _ _ => true
  | .amoXor _ _ _ _ _ _ => true
  | .amoMin _ _ _ _ _ _ => true
  | .amoMax _ _ _ _ _ _ => true
  | .amoMinu _ _ _ _ _ _ => true
  | .amoMaxu _ _ _ _ _ _ => true
  | .amoSwap _ _ _ _ _ _ => true
  | .amoFadd _ _ _ _ _ => true
  | .amoAddPeer _ _ _ _ _ _ => true
  | .amoAndPeer _ _ _ _ _ _ => true
  | .amoOrPeer _ _ _ _ _ _ => true
  | .amoXorPeer _ _ _ _ _ _ => true
  | .amoMinPeer _ _ _ _ _ _ => true
  | .amoMaxPeer _ _ _ _ _ _ => true
  | .amoMinuPeer _ _ _ _ _ _ => true
  | .amoMaxuPeer _ _ _ _ _ _ => true
  | .amoSwapPeer _ _ _ _ _ _ => true
  | .amoFaddPeer _ _ _ _ _ => true
  | .cas _ _ _ _ _ _ => true
  | .push _ _ _ _ => true
  | .pop _ _ _ _ => true
  | .popw _ _ _ _ => true
  | .objinit _ _ => true
  | .barinit _ _ => true
  | .bararr _ => true
  | .barwait _ _ => true
  | .decz _ _ => true
  | .phase _ _ => true
  | .rtset _ _ => true
  | .rtinv _ => true
  | .rtinvAll => true
  | .rtbind _ _ => true
  | .vadd _ _ _ _ _ => true
  | .vsub _ _ _ _ _ => true
  | .vmul _ _ _ _ _ => true
  | .vfma et _ _ _ _ => et.isFp
  | .vfms et _ _ _ _ => et.isFp
  | .vfnma et _ _ _ _ => et.isFp
  | .vmin _ _ _ _ _ => true
  | .vmax _ _ _ _ _ => true
  | .vand et _ _ _ _ => !et.isFp
  | .vor et _ _ _ _ => !et.isFp
  | .vxor et _ _ _ _ => !et.isFp
  | .vshl et _ _ _ _ => !et.isFp
  | .vshr et _ _ _ _ => !et.isFp
  | .vsra et _ _ _ _ => !et.isFp
  | .vcmp _ _ kd _ _ _ => kd != 0#3
  | .vabs _ _ _ _ => true
  | .vneg _ _ _ _ => true
  | .vrcp et _ _ _ => et.isFp
  | .vsqrt et _ _ _ => et.isFp
  | .vrsq et _ _ _ => et.isFp && et != .f64
  | .vexp2 et _ _ _ => et.isFp && et != .f64
  | .vclz et _ _ _ => !et.isFp
  | .vpopc et _ _ _ => !et.isFp
  | .vredAdd _ _ _ _ => true
  | .vredMin _ _ _ _ => true
  | .vredMax _ _ _ _ => true
  | .vld _ _ _ _ _ => true
  | .vst _ _ _ _ _ => true
  | .vlds _ _ _ _ _ => true
  | .vsts _ _ _ _ _ => true
  | .vldx et _ _ _ _ => et == .f32 || et == .f64 || et == .i32 || et == .i64
  | .vstx et _ _ _ _ => et == .f32 || et == .f64 || et == .i32 || et == .i64
  | .vcvtTo et _ _ code _ => code.toNat != et.code.toNat && code.toNat <= 12
  | .vcvtFrom _ _ _ code _ => 8 <= code.toNat && code.toNat <= 12
  | .vpack et _ _ _ _ => et == .i64 || et == .i32 || et == .i16
  | .vunpk et _ _ _ _ => et == .i32 || et == .i16 || et == .i8
  | .vperm _ _ _ _ _ => true
  | .vbcast _ _ _ _ => true
  | .vins et _ _ n => n.toNat < et.nelem
  | .vext et _ _ n => n.toNat < et.nelem
  | .vsel _ _ _ _ k => k != 0#3
  | .vdot et _ _ _ _ => et == .bf16 || et == .f16 || et == .i16 || et == .i8
  | .vmma64 d _ _ => d.toNat % 4 == 0
  | .kand kd _ _ => kd != 0#3
  | .kor kd _ _ => kd != 0#3
  | .kxor kd _ _ => kd != 0#3
  | .knot kd _ => kd != 0#3
  | .kmovKK kd _ => kd != 0#3
  | .kmovKX kd _ => kd != 0#3
  | .kmovXK _ _ => true
  | .qnop => true
  | .qfence _ => true
  | .qsignalAdd _ _ => true
  | .qsignalDecz _ => true
  | .qsignalBararr _ => true
  | .qwait _ _ _ => true
  | .qwaitPoll core _ => decide (core < Config.numCores)
  | .mxloadb _ sel _ _ sc => sel.getLsbD 1 || sc == 0#48
  | .mxloada sel _ _ sc => sel.getLsbD 1 || sc == 0#48
  | .mxrun _ _ sparse _ pat => sparse || pat == 0#48
  | .mxout _ _ _ _ => true
  | .mxzero _ _ => true
  | .mxcfg _ op2 => op2.extractLsb' 8 16 == 0#16 && op2.extractLsb' 32 16 == 0#16
  | .mxswap => true
  | .cpy _ _ _ count => 1 <= count.toNat && count.toNat <= 0x1000000
  | .cpyg _ _ _ => true
  | .cpys _ _ _ => true
  | .cpyfill _ _ count _ => 1 <= count.toNat && count.toNat <= 0x1000000
  | .commandPerformed core _ => decide (core < Config.numCores)
  | .activationStart core queue => decide (core < Config.numCores) && decide (queue < 8)
  | .pendingStart core tag => decide (core < Config.numCores) && decide (tag < 64)
  | .codeletStart core => decide (core < Config.numCores)
  | .closeStart core tag => decide (core < Config.numCores) && decide (tag < 64)
  | .managementStart core => decide (core < Config.numCores)
  | .routeFaultReport core _ => decide (core < Config.numCores)
  | .movedNotice core _ => decide (core < Config.numCores)
  | .acttime core ctx => decide (core < Config.numCores) && decide (ctx < 4)
  | .messageInjection core => decide (core < Config.numCores)
  | .messageArrival core _ => decide (core < Config.numCores)
  | .heldMessageAccept core _ => decide (core < Config.numCores)
  | .subringRefill core queue => decide (core < Config.numCores) && decide (queue < 8)
  | .roundMarkerArrival core _ => decide (core < Config.numCores)
  | .fenceMarkerArrival core _ => decide (core < Config.numCores)
  | .argumentUpdateEffect core tag => decide (core < Config.numCores) && decide (tag < 64)
  | .routerHeaderStep _ => true
  | .creditReturn site _ lane => decide (site < 2097152) && decide (lane < 8)
  | .flitCrcError site _ => decide (site < 2097152)
  | .linkReplay site _ => decide (site < 2097152)
  | .linkDown site _ => decide (site < 2097152)
  | .memoryRequestArrival _ => true
  | .deczHome _ => true
  | .loadReply _ => true
  | .storeAck _ => true
  | .syReply _ => true
  | .syncOperation die => decide (die < Config.numDies)
  | .dieArrival die g => decide (die < Config.numDies) && decide (g < 256)
  | .phaseReleaseArrival die g => decide (die < Config.numDies) && decide (g < 256)
  | .pairingArrival _ => true
  | .parkedDeparture site => decide (site < 2097152)
  | .strelInject _ => true
  | .streamElementAccess core q => decide (core < Config.numCores) && decide (q < 8)
  | .walkComplete die _ => decide (die < Config.numDies)
  | .missRetry die _ _ => decide (die < Config.numDies)
  | .busyRetry die _ _ => decide (die < Config.numDies)
  | .pageUpdate _ _ _ => true
  | .twinCompare core _ => decide (core < Config.numCores)
  | .twinTimeout core => decide (core < Config.numCores)
  | .migrationDrainTimeout core => decide (core < Config.numCores)
  | .migrationAbandon core _ => decide (core < Config.numCores)
  | .migrationTransfer core _ _ _ => decide (core < Config.numCores)
  | .forwardPacket site _ => decide (site < 2097152)
  | .regPhase cluster => decide (cluster < 4096)
  | .regDark cluster => decide (cluster < 4096)
  | .holdupEnd cluster => decide (cluster < 4096)
  | .powerStageStart cluster => decide (cluster < 4096)
  | .powerStageEnd cluster => decide (cluster < 4096)
  | .powerWait cluster => decide (cluster < 4096)
  | .convFail die => decide (die < Config.numDies)
  | .thermalSample cluster _ _ => decide (cluster < 4096)
  | .trayUndervoltage _ _ => true
  | .coolantLowFlow _ _ => true
  | .softErr die => decide (die < Config.numDies)
  | .dramScrub site => decide (site < 2097152)
  | .coldReset => true
  | .stagePower _ _ _ _ => true
  | .stageDramTraining _ _ => true
  | .stageLinkTest _ _ => true
  | .stageGraft => true
  | .qclaim q => decide (q < 64)
  | .qpublish q _ port => decide (q < 64) && decide (port < 4)
  | .queueTake => true
  | .load => true
  | .launch => true
  | .roundStart => true
  | .logReplay core => decide (core < Config.numCores)
  | .quiescenceSweep => true
  | .labort _ => true
  | .launchTimeout => true
  | .hostRead port off n => decide (port < 4) && decide (off + n <= 2 ^ 36)
  | .hostWrite port off data => decide (port < 4) && decide (off + data.length <= 2 ^ 36)
  | .registerWrite port off _ => decide (port < 68) && decide (off % 8 = 0)
  | .spdmGetVersion port => decide (port < 4)
  | .spdmGetCapabilities port => decide (port < 4)
  | .spdmNegotiateAlgorithms port => decide (port < 4)
  | .spdmGetDigests port => decide (port < 4)
  | .spdmGetCertificate port => decide (port < 4)
  | .spdmChallenge port => decide (port < 4)
  | .spdmGetMeasurements port => decide (port < 4)
  | .spdmUnsupported port code => decide (port < 4) && decide (code < 256) && !([0x81, 0x82, 0x83, 0x84, 0xE0, 0xE1, 0xE3].contains code)
  | .portTrain p => decide (p < Config.numPorts)
  | .portDisable p => decide (p < Config.numPorts)
  | .portTrained p _ => decide (p < Config.numPorts)
  | .keyStage p _ => decide (p < Config.numPorts)
  | .groupSend p _ => decide (p < Config.numPorts)
  | .groupReceive p _ _ _ _ => decide (p < Config.numPorts)
  | .ackFrame p _ _ _ => decide (p < Config.numPorts)
  | .nakFrame p _ _ _ => decide (p < Config.numPorts)
  | .fabricCreditFrame p lane _ => decide (p < Config.numPorts) && decide (lane < 8)
  | .keySwitch p _ _ _ => decide (p < Config.numPorts)
  | .los p _ => decide (p < Config.numPorts)
  | .restripe p _ _ => decide (p < Config.numPorts)
  | .laneRejoin p lane => decide (p < Config.numPorts) && decide (lane < 16)
  | .replayLog p => decide (p < Config.numPorts)
  | .laserFailureDetect p l => decide (p < Config.numPorts) && decide (l < 4)
  | .laserMonitorUpdate p l _ _ _ _ _ _ => decide (p < Config.numPorts) && decide (l < 4)
  | .ptpSync _ _ => true
  | .ptpLost => true
  | .ptpResume => true
  | .rotationStart => true
  | .slotStart p _ => decide (p < Config.numPorts)
  | .illegalEncoding _ => true
  | .rejectedCommand _ => true
  | .hostRingWrite q _ _ => decide (q < 64)
  | .streamElementArrival core q _ => decide (core < Config.numCores) && decide (q < 8)
  | .engineReadReturn core _ _ => decide (core < Config.numCores)
  | .fetchBlockReturn core ctx _ => decide (core < Config.numCores) && decide (ctx < 4)
  | .graftRewrite _ _ => true
  | .forwardingEntryRetire site => decide (site < 2097152)

end Sys2Proof
end

