-- ==== Sys2Proof/Decode.lean ====
section
/-! DEFINITION. The decoder and the encoder: 32-bit words by R31–R48 and 256-bit tile command words by R49–R51.
A word no row names is refused: `none`, or the reason code of R178 for a command. -/

namespace Sys2Proof

/-- Queue code of R40. -/
def EngineQ.code : EngineQ → BitVec 5
  | .mxq => 0 | .cpq0 => 1 | .cpq1 => 2

/-- Class code of R40 (RDCNT). -/
def CountClass.code : CountClass → BitVec 5
  | .ld => 0 | .st => 1 | .cp => 2 | .mx => 3 | .sy => 4

/-- Item code of R40 (RDID). -/
def IdItem.code : IdItem → BitVec 5
  | .core => 0 | .site => 1 | .module => 2 | .context => 3

/-- Condition code of R46 (VCMP). -/
def CmpCond.code : CmpCond → BitVec 2
  | .eq => 0 | .ne => 1 | .lt => 2 | .le => 3

/-- The six fields every format of R36 and R39 shares: [31:25], [24:20], [19:15], [14:12], [11:7], [6:0]. -/
def encR (f7 : BitVec 7) (b a : Reg) (f3 : BitVec 3) (d : Reg) (op : BitVec 7) : Word32 :=
  f7 ++ b ++ a ++ f3 ++ d ++ op

/-- Major opcode 0x37 of R33. -/
def decodeLui (f7 : BitVec 7) (b a : Reg) (f3 : BitVec 3) (d : Reg) : Option Instr :=
  some (.lui d (f7 ++ b ++ a ++ f3))

/-- Major opcode 0x17 of R33. -/
def decodeAuipc (f7 : BitVec 7) (b a : Reg) (f3 : BitVec 3) (d : Reg) : Option Instr :=
  some (.auipc d (f7 ++ b ++ a ++ f3))

/-- Major opcode 0x6F of R33. -/
def decodeJal (f7 : BitVec 7) (b a : Reg) (f3 : BitVec 3) (d : Reg) : Option Instr :=
  some (.jal d (f7.extractLsb' 6 1 ++ a ++ f3 ++ b.extractLsb' 0 1 ++ f7.extractLsb' 0 6 ++ b.extractLsb' 1 4))

/-- Major opcode 0x67 of R33. -/
def decodeJalr (f7 : BitVec 7) (b a : Reg) (f3 : BitVec 3) (d : Reg) : Option Instr :=
  if f3 = 0x0#3 then some (.jalr d a (f7 ++ b))
  else none

/-- Major opcode 0x63 of R33. -/
def decodeBranch (f7 : BitVec 7) (b a : Reg) (f3 : BitVec 3) (d : Reg) : Option Instr :=
  if f3 = 0x0#3 then some (.beq a b (f7.extractLsb' 6 1 ++ d.extractLsb' 0 1 ++ f7.extractLsb' 0 6 ++ d.extractLsb' 1 4))
  else if f3 = 0x1#3 then some (.bne a b (f7.extractLsb' 6 1 ++ d.extractLsb' 0 1 ++ f7.extractLsb' 0 6 ++ d.extractLsb' 1 4))
  else if f3 = 0x4#3 then some (.blt a b (f7.extractLsb' 6 1 ++ d.extractLsb' 0 1 ++ f7.extractLsb' 0 6 ++ d.extractLsb' 1 4))
  else if f3 = 0x5#3 then some (.bge a b (f7.extractLsb' 6 1 ++ d.extractLsb' 0 1 ++ f7.extractLsb' 0 6 ++ d.extractLsb' 1 4))
  else if f3 = 0x6#3 then some (.bltu a b (f7.extractLsb' 6 1 ++ d.extractLsb' 0 1 ++ f7.extractLsb' 0 6 ++ d.extractLsb' 1 4))
  else if f3 = 0x7#3 then some (.bgeu a b (f7.extractLsb' 6 1 ++ d.extractLsb' 0 1 ++ f7.extractLsb' 0 6 ++ d.extractLsb' 1 4))
  else none

/-- Major opcode 0x03 of R33. -/
def decodeLoad (f7 : BitVec 7) (b a : Reg) (f3 : BitVec 3) (d : Reg) : Option Instr :=
  if f3 = 0x0#3 then some (.lb d a (f7 ++ b))
  else if f3 = 0x1#3 then some (.lh d a (f7 ++ b))
  else if f3 = 0x2#3 then some (.lw d a (f7 ++ b))
  else if f3 = 0x3#3 then some (.ld d a (f7 ++ b))
  else if f3 = 0x4#3 then some (.lbu d a (f7 ++ b))
  else if f3 = 0x5#3 then some (.lhu d a (f7 ++ b))
  else if f3 = 0x6#3 then some (.lwu d a (f7 ++ b))
  else none

/-- Major opcode 0x23 of R33. -/
def decodeStore (f7 : BitVec 7) (b a : Reg) (f3 : BitVec 3) (d : Reg) : Option Instr :=
  if f3 = 0x0#3 then some (.sb b a (f7 ++ d))
  else if f3 = 0x1#3 then some (.sh b a (f7 ++ d))
  else if f3 = 0x2#3 then some (.sw b a (f7 ++ d))
  else if f3 = 0x3#3 then some (.sd b a (f7 ++ d))
  else none

/-- Major opcode 0x13 of R33. -/
def decodeOpImm (f7 : BitVec 7) (b a : Reg) (f3 : BitVec 3) (d : Reg) : Option Instr :=
  if f3 = 0x0#3 then some (.addi d a (f7 ++ b))
  else if f3 = 0x2#3 then some (.slti d a (f7 ++ b))
  else if f3 = 0x3#3 then some (.sltiu d a (f7 ++ b))
  else if f3 = 0x4#3 then some (.xori d a (f7 ++ b))
  else if f3 = 0x6#3 then some (.ori d a (f7 ++ b))
  else if f3 = 0x7#3 then some (.andi d a (f7 ++ b))
  else if f3 = 0x1#3 ∧ f7.extractLsb' 1 6 = 0x0#6 then some (.slli d a (f7.extractLsb' 0 1 ++ b))
  else if f3 = 0x5#3 ∧ f7.extractLsb' 1 6 = 0x0#6 then some (.srli d a (f7.extractLsb' 0 1 ++ b))
  else if f3 = 0x5#3 ∧ f7.extractLsb' 1 6 = 0x10#6 then some (.srai d a (f7.extractLsb' 0 1 ++ b))
  else none

/-- Major opcode 0x1B of R33. -/
def decodeOpImm32 (f7 : BitVec 7) (b a : Reg) (f3 : BitVec 3) (d : Reg) : Option Instr :=
  if f3 = 0x0#3 then some (.addiw d a (f7 ++ b))
  else if f3 = 0x1#3 ∧ f7 = 0x0#7 then some (.slliw d a b)
  else if f3 = 0x5#3 ∧ f7 = 0x0#7 then some (.srliw d a b)
  else if f3 = 0x5#3 ∧ f7 = 0x20#7 then some (.sraiw d a b)
  else none

/-- Major opcode 0x33 of R33. -/
def decodeOp (f7 : BitVec 7) (b a : Reg) (f3 : BitVec 3) (d : Reg) : Option Instr :=
  if f7 = 0x0#7 ∧ f3 = 0x0#3 then some (.add d a b)
  else if f7 = 0x0#7 ∧ f3 = 0x1#3 then some (.sll d a b)
  else if f7 = 0x0#7 ∧ f3 = 0x2#3 then some (.slt d a b)
  else if f7 = 0x0#7 ∧ f3 = 0x3#3 then some (.sltu d a b)
  else if f7 = 0x0#7 ∧ f3 = 0x4#3 then some (.xor d a b)
  else if f7 = 0x0#7 ∧ f3 = 0x5#3 then some (.srl d a b)
  else if f7 = 0x0#7 ∧ f3 = 0x6#3 then some (.or d a b)
  else if f7 = 0x0#7 ∧ f3 = 0x7#3 then some (.and d a b)
  else if f7 = 0x20#7 ∧ f3 = 0x0#3 then some (.sub d a b)
  else if f7 = 0x20#7 ∧ f3 = 0x5#3 then some (.sra d a b)
  else if f7 = 0x1#7 ∧ f3 = 0x0#3 then some (.mul d a b)
  else if f7 = 0x1#7 ∧ f3 = 0x1#3 then some (.mulh d a b)
  else if f7 = 0x1#7 ∧ f3 = 0x2#3 then some (.mulhsu d a b)
  else if f7 = 0x1#7 ∧ f3 = 0x3#3 then some (.mulhu d a b)
  else if f7 = 0x1#7 ∧ f3 = 0x4#3 then some (.div d a b)
  else if f7 = 0x1#7 ∧ f3 = 0x5#3 then some (.divu d a b)
  else if f7 = 0x1#7 ∧ f3 = 0x6#3 then some (.rem d a b)
  else if f7 = 0x1#7 ∧ f3 = 0x7#3 then some (.remu d a b)
  else none

/-- Major opcode 0x3B of R33. -/
def decodeOp32 (f7 : BitVec 7) (b a : Reg) (f3 : BitVec 3) (d : Reg) : Option Instr :=
  if f7 = 0x0#7 ∧ f3 = 0x0#3 then some (.addw d a b)
  else if f7 = 0x0#7 ∧ f3 = 0x1#3 then some (.sllw d a b)
  else if f7 = 0x0#7 ∧ f3 = 0x5#3 then some (.srlw d a b)
  else if f7 = 0x20#7 ∧ f3 = 0x0#3 then some (.subw d a b)
  else if f7 = 0x20#7 ∧ f3 = 0x5#3 then some (.sraw d a b)
  else if f7 = 0x1#7 ∧ f3 = 0x0#3 then some (.mulw d a b)
  else if f7 = 0x1#7 ∧ f3 = 0x4#3 then some (.divw d a b)
  else if f7 = 0x1#7 ∧ f3 = 0x5#3 then some (.divuw d a b)
  else if f7 = 0x1#7 ∧ f3 = 0x6#3 then some (.remw d a b)
  else if f7 = 0x1#7 ∧ f3 = 0x7#3 then some (.remuw d a b)
  else none

/-- Major opcode 0x0F of R33. -/
def decodeMiscMem (f7 : BitVec 7) (b a : Reg) (f3 : BitVec 3) (d : Reg) : Option Instr :=
  if f3 = 0x0#3 ∧ a = 0#5 ∧ d = 0#5 then some (.fence (f7.extractLsb' 3 4) (f7.extractLsb' 0 3 ++ b.extractLsb' 4 1) (b.extractLsb' 0 4))
  else if f3 = 0x1#3 ∧ f7 = 0#7 ∧ b = 0#5 ∧ a = 0#5 ∧ d = 0#5 then some (.fenceI)
  else none

/-- Major opcode 0x73 of R33. -/
def decodeSystem (f7 : BitVec 7) (b a : Reg) (f3 : BitVec 3) (d : Reg) : Option Instr :=
  if f3 = 0x0#3 ∧ f7 = 0#7 ∧ b = 0x0#5 ∧ a = 0#5 ∧ d = 0#5 then some (.ecall)
  else if f3 = 0x0#3 ∧ f7 = 0#7 ∧ b = 0x1#5 ∧ a = 0#5 ∧ d = 0#5 then some (.ebreak)
  else if f3 = 0x1#3 then some (.csrrw d a (f7 ++ b))
  else if f3 = 0x2#3 then some (.csrrs d a (f7 ++ b))
  else if f3 = 0x3#3 then some (.csrrc d a (f7 ++ b))
  else if f3 = 0x5#3 then some (.csrrwi d a (f7 ++ b))
  else if f3 = 0x6#3 then some (.csrrsi d a (f7 ++ b))
  else if f3 = 0x7#3 then some (.csrrci d a (f7 ++ b))
  else none

/-- Major opcode 0x0B of R33. -/
def decodeCustom0 (f7 : BitVec 7) (b a : Reg) (f3 : BitVec 3) (d : Reg) : Option Instr :=
  if f3 = 0x0#3 then some (.wcall (f7 ++ b ++ a ++ d))
  else if f3 = 0x1#3 ∧ f7 = 0x0#7 ∧ b = 0#5 ∧ d = 0#5 then some (.wcallr a)
  else if f3 = 0x1#3 ∧ f7 = 0x1#7 ∧ b = 0x0#5 ∧ a = 0#5 ∧ d = 0#5 then some (.wret)
  else if f3 = 0x1#3 ∧ f7 = 0x2#7 ∧ b = 0x0#5 ∧ a = 0#5 ∧ d = 0#5 then some (.done)
  else if f3 = 0x1#3 ∧ f7 = 0x3#7 ∧ b = 0x0#5 ∧ a = 0#5 ∧ d = 0#5 then some (.tretReplay)
  else if f3 = 0x1#3 ∧ f7 = 0x3#7 ∧ b = 0x1#5 ∧ a = 0#5 ∧ d = 0#5 then some (.tretDiscard)
  else if f3 = 0x2#3 ∧ f7.extractLsb' 5 2 = 0x0#2 ∧ a.extractLsb' 0 3 = 0#3 ∧ (d = 0#5 ∨ 16 ≤ d.toNat) then some (.send (f7.extractLsb' 0 5 ++ b.extractLsb' 4 1) (b.extractLsb' 0 4 ++ a.extractLsb' 3 2) d)
  else if f3 = 0x2#3 ∧ f7.extractLsb' 5 2 = 0x1#2 ∧ a.extractLsb' 0 3 = 0#3 ∧ (d = 0#5 ∨ 16 ≤ d.toNat) then some (.sendi (f7.extractLsb' 0 5 ++ b.extractLsb' 4 1) (b.extractLsb' 0 4 ++ a.extractLsb' 3 2) d)
  else if f3 = 0x2#3 ∧ f7 = 0x40#7 ∧ b.extractLsb' 4 1 = 0#1 ∧ a.extractLsb' 0 3 = 0#3 ∧ d = 0#5 then some (.sendm (b.extractLsb' 0 4 ++ a.extractLsb' 3 2))
  else if f3 = 0x3#3 ∧ f7.extractLsb' 0 1 = 0#1 ∧ b = 0x0#5 ∧ a = 0#5 then some (.tagopEnSet d (f7.extractLsb' 1 6))
  else if f3 = 0x3#3 ∧ f7.extractLsb' 0 1 = 0#1 ∧ b = 0x4#5 ∧ a = 0#5 then some (.tagopEnClr d (f7.extractLsb' 1 6))
  else if f3 = 0x3#3 ∧ f7.extractLsb' 0 1 = 0#1 ∧ b = 0x8#5 ∧ a = 0#5 then some (.tagopPdSet d (f7.extractLsb' 1 6))
  else if f3 = 0x3#3 ∧ f7.extractLsb' 0 1 = 0#1 ∧ b = 0xC#5 ∧ a = 0#5 then some (.tagopPdClr d (f7.extractLsb' 1 6))
  else if f3 = 0x3#3 ∧ f7 = 0#7 ∧ b = 0x10#5 then some (.tagopEnSetMask d a)
  else if f3 = 0x3#3 ∧ f7 = 0#7 ∧ b = 0x14#5 then some (.tagopEnClrMask d a)
  else if f3 = 0x3#3 ∧ f7 = 0#7 ∧ b = 0x18#5 then some (.tagopPdSetMask d a)
  else if f3 = 0x3#3 ∧ f7 = 0#7 ∧ b = 0x1C#5 then some (.tagopPdClrMask d a)
  else if f3 = 0x4#3 ∧ a.extractLsb' 0 1 = 0#1 ∧ d.extractLsb' 0 1 = 0#1 then some (.waitc (f7.extractLsb' 3 4) (f7.extractLsb' 0 3 ++ b.extractLsb' 4 1) (b.extractLsb' 0 4) (a.extractLsb' 1 4) (d.extractLsb' 1 4))
  else if f3 = 0x5#3 ∧ f7 = 0x0#7 ∧ b = 0x0#5 ∧ d = 0#5 then some (.enq a .mxq)
  else if f3 = 0x5#3 ∧ f7 = 0x0#7 ∧ b = 0x1#5 ∧ d = 0#5 then some (.enq a .cpq0)
  else if f3 = 0x5#3 ∧ f7 = 0x0#7 ∧ b = 0x2#5 ∧ d = 0#5 then some (.enq a .cpq1)
  else if f3 = 0x5#3 ∧ f7 = 0x1#7 ∧ b = 0x0#5 ∧ d = 0#5 then some (.enqm a .mxq)
  else if f3 = 0x5#3 ∧ f7 = 0x1#7 ∧ b = 0x1#5 ∧ d = 0#5 then some (.enqm a .cpq0)
  else if f3 = 0x5#3 ∧ f7 = 0x1#7 ∧ b = 0x2#5 ∧ d = 0#5 then some (.enqm a .cpq1)
  else if f3 = 0x5#3 ∧ f7 = 0x2#7 ∧ b = 0#5 ∧ d.extractLsb' 3 2 = 0#2 then some (.sbind (d.extractLsb' 0 3) a)
  else if f3 = 0x5#3 ∧ f7 = 0x3#7 ∧ b = 0#5 ∧ a = 0#5 ∧ d.extractLsb' 3 2 = 0#2 then some (.sunbind (d.extractLsb' 0 3))
  else if f3 = 0x5#3 ∧ f7 = 0x4#7 ∧ b = 0x0#5 ∧ a = 0#5 then some (.trctlStatus d)
  else if f3 = 0x5#3 ∧ f7 = 0x4#7 ∧ b = 0x1#5 ∧ d = 0#5 then some (.trctlMarkr a)
  else if f3 = 0x5#3 ∧ f7 = 0x4#7 ∧ b = 0x2#5 ∧ d = 0#5 then some (.trctlMarkw a)
  else if f3 = 0x5#3 ∧ f7 = 0x4#7 ∧ b = 0x3#5 ∧ a = 0#5 ∧ d = 0#5 then some (.trctlSat)
  else if f3 = 0x5#3 ∧ f7 = 0x4#7 ∧ b = 0x4#5 ∧ a = 0#5 ∧ d = 0#5 then some (.trctlFlush)
  else if f3 = 0x5#3 ∧ f7 = 0x5#7 ∧ b.extractLsb' 1 4 = 0#4 ∧ a = 0#5 ∧ d = 0#5 then some (.pair (b.getLsbD 0))
  else if f3 = 0x5#3 ∧ f7 = 0x6#7 ∧ b = 0#5 ∧ a = 0#5 ∧ d = 0#5 then some (.unpair)
  else if f3 = 0x5#3 ∧ f7 = 0x7#7 ∧ b = 0x0#5 ∧ d = 0#5 then some (.migrateCtx a)
  else if f3 = 0x5#3 ∧ f7 = 0x7#7 ∧ b = 0x1#5 ∧ d = 0#5 then some (.migrateFull a)
  else if f3 = 0x5#3 ∧ f7 = 0x8#7 ∧ b = 0x0#5 ∧ a = 0#5 then some (.rdcnt d .ld)
  else if f3 = 0x5#3 ∧ f7 = 0x8#7 ∧ b = 0x1#5 ∧ a = 0#5 then some (.rdcnt d .st)
  else if f3 = 0x5#3 ∧ f7 = 0x8#7 ∧ b = 0x2#5 ∧ a = 0#5 then some (.rdcnt d .cp)
  else if f3 = 0x5#3 ∧ f7 = 0x8#7 ∧ b = 0x3#5 ∧ a = 0#5 then some (.rdcnt d .mx)
  else if f3 = 0x5#3 ∧ f7 = 0x8#7 ∧ b = 0x4#5 ∧ a = 0#5 then some (.rdcnt d .sy)
  else if f3 = 0x5#3 ∧ f7 = 0x9#7 ∧ b = 0x0#5 ∧ a = 0#5 then some (.rdqf d .mxq)
  else if f3 = 0x5#3 ∧ f7 = 0x9#7 ∧ b = 0x1#5 ∧ a = 0#5 then some (.rdqf d .cpq0)
  else if f3 = 0x5#3 ∧ f7 = 0x9#7 ∧ b = 0x2#5 ∧ a = 0#5 then some (.rdqf d .cpq1)
  else if f3 = 0x5#3 ∧ f7 = 0xA#7 ∧ b.extractLsb' 3 2 = 0#2 ∧ a = 0#5 then some (.rdstrm d (b.extractLsb' 0 3))
  else if f3 = 0x5#3 ∧ f7 = 0xB#7 ∧ b = 0x0#5 ∧ a = 0#5 then some (.rdid d .core)
  else if f3 = 0x5#3 ∧ f7 = 0xB#7 ∧ b = 0x1#5 ∧ a = 0#5 then some (.rdid d .site)
  else if f3 = 0x5#3 ∧ f7 = 0xB#7 ∧ b = 0x2#5 ∧ a = 0#5 then some (.rdid d .module)
  else if f3 = 0x5#3 ∧ f7 = 0xB#7 ∧ b = 0x3#5 ∧ a = 0#5 then some (.rdid d .context)
  else none

/-- Major opcode 0x2B of R33. -/
def decodeCustom1 (f7 : BitVec 7) (b a : Reg) (f3 : BitVec 3) (d : Reg) : Option Instr :=
  if f3 = 0x0#3 ∧ f7.extractLsb' 6 1 = 0x0#1 then some (.ldp d a b (f7.extractLsb' 0 6))
  else if f3 = 0x0#3 ∧ f7.extractLsb' 6 1 = 0x1#1 then some (.stp d a b (f7.extractLsb' 0 6))
  else if f3 = 0x1#3 ∧ b.extractLsb' 3 1 = 0x0#1 ∧ b.extractLsb' 0 2 = 0#2 then some (.ldacq d a (b.getLsbD 2) (f7 ++ b.extractLsb' 4 1))
  else if f3 = 0x1#3 ∧ b.extractLsb' 3 1 = 0x1#1 ∧ b.extractLsb' 0 2 = 0#2 then some (.strel d a (b.getLsbD 2) (f7 ++ b.extractLsb' 4 1))
  else if f3 = 0x2#3 ∧ f7.extractLsb' 3 4 = 0x0#4 then some (.amoAdd d a b (f7.getLsbD 0) (f7.getLsbD 2) (f7.getLsbD 1))
  else if f3 = 0x2#3 ∧ f7.extractLsb' 3 4 = 0x1#4 then some (.amoAnd d a b (f7.getLsbD 0) (f7.getLsbD 2) (f7.getLsbD 1))
  else if f3 = 0x2#3 ∧ f7.extractLsb' 3 4 = 0x2#4 then some (.amoOr d a b (f7.getLsbD 0) (f7.getLsbD 2) (f7.getLsbD 1))
  else if f3 = 0x2#3 ∧ f7.extractLsb' 3 4 = 0x3#4 then some (.amoXor d a b (f7.getLsbD 0) (f7.getLsbD 2) (f7.getLsbD 1))
  else if f3 = 0x2#3 ∧ f7.extractLsb' 3 4 = 0x4#4 then some (.amoMin d a b (f7.getLsbD 0) (f7.getLsbD 2) (f7.getLsbD 1))
  else if f3 = 0x2#3 ∧ f7.extractLsb' 3 4 = 0x5#4 then some (.amoMax d a b (f7.getLsbD 0) (f7.getLsbD 2) (f7.getLsbD 1))
  else if f3 = 0x2#3 ∧ f7.extractLsb' 3 4 = 0x6#4 then some (.amoMinu d a b (f7.getLsbD 0) (f7.getLsbD 2) (f7.getLsbD 1))
  else if f3 = 0x2#3 ∧ f7.extractLsb' 3 4 = 0x7#4 then some (.amoMaxu d a b (f7.getLsbD 0) (f7.getLsbD 2) (f7.getLsbD 1))
  else if f3 = 0x2#3 ∧ f7.extractLsb' 3 4 = 0x8#4 then some (.amoSwap d a b (f7.getLsbD 0) (f7.getLsbD 2) (f7.getLsbD 1))
  else if f3 = 0x2#3 ∧ f7.extractLsb' 3 4 = 0x9#4 ∧ f7.extractLsb' 0 1 = 1#1 then some (.amoFadd d a b (f7.getLsbD 2) (f7.getLsbD 1))
  else if f3 = 0x3#3 ∧ f7.extractLsb' 3 4 = 0x0#4 then some (.amoAddPeer d a b (f7.getLsbD 0) (f7.getLsbD 2) (f7.getLsbD 1))
  else if f3 = 0x3#3 ∧ f7.extractLsb' 3 4 = 0x1#4 then some (.amoAndPeer d a b (f7.getLsbD 0) (f7.getLsbD 2) (f7.getLsbD 1))
  else if f3 = 0x3#3 ∧ f7.extractLsb' 3 4 = 0x2#4 then some (.amoOrPeer d a b (f7.getLsbD 0) (f7.getLsbD 2) (f7.getLsbD 1))
  else if f3 = 0x3#3 ∧ f7.extractLsb' 3 4 = 0x3#4 then some (.amoXorPeer d a b (f7.getLsbD 0) (f7.getLsbD 2) (f7.getLsbD 1))
  else if f3 = 0x3#3 ∧ f7.extractLsb' 3 4 = 0x4#4 then some (.amoMinPeer d a b (f7.getLsbD 0) (f7.getLsbD 2) (f7.getLsbD 1))
  else if f3 = 0x3#3 ∧ f7.extractLsb' 3 4 = 0x5#4 then some (.amoMaxPeer d a b (f7.getLsbD 0) (f7.getLsbD 2) (f7.getLsbD 1))
  else if f3 = 0x3#3 ∧ f7.extractLsb' 3 4 = 0x6#4 then some (.amoMinuPeer d a b (f7.getLsbD 0) (f7.getLsbD 2) (f7.getLsbD 1))
  else if f3 = 0x3#3 ∧ f7.extractLsb' 3 4 = 0x7#4 then some (.amoMaxuPeer d a b (f7.getLsbD 0) (f7.getLsbD 2) (f7.getLsbD 1))
  else if f3 = 0x3#3 ∧ f7.extractLsb' 3 4 = 0x8#4 then some (.amoSwapPeer d a b (f7.getLsbD 0) (f7.getLsbD 2) (f7.getLsbD 1))
  else if f3 = 0x3#3 ∧ f7.extractLsb' 3 4 = 0x9#4 ∧ f7.extractLsb' 0 1 = 1#1 then some (.amoFaddPeer d a b (f7.getLsbD 2) (f7.getLsbD 1))
  else if f3 = 0x4#3 ∧ f7.extractLsb' 3 4 = 0x0#4 then some (.cas d a b (f7.getLsbD 0) (f7.getLsbD 2) (f7.getLsbD 1))
  else if f3 = 0x5#3 ∧ f7.extractLsb' 5 2 = 0x0#2 ∧ b.extractLsb' 0 1 = 0#1 then some (.push d a (b.getLsbD 1) (f7.extractLsb' 0 5 ++ b.extractLsb' 2 3))
  else if f3 = 0x5#3 ∧ f7.extractLsb' 5 2 = 0x1#2 ∧ b.extractLsb' 0 1 = 0#1 then some (.pop d a (b.getLsbD 1) (f7.extractLsb' 0 5 ++ b.extractLsb' 2 3))
  else if f3 = 0x5#3 ∧ f7.extractLsb' 5 2 = 0x2#2 ∧ b.extractLsb' 0 1 = 0#1 then some (.popw d a (b.getLsbD 1) (f7.extractLsb' 0 5 ++ b.extractLsb' 2 3))
  else if f3 = 0x6#3 ∧ f7 = 0x0#7 ∧ d = 0#5 then some (.objinit a b)
  else if f3 = 0x6#3 ∧ f7 = 0x1#7 ∧ d = 0#5 then some (.barinit a b)
  else if f3 = 0x6#3 ∧ f7 = 0x4#7 ∧ d = 0#5 then some (.decz a b)
  else if f3 = 0x6#3 ∧ f7 = 0x2#7 ∧ b = 0#5 ∧ d = 0#5 then some (.bararr a)
  else if f3 = 0x6#3 ∧ f7 = 0x3#7 ∧ b = 0#5 then some (.barwait d a)
  else if f3 = 0x6#3 ∧ f7.extractLsb' 3 4 = 0x1#4 ∧ b.extractLsb' 3 2 = 0#2 ∧ d = 0#5 then some (.phase (f7.extractLsb' 0 3) (b.extractLsb' 0 3 ++ a))
  else if f3 = 0x7#3 ∧ f7 = 0x0#7 ∧ d = 0#5 then some (.rtset a b)
  else if f3 = 0x7#3 ∧ f7 = 0x2#7 ∧ d = 0#5 then some (.rtbind a b)
  else if f3 = 0x7#3 ∧ f7 = 0x1#7 ∧ b = 0x0#5 ∧ d = 0#5 then some (.rtinv a)
  else if f3 = 0x7#3 ∧ f7 = 0x1#7 ∧ b = 0x1#5 ∧ a = 0#5 ∧ d = 0#5 then some (.rtinvAll)
  else none

/-- Major opcode 0x5B of R33. -/
def decodeCustom2 (f7 : BitVec 7) (b a : Reg) (f3 : BitVec 3) (d : Reg) : Option Instr :=
  if f7.extractLsb' 3 4 = 0x0#4 then some (.vadd (ElemTy.ofCode f3) d a b (f7.extractLsb' 0 3))
  else if f7.extractLsb' 3 4 = 0x1#4 then some (.vsub (ElemTy.ofCode f3) d a b (f7.extractLsb' 0 3))
  else if f7.extractLsb' 3 4 = 0x2#4 then some (.vmul (ElemTy.ofCode f3) d a b (f7.extractLsb' 0 3))
  else if f7.extractLsb' 3 4 = 0x3#4 ∧ (Instr.vfma (ElemTy.ofCode f3) d a b (f7.extractLsb' 0 3)).wf then some (.vfma (ElemTy.ofCode f3) d a b (f7.extractLsb' 0 3))
  else if f7.extractLsb' 3 4 = 0x4#4 ∧ (Instr.vfms (ElemTy.ofCode f3) d a b (f7.extractLsb' 0 3)).wf then some (.vfms (ElemTy.ofCode f3) d a b (f7.extractLsb' 0 3))
  else if f7.extractLsb' 3 4 = 0x5#4 ∧ (Instr.vfnma (ElemTy.ofCode f3) d a b (f7.extractLsb' 0 3)).wf then some (.vfnma (ElemTy.ofCode f3) d a b (f7.extractLsb' 0 3))
  else if f7.extractLsb' 3 4 = 0x6#4 then some (.vmin (ElemTy.ofCode f3) d a b (f7.extractLsb' 0 3))
  else if f7.extractLsb' 3 4 = 0x7#4 then some (.vmax (ElemTy.ofCode f3) d a b (f7.extractLsb' 0 3))
  else if f7.extractLsb' 3 4 = 0x8#4 ∧ (Instr.vand (ElemTy.ofCode f3) d a b (f7.extractLsb' 0 3)).wf then some (.vand (ElemTy.ofCode f3) d a b (f7.extractLsb' 0 3))
  else if f7.extractLsb' 3 4 = 0x9#4 ∧ (Instr.vor (ElemTy.ofCode f3) d a b (f7.extractLsb' 0 3)).wf then some (.vor (ElemTy.ofCode f3) d a b (f7.extractLsb' 0 3))
  else if f7.extractLsb' 3 4 = 0xA#4 ∧ (Instr.vxor (ElemTy.ofCode f3) d a b (f7.extractLsb' 0 3)).wf then some (.vxor (ElemTy.ofCode f3) d a b (f7.extractLsb' 0 3))
  else if f7.extractLsb' 3 4 = 0xB#4 ∧ (Instr.vshl (ElemTy.ofCode f3) d a b (f7.extractLsb' 0 3)).wf then some (.vshl (ElemTy.ofCode f3) d a b (f7.extractLsb' 0 3))
  else if f7.extractLsb' 3 4 = 0xC#4 ∧ (Instr.vshr (ElemTy.ofCode f3) d a b (f7.extractLsb' 0 3)).wf then some (.vshr (ElemTy.ofCode f3) d a b (f7.extractLsb' 0 3))
  else if f7.extractLsb' 3 4 = 0xD#4 ∧ (Instr.vsra (ElemTy.ofCode f3) d a b (f7.extractLsb' 0 3)).wf then some (.vsra (ElemTy.ofCode f3) d a b (f7.extractLsb' 0 3))
  else if f7.extractLsb' 3 4 = 0xE#4 ∧ d.extractLsb' 3 2 = 0x0#2 ∧ d.extractLsb' 0 3 ≠ 0#3 then some (.vcmp .eq (ElemTy.ofCode f3) (d.extractLsb' 0 3) a b (f7.extractLsb' 0 3))
  else if f7.extractLsb' 3 4 = 0xE#4 ∧ d.extractLsb' 3 2 = 0x1#2 ∧ d.extractLsb' 0 3 ≠ 0#3 then some (.vcmp .ne (ElemTy.ofCode f3) (d.extractLsb' 0 3) a b (f7.extractLsb' 0 3))
  else if f7.extractLsb' 3 4 = 0xE#4 ∧ d.extractLsb' 3 2 = 0x2#2 ∧ d.extractLsb' 0 3 ≠ 0#3 then some (.vcmp .lt (ElemTy.ofCode f3) (d.extractLsb' 0 3) a b (f7.extractLsb' 0 3))
  else if f7.extractLsb' 3 4 = 0xE#4 ∧ d.extractLsb' 3 2 = 0x3#2 ∧ d.extractLsb' 0 3 ≠ 0#3 then some (.vcmp .le (ElemTy.ofCode f3) (d.extractLsb' 0 3) a b (f7.extractLsb' 0 3))
  else if f7.extractLsb' 3 4 = 0xF#4 ∧ b = 0x0#5 then some (.vabs (ElemTy.ofCode f3) d a (f7.extractLsb' 0 3))
  else if f7.extractLsb' 3 4 = 0xF#4 ∧ b = 0x1#5 then some (.vneg (ElemTy.ofCode f3) d a (f7.extractLsb' 0 3))
  else if f7.extractLsb' 3 4 = 0xF#4 ∧ b = 0x2#5 ∧ (Instr.vrcp (ElemTy.ofCode f3) d a (f7.extractLsb' 0 3)).wf then some (.vrcp (ElemTy.ofCode f3) d a (f7.extractLsb' 0 3))
  else if f7.extractLsb' 3 4 = 0xF#4 ∧ b = 0x3#5 ∧ (Instr.vsqrt (ElemTy.ofCode f3) d a (f7.extractLsb' 0 3)).wf then some (.vsqrt (ElemTy.ofCode f3) d a (f7.extractLsb' 0 3))
  else if f7.extractLsb' 3 4 = 0xF#4 ∧ b = 0x4#5 ∧ (Instr.vrsq (ElemTy.ofCode f3) d a (f7.extractLsb' 0 3)).wf then some (.vrsq (ElemTy.ofCode f3) d a (f7.extractLsb' 0 3))
  else if f7.extractLsb' 3 4 = 0xF#4 ∧ b = 0x5#5 ∧ (Instr.vexp2 (ElemTy.ofCode f3) d a (f7.extractLsb' 0 3)).wf then some (.vexp2 (ElemTy.ofCode f3) d a (f7.extractLsb' 0 3))
  else if f7.extractLsb' 3 4 = 0xF#4 ∧ b = 0x6#5 ∧ (Instr.vclz (ElemTy.ofCode f3) d a (f7.extractLsb' 0 3)).wf then some (.vclz (ElemTy.ofCode f3) d a (f7.extractLsb' 0 3))
  else if f7.extractLsb' 3 4 = 0xF#4 ∧ b = 0x7#5 ∧ (Instr.vpopc (ElemTy.ofCode f3) d a (f7.extractLsb' 0 3)).wf then some (.vpopc (ElemTy.ofCode f3) d a (f7.extractLsb' 0 3))
  else if f7.extractLsb' 3 4 = 0xF#4 ∧ b = 0x8#5 then some (.vredAdd (ElemTy.ofCode f3) d a (f7.extractLsb' 0 3))
  else if f7.extractLsb' 3 4 = 0xF#4 ∧ b = 0x9#5 then some (.vredMin (ElemTy.ofCode f3) d a (f7.extractLsb' 0 3))
  else if f7.extractLsb' 3 4 = 0xF#4 ∧ b = 0xA#5 then some (.vredMax (ElemTy.ofCode f3) d a (f7.extractLsb' 0 3))
  else none

/-- Major opcode 0x7B of R33. -/
def decodeCustom3 (f7 : BitVec 7) (b a : Reg) (f3 : BitVec 3) (d : Reg) : Option Instr :=
  if f7.extractLsb' 3 4 = 0x0#4 then some (.vld (ElemTy.ofCode f3) d a b (f7.extractLsb' 0 3))
  else if f7.extractLsb' 3 4 = 0x1#4 then some (.vst (ElemTy.ofCode f3) d a b (f7.extractLsb' 0 3))
  else if f7.extractLsb' 3 4 = 0x2#4 then some (.vlds (ElemTy.ofCode f3) d a b (f7.extractLsb' 0 3))
  else if f7.extractLsb' 3 4 = 0x3#4 then some (.vsts (ElemTy.ofCode f3) d a b (f7.extractLsb' 0 3))
  else if f7.extractLsb' 3 4 = 0x4#4 ∧ (Instr.vldx (ElemTy.ofCode f3) d a b (f7.extractLsb' 0 3)).wf then some (.vldx (ElemTy.ofCode f3) d a b (f7.extractLsb' 0 3))
  else if f7.extractLsb' 3 4 = 0x5#4 ∧ (Instr.vstx (ElemTy.ofCode f3) d a b (f7.extractLsb' 0 3)).wf then some (.vstx (ElemTy.ofCode f3) d a b (f7.extractLsb' 0 3))
  else if f7.extractLsb' 3 4 = 0x6#4 ∧ b.extractLsb' 4 1 = 0x0#1 ∧ (Instr.vcvtTo (ElemTy.ofCode f3) d a (b.extractLsb' 0 4) (f7.extractLsb' 0 3)).wf then some (.vcvtTo (ElemTy.ofCode f3) d a (b.extractLsb' 0 4) (f7.extractLsb' 0 3))
  else if f7.extractLsb' 3 4 = 0x6#4 ∧ b.extractLsb' 4 1 = 0x1#1 ∧ (Instr.vcvtFrom (ElemTy.ofCode f3) d a (b.extractLsb' 0 4) (f7.extractLsb' 0 3)).wf then some (.vcvtFrom (ElemTy.ofCode f3) d a (b.extractLsb' 0 4) (f7.extractLsb' 0 3))
  else if f7.extractLsb' 3 4 = 0x7#4 ∧ (Instr.vpack (ElemTy.ofCode f3) d a b (f7.extractLsb' 0 3)).wf then some (.vpack (ElemTy.ofCode f3) d a b (f7.extractLsb' 0 3))
  else if f7.extractLsb' 3 4 = 0x8#4 ∧ b.extractLsb' 1 4 = 0#4 ∧ (Instr.vunpk (ElemTy.ofCode f3) d a (b.getLsbD 0) (f7.extractLsb' 0 3)).wf then some (.vunpk (ElemTy.ofCode f3) d a (b.getLsbD 0) (f7.extractLsb' 0 3))
  else if f7.extractLsb' 3 4 = 0x9#4 then some (.vperm (ElemTy.ofCode f3) d a b (f7.extractLsb' 0 3))
  else if f7.extractLsb' 3 4 = 0xA#4 ∧ b = 0#5 then some (.vbcast (ElemTy.ofCode f3) d a (f7.extractLsb' 0 3))
  else if f7.extractLsb' 3 4 = 0xB#4 ∧ f7.extractLsb' 0 3 = 0#3 ∧ (Instr.vins (ElemTy.ofCode f3) d a b).wf then some (.vins (ElemTy.ofCode f3) d a b)
  else if f7.extractLsb' 3 4 = 0xC#4 ∧ f7.extractLsb' 0 3 = 0#3 ∧ (Instr.vext (ElemTy.ofCode f3) d a b).wf then some (.vext (ElemTy.ofCode f3) d a b)
  else if f7.extractLsb' 3 4 = 0xD#4 ∧ (Instr.vsel (ElemTy.ofCode f3) d a b (f7.extractLsb' 0 3)).wf then some (.vsel (ElemTy.ofCode f3) d a b (f7.extractLsb' 0 3))
  else if f7.extractLsb' 3 4 = 0xE#4 ∧ (Instr.vdot (ElemTy.ofCode f3) d a b (f7.extractLsb' 0 3)).wf then some (.vdot (ElemTy.ofCode f3) d a b (f7.extractLsb' 0 3))
  else if f7.extractLsb' 3 4 = 0xE#4 ∧ f3 = 0x3#3 ∧ f7.extractLsb' 0 3 = 0#3 ∧ (Instr.vmma64 d a b).wf then some (.vmma64 d a b)
  else if f7.extractLsb' 3 4 = 0xF#4 ∧ f3 = 0#3 ∧ b = 0x0#5 ∧ a.extractLsb' 3 2 = 0#2 ∧ d.extractLsb' 3 2 = 0#2 ∧ d.extractLsb' 0 3 ≠ 0#3 then some (.kand (d.extractLsb' 0 3) (a.extractLsb' 0 3) (f7.extractLsb' 0 3))
  else if f7.extractLsb' 3 4 = 0xF#4 ∧ f3 = 0#3 ∧ b = 0x1#5 ∧ a.extractLsb' 3 2 = 0#2 ∧ d.extractLsb' 3 2 = 0#2 ∧ d.extractLsb' 0 3 ≠ 0#3 then some (.kor (d.extractLsb' 0 3) (a.extractLsb' 0 3) (f7.extractLsb' 0 3))
  else if f7.extractLsb' 3 4 = 0xF#4 ∧ f3 = 0#3 ∧ b = 0x2#5 ∧ a.extractLsb' 3 2 = 0#2 ∧ d.extractLsb' 3 2 = 0#2 ∧ d.extractLsb' 0 3 ≠ 0#3 then some (.kxor (d.extractLsb' 0 3) (a.extractLsb' 0 3) (f7.extractLsb' 0 3))
  else if f7 = 0x78#7 ∧ f3 = 0#3 ∧ b = 0x3#5 ∧ a.extractLsb' 3 2 = 0#2 ∧ d.extractLsb' 3 2 = 0#2 ∧ d.extractLsb' 0 3 ≠ 0#3 then some (.knot (d.extractLsb' 0 3) (a.extractLsb' 0 3))
  else if f7 = 0x78#7 ∧ f3 = 0#3 ∧ b = 0x4#5 ∧ a.extractLsb' 3 2 = 0#2 ∧ d.extractLsb' 3 2 = 0#2 ∧ d.extractLsb' 0 3 ≠ 0#3 then some (.kmovKK (d.extractLsb' 0 3) (a.extractLsb' 0 3))
  else if f7 = 0x78#7 ∧ f3 = 0#3 ∧ b = 0x5#5 ∧ d.extractLsb' 3 2 = 0#2 ∧ d.extractLsb' 0 3 ≠ 0#3 then some (.kmovKX (d.extractLsb' 0 3) a)
  else if f7 = 0x78#7 ∧ f3 = 0#3 ∧ b = 0x6#5 ∧ a.extractLsb' 3 2 = 0#2 then some (.kmovXK d (a.extractLsb' 0 3))
  else none

/-- The fate of a word by its fields, R33: a major opcode that is not implemented names no instruction. -/
def decodeFields (f7 : BitVec 7) (b a : Reg) (f3 : BitVec 3) (d : Reg) (op : BitVec 7) : Option Instr :=
  if op = 0x37#7 then decodeLui f7 b a f3 d
  else if op = 0x17#7 then decodeAuipc f7 b a f3 d
  else if op = 0x6F#7 then decodeJal f7 b a f3 d
  else if op = 0x67#7 then decodeJalr f7 b a f3 d
  else if op = 0x63#7 then decodeBranch f7 b a f3 d
  else if op = 0x03#7 then decodeLoad f7 b a f3 d
  else if op = 0x23#7 then decodeStore f7 b a f3 d
  else if op = 0x13#7 then decodeOpImm f7 b a f3 d
  else if op = 0x1B#7 then decodeOpImm32 f7 b a f3 d
  else if op = 0x33#7 then decodeOp f7 b a f3 d
  else if op = 0x3B#7 then decodeOp32 f7 b a f3 d
  else if op = 0x0F#7 then decodeMiscMem f7 b a f3 d
  else if op = 0x73#7 then decodeSystem f7 b a f3 d
  else if op = 0x0B#7 then decodeCustom0 f7 b a f3 d
  else if op = 0x2B#7 then decodeCustom1 f7 b a f3 d
  else if op = 0x5B#7 then decodeCustom2 f7 b a f3 d
  else if op = 0x7B#7 then decodeCustom3 f7 b a f3 d
  else none

/-- The instruction a word names, or none where its fate is illegal (R31, R33, R38). -/
def decode32 (w : Word32) : Option Instr :=
  decodeFields (w.extractLsb' 25 7) (w.extractLsb' 20 5) (w.extractLsb' 15 5) (w.extractLsb' 12 3)
    (w.extractLsb' 7 5) (w.extractLsb' 0 7)

/-- The 32-bit word of an instruction that has one (R36–R48); a machine step and a tile command have none. -/
def encode : Instr → Option Word32
  | .lui d imm => some (encR (imm.extractLsb' 13 7) (imm.extractLsb' 8 5) (imm.extractLsb' 3 5) (imm.extractLsb' 0 3) (d) 0x37#7)
  | .auipc d imm => some (encR (imm.extractLsb' 13 7) (imm.extractLsb' 8 5) (imm.extractLsb' 3 5) (imm.extractLsb' 0 3) (d) 0x17#7)
  | .jal d imm => some (encR (imm.extractLsb' 19 1 ++ imm.extractLsb' 4 6) (imm.extractLsb' 0 4 ++ imm.extractLsb' 10 1) (imm.extractLsb' 14 5) (imm.extractLsb' 11 3) (d) 0x6F#7)
  | .jalr d a imm => some (encR (imm.extractLsb' 5 7) (imm.extractLsb' 0 5) (a) (0x0#3) (d) 0x67#7)
  | .beq a b imm => some (encR (imm.extractLsb' 11 1 ++ imm.extractLsb' 4 6) (b) (a) (0x0#3) (imm.extractLsb' 0 4 ++ imm.extractLsb' 10 1) 0x63#7)
  | .bne a b imm => some (encR (imm.extractLsb' 11 1 ++ imm.extractLsb' 4 6) (b) (a) (0x1#3) (imm.extractLsb' 0 4 ++ imm.extractLsb' 10 1) 0x63#7)
  | .blt a b imm => some (encR (imm.extractLsb' 11 1 ++ imm.extractLsb' 4 6) (b) (a) (0x4#3) (imm.extractLsb' 0 4 ++ imm.extractLsb' 10 1) 0x63#7)
  | .bge a b imm => some (encR (imm.extractLsb' 11 1 ++ imm.extractLsb' 4 6) (b) (a) (0x5#3) (imm.extractLsb' 0 4 ++ imm.extractLsb' 10 1) 0x63#7)
  | .bltu a b imm => some (encR (imm.extractLsb' 11 1 ++ imm.extractLsb' 4 6) (b) (a) (0x6#3) (imm.extractLsb' 0 4 ++ imm.extractLsb' 10 1) 0x63#7)
  | .bgeu a b imm => some (encR (imm.extractLsb' 11 1 ++ imm.extractLsb' 4 6) (b) (a) (0x7#3) (imm.extractLsb' 0 4 ++ imm.extractLsb' 10 1) 0x63#7)
  | .lb d a imm => some (encR (imm.extractLsb' 5 7) (imm.extractLsb' 0 5) (a) (0x0#3) (d) 0x03#7)
  | .lh d a imm => some (encR (imm.extractLsb' 5 7) (imm.extractLsb' 0 5) (a) (0x1#3) (d) 0x03#7)
  | .lw d a imm => some (encR (imm.extractLsb' 5 7) (imm.extractLsb' 0 5) (a) (0x2#3) (d) 0x03#7)
  | .ld d a imm => some (encR (imm.extractLsb' 5 7) (imm.extractLsb' 0 5) (a) (0x3#3) (d) 0x03#7)
  | .lbu d a imm => some (encR (imm.extractLsb' 5 7) (imm.extractLsb' 0 5) (a) (0x4#3) (d) 0x03#7)
  | .lhu d a imm => some (encR (imm.extractLsb' 5 7) (imm.extractLsb' 0 5) (a) (0x5#3) (d) 0x03#7)
  | .lwu d a imm => some (encR (imm.extractLsb' 5 7) (imm.extractLsb' 0 5) (a) (0x6#3) (d) 0x03#7)
  | .sb b a imm => some (encR (imm.extractLsb' 5 7) (b) (a) (0x0#3) (imm.extractLsb' 0 5) 0x23#7)
  | .sh b a imm => some (encR (imm.extractLsb' 5 7) (b) (a) (0x1#3) (imm.extractLsb' 0 5) 0x23#7)
  | .sw b a imm => some (encR (imm.extractLsb' 5 7) (b) (a) (0x2#3) (imm.extractLsb' 0 5) 0x23#7)
  | .sd b a imm => some (encR (imm.extractLsb' 5 7) (b) (a) (0x3#3) (imm.extractLsb' 0 5) 0x23#7)
  | .addi d a imm => some (encR (imm.extractLsb' 5 7) (imm.extractLsb' 0 5) (a) (0x0#3) (d) 0x13#7)
  | .slti d a imm => some (encR (imm.extractLsb' 5 7) (imm.extractLsb' 0 5) (a) (0x2#3) (d) 0x13#7)
  | .sltiu d a imm => some (encR (imm.extractLsb' 5 7) (imm.extractLsb' 0 5) (a) (0x3#3) (d) 0x13#7)
  | .xori d a imm => some (encR (imm.extractLsb' 5 7) (imm.extractLsb' 0 5) (a) (0x4#3) (d) 0x13#7)
  | .ori d a imm => some (encR (imm.extractLsb' 5 7) (imm.extractLsb' 0 5) (a) (0x6#3) (d) 0x13#7)
  | .andi d a imm => some (encR (imm.extractLsb' 5 7) (imm.extractLsb' 0 5) (a) (0x7#3) (d) 0x13#7)
  | .slli d a sh => some (encR (0x0#6 ++ sh.extractLsb' 5 1) (sh.extractLsb' 0 5) (a) (0x1#3) (d) 0x13#7)
  | .srli d a sh => some (encR (0x0#6 ++ sh.extractLsb' 5 1) (sh.extractLsb' 0 5) (a) (0x5#3) (d) 0x13#7)
  | .srai d a sh => some (encR (0x10#6 ++ sh.extractLsb' 5 1) (sh.extractLsb' 0 5) (a) (0x5#3) (d) 0x13#7)
  | .addiw d a imm => some (encR (imm.extractLsb' 5 7) (imm.extractLsb' 0 5) (a) (0x0#3) (d) 0x1B#7)
  | .slliw d a sh => some (encR (0x0#7) (sh) (a) (0x1#3) (d) 0x1B#7)
  | .srliw d a sh => some (encR (0x0#7) (sh) (a) (0x5#3) (d) 0x1B#7)
  | .sraiw d a sh => some (encR (0x20#7) (sh) (a) (0x5#3) (d) 0x1B#7)
  | .add d a b => some (encR (0x0#7) (b) (a) (0x0#3) (d) 0x33#7)
  | .sll d a b => some (encR (0x0#7) (b) (a) (0x1#3) (d) 0x33#7)
  | .slt d a b => some (encR (0x0#7) (b) (a) (0x2#3) (d) 0x33#7)
  | .sltu d a b => some (encR (0x0#7) (b) (a) (0x3#3) (d) 0x33#7)
  | .xor d a b => some (encR (0x0#7) (b) (a) (0x4#3) (d) 0x33#7)
  | .srl d a b => some (encR (0x0#7) (b) (a) (0x5#3) (d) 0x33#7)
  | .or d a b => some (encR (0x0#7) (b) (a) (0x6#3) (d) 0x33#7)
  | .and d a b => some (encR (0x0#7) (b) (a) (0x7#3) (d) 0x33#7)
  | .sub d a b => some (encR (0x20#7) (b) (a) (0x0#3) (d) 0x33#7)
  | .sra d a b => some (encR (0x20#7) (b) (a) (0x5#3) (d) 0x33#7)
  | .mul d a b => some (encR (0x1#7) (b) (a) (0x0#3) (d) 0x33#7)
  | .mulh d a b => some (encR (0x1#7) (b) (a) (0x1#3) (d) 0x33#7)
  | .mulhsu d a b => some (encR (0x1#7) (b) (a) (0x2#3) (d) 0x33#7)
  | .mulhu d a b => some (encR (0x1#7) (b) (a) (0x3#3) (d) 0x33#7)
  | .div d a b => some (encR (0x1#7) (b) (a) (0x4#3) (d) 0x33#7)
  | .divu d a b => some (encR (0x1#7) (b) (a) (0x5#3) (d) 0x33#7)
  | .rem d a b => some (encR (0x1#7) (b) (a) (0x6#3) (d) 0x33#7)
  | .remu d a b => some (encR (0x1#7) (b) (a) (0x7#3) (d) 0x33#7)
  | .addw d a b => some (encR (0x0#7) (b) (a) (0x0#3) (d) 0x3B#7)
  | .sllw d a b => some (encR (0x0#7) (b) (a) (0x1#3) (d) 0x3B#7)
  | .srlw d a b => some (encR (0x0#7) (b) (a) (0x5#3) (d) 0x3B#7)
  | .subw d a b => some (encR (0x20#7) (b) (a) (0x0#3) (d) 0x3B#7)
  | .sraw d a b => some (encR (0x20#7) (b) (a) (0x5#3) (d) 0x3B#7)
  | .mulw d a b => some (encR (0x1#7) (b) (a) (0x0#3) (d) 0x3B#7)
  | .divw d a b => some (encR (0x1#7) (b) (a) (0x4#3) (d) 0x3B#7)
  | .divuw d a b => some (encR (0x1#7) (b) (a) (0x5#3) (d) 0x3B#7)
  | .remw d a b => some (encR (0x1#7) (b) (a) (0x6#3) (d) 0x3B#7)
  | .remuw d a b => some (encR (0x1#7) (b) (a) (0x7#3) (d) 0x3B#7)
  | .fence fm pred succ => some (encR (fm ++ pred.extractLsb' 1 3) (pred.extractLsb' 0 1 ++ succ) (0#5) (0x0#3) (0#5) 0x0F#7)
  | .fenceI => some (encR (0x0#7) (0#5) (0#5) (0x1#3) (0#5) 0x0F#7)
  | .ecall => some (encR (0x0#7) (0x0#5) (0#5) (0x0#3) (0#5) 0x73#7)
  | .ebreak => some (encR (0x0#7) (0x1#5) (0#5) (0x0#3) (0#5) 0x73#7)
  | .csrrw d a csr => some (encR (csr.extractLsb' 5 7) (csr.extractLsb' 0 5) (a) (0x1#3) (d) 0x73#7)
  | .csrrs d a csr => some (encR (csr.extractLsb' 5 7) (csr.extractLsb' 0 5) (a) (0x2#3) (d) 0x73#7)
  | .csrrc d a csr => some (encR (csr.extractLsb' 5 7) (csr.extractLsb' 0 5) (a) (0x3#3) (d) 0x73#7)
  | .csrrwi d u csr => some (encR (csr.extractLsb' 5 7) (csr.extractLsb' 0 5) (u) (0x5#3) (d) 0x73#7)
  | .csrrsi d u csr => some (encR (csr.extractLsb' 5 7) (csr.extractLsb' 0 5) (u) (0x6#3) (d) 0x73#7)
  | .csrrci d u csr => some (encR (csr.extractLsb' 5 7) (csr.extractLsb' 0 5) (u) (0x7#3) (d) 0x73#7)
  | .wcall off => some (encR (off.extractLsb' 15 7) (off.extractLsb' 10 5) (off.extractLsb' 5 5) (0x0#3) (off.extractLsb' 0 5) 0x0B#7)
  | .wcallr a => some (encR (0x0#7) (0#5) (a) (0x1#3) (0#5) 0x0B#7)
  | .wret => some (encR (0x1#7) (0x0#5) (0#5) (0x1#3) (0#5) 0x0B#7)
  | .done => some (encR (0x2#7) (0x0#5) (0#5) (0x1#3) (0#5) 0x0B#7)
  | .tretReplay => some (encR (0x3#7) (0x0#5) (0#5) (0x1#3) (0#5) 0x0B#7)
  | .tretDiscard => some (encR (0x3#7) (0x1#5) (0#5) (0x1#3) (0#5) 0x0B#7)
  | .send tag ch pl => some (encR (0x0#2 ++ tag.extractLsb' 1 5) (tag.extractLsb' 0 1 ++ ch.extractLsb' 2 4) (ch.extractLsb' 0 2 ++ 0#3) (0x2#3) (pl) 0x0B#7)
  | .sendi tag ch pl => some (encR (0x1#2 ++ tag.extractLsb' 1 5) (tag.extractLsb' 0 1 ++ ch.extractLsb' 2 4) (ch.extractLsb' 0 2 ++ 0#3) (0x2#3) (pl) 0x0B#7)
  | .sendm ch => some (encR (0x2#2 ++ 0#5) (0#1 ++ ch.extractLsb' 2 4) (ch.extractLsb' 0 2 ++ 0#3) (0x2#3) (0#5) 0x0B#7)
  | .tagopEnSet d tag => some (encR (tag ++ 0#1) (0x0#3 ++ 0#2) (0#5) (0x3#3) (d) 0x0B#7)
  | .tagopEnClr d tag => some (encR (tag ++ 0#1) (0x1#3 ++ 0#2) (0#5) (0x3#3) (d) 0x0B#7)
  | .tagopPdSet d tag => some (encR (tag ++ 0#1) (0x2#3 ++ 0#2) (0#5) (0x3#3) (d) 0x0B#7)
  | .tagopPdClr d tag => some (encR (tag ++ 0#1) (0x3#3 ++ 0#2) (0#5) (0x3#3) (d) 0x0B#7)
  | .tagopEnSetMask d a => some (encR (0#7) (0x10#5) (a) (0x3#3) (d) 0x0B#7)
  | .tagopEnClrMask d a => some (encR (0#7) (0x14#5) (a) (0x3#3) (d) 0x0B#7)
  | .tagopPdSetMask d a => some (encR (0#7) (0x18#5) (a) (0x3#3) (d) 0x0B#7)
  | .tagopPdClrMask d a => some (encR (0#7) (0x1C#5) (a) (0x3#3) (d) 0x0B#7)
  | .waitc sy mx cp st ld => some (encR (sy ++ mx.extractLsb' 1 3) (mx.extractLsb' 0 1 ++ cp) (st ++ 0#1) (0x4#3) (ld ++ 0#1) 0x0B#7)
  | .enq a q => some (encR (0x0#7) (q.code) (a) (0x5#3) (0#5) 0x0B#7)
  | .enqm a q => some (encR (0x1#7) (q.code) (a) (0x5#3) (0#5) 0x0B#7)
  | .sbind n a => some (encR (0x2#7) (0#5) (a) (0x5#3) (0#2 ++ n) 0x0B#7)
  | .sunbind n => some (encR (0x3#7) (0#5) (0#5) (0x5#3) (0#2 ++ n) 0x0B#7)
  | .trctlStatus d => some (encR (0x4#7) (0x0#5) (0#5) (0x5#3) (d) 0x0B#7)
  | .trctlMarkr a => some (encR (0x4#7) (0x1#5) (a) (0x5#3) (0#5) 0x0B#7)
  | .trctlMarkw a => some (encR (0x4#7) (0x2#5) (a) (0x5#3) (0#5) 0x0B#7)
  | .trctlSat => some (encR (0x4#7) (0x3#5) (0#5) (0x5#3) (0#5) 0x0B#7)
  | .trctlFlush => some (encR (0x4#7) (0x4#5) (0#5) (0x5#3) (0#5) 0x0B#7)
  | .pair west => some (encR (0x5#7) (0#4 ++ BitVec.ofBool west) (0#5) (0x5#3) (0#5) 0x0B#7)
  | .unpair => some (encR (0x6#7) (0#5) (0#5) (0x5#3) (0#5) 0x0B#7)
  | .migrateCtx a => some (encR (0x7#7) (0x0#5) (a) (0x5#3) (0#5) 0x0B#7)
  | .migrateFull a => some (encR (0x7#7) (0x1#5) (a) (0x5#3) (0#5) 0x0B#7)
  | .rdcnt d c => some (encR (0x8#7) (c.code) (0#5) (0x5#3) (d) 0x0B#7)
  | .rdqf d q => some (encR (0x9#7) (q.code) (0#5) (0x5#3) (d) 0x0B#7)
  | .rdstrm d n => some (encR (0xA#7) (0#2 ++ n) (0#5) (0x5#3) (d) 0x0B#7)
  | .rdid d item => some (encR (0xB#7) (item.code) (0#5) (0x5#3) (d) 0x0B#7)
  | .ldp d a p imm => some (encR (0x0#1 ++ imm) (p) (a) (0x0#3) (d) 0x2B#7)
  | .stp d a p imm => some (encR (0x1#1 ++ imm) (p) (a) (0x0#3) (d) 0x2B#7)
  | .ldacq d a w g => some (encR (g.extractLsb' 1 7) (g.extractLsb' 0 1 ++ 0x0#1 ++ BitVec.ofBool w ++ 0#2) (a) (0x1#3) (d) 0x2B#7)
  | .strel d a w g => some (encR (g.extractLsb' 1 7) (g.extractLsb' 0 1 ++ 0x1#1 ++ BitVec.ofBool w ++ 0#2) (a) (0x1#3) (d) 0x2B#7)
  | .amoAdd d a b w aq rl => some (encR (0x0#4 ++ BitVec.ofBool aq ++ BitVec.ofBool rl ++ BitVec.ofBool w) (b) (a) (0x2#3) (d) 0x2B#7)
  | .amoAnd d a b w aq rl => some (encR (0x1#4 ++ BitVec.ofBool aq ++ BitVec.ofBool rl ++ BitVec.ofBool w) (b) (a) (0x2#3) (d) 0x2B#7)
  | .amoOr d a b w aq rl => some (encR (0x2#4 ++ BitVec.ofBool aq ++ BitVec.ofBool rl ++ BitVec.ofBool w) (b) (a) (0x2#3) (d) 0x2B#7)
  | .amoXor d a b w aq rl => some (encR (0x3#4 ++ BitVec.ofBool aq ++ BitVec.ofBool rl ++ BitVec.ofBool w) (b) (a) (0x2#3) (d) 0x2B#7)
  | .amoMin d a b w aq rl => some (encR (0x4#4 ++ BitVec.ofBool aq ++ BitVec.ofBool rl ++ BitVec.ofBool w) (b) (a) (0x2#3) (d) 0x2B#7)
  | .amoMax d a b w aq rl => some (encR (0x5#4 ++ BitVec.ofBool aq ++ BitVec.ofBool rl ++ BitVec.ofBool w) (b) (a) (0x2#3) (d) 0x2B#7)
  | .amoMinu d a b w aq rl => some (encR (0x6#4 ++ BitVec.ofBool aq ++ BitVec.ofBool rl ++ BitVec.ofBool w) (b) (a) (0x2#3) (d) 0x2B#7)
  | .amoMaxu d a b w aq rl => some (encR (0x7#4 ++ BitVec.ofBool aq ++ BitVec.ofBool rl ++ BitVec.ofBool w) (b) (a) (0x2#3) (d) 0x2B#7)
  | .amoSwap d a b w aq rl => some (encR (0x8#4 ++ BitVec.ofBool aq ++ BitVec.ofBool rl ++ BitVec.ofBool w) (b) (a) (0x2#3) (d) 0x2B#7)
  | .amoFadd d a b aq rl => some (encR (0x9#4 ++ BitVec.ofBool aq ++ BitVec.ofBool rl ++ 1#1) (b) (a) (0x2#3) (d) 0x2B#7)
  | .amoAddPeer d a p w aq rl => some (encR (0x0#4 ++ BitVec.ofBool aq ++ BitVec.ofBool rl ++ BitVec.ofBool w) (p) (a) (0x3#3) (d) 0x2B#7)
  | .amoAndPeer d a p w aq rl => some (encR (0x1#4 ++ BitVec.ofBool aq ++ BitVec.ofBool rl ++ BitVec.ofBool w) (p) (a) (0x3#3) (d) 0x2B#7)
  | .amoOrPeer d a p w aq rl => some (encR (0x2#4 ++ BitVec.ofBool aq ++ BitVec.ofBool rl ++ BitVec.ofBool w) (p) (a) (0x3#3) (d) 0x2B#7)
  | .amoXorPeer d a p w aq rl => some (encR (0x3#4 ++ BitVec.ofBool aq ++ BitVec.ofBool rl ++ BitVec.ofBool w) (p) (a) (0x3#3) (d) 0x2B#7)
  | .amoMinPeer d a p w aq rl => some (encR (0x4#4 ++ BitVec.ofBool aq ++ BitVec.ofBool rl ++ BitVec.ofBool w) (p) (a) (0x3#3) (d) 0x2B#7)
  | .amoMaxPeer d a p w aq rl => some (encR (0x5#4 ++ BitVec.ofBool aq ++ BitVec.ofBool rl ++ BitVec.ofBool w) (p) (a) (0x3#3) (d) 0x2B#7)
  | .amoMinuPeer d a p w aq rl => some (encR (0x6#4 ++ BitVec.ofBool aq ++ BitVec.ofBool rl ++ BitVec.ofBool w) (p) (a) (0x3#3) (d) 0x2B#7)
  | .amoMaxuPeer d a p w aq rl => some (encR (0x7#4 ++ BitVec.ofBool aq ++ BitVec.ofBool rl ++ BitVec.ofBool w) (p) (a) (0x3#3) (d) 0x2B#7)
  | .amoSwapPeer d a p w aq rl => some (encR (0x8#4 ++ BitVec.ofBool aq ++ BitVec.ofBool rl ++ BitVec.ofBool w) (p) (a) (0x3#3) (d) 0x2B#7)
  | .amoFaddPeer d a p aq rl => some (encR (0x9#4 ++ BitVec.ofBool aq ++ BitVec.ofBool rl ++ 1#1) (p) (a) (0x3#3) (d) 0x2B#7)
  | .cas d a b w aq rl => some (encR (0x0#4 ++ BitVec.ofBool aq ++ BitVec.ofBool rl ++ BitVec.ofBool w) (b) (a) (0x4#3) (d) 0x2B#7)
  | .push d a v win => some (encR (0x0#2 ++ win.extractLsb' 3 5) (win.extractLsb' 0 3 ++ BitVec.ofBool v ++ 0#1) (a) (0x5#3) (d) 0x2B#7)
  | .pop d a v win => some (encR (0x1#2 ++ win.extractLsb' 3 5) (win.extractLsb' 0 3 ++ BitVec.ofBool v ++ 0#1) (a) (0x5#3) (d) 0x2B#7)
  | .popw d a v win => some (encR (0x2#2 ++ win.extractLsb' 3 5) (win.extractLsb' 0 3 ++ BitVec.ofBool v ++ 0#1) (a) (0x5#3) (d) 0x2B#7)
  | .objinit a b => some (encR (0x0#7) (b) (a) (0x6#3) (0#5) 0x2B#7)
  | .barinit a b => some (encR (0x1#7) (b) (a) (0x6#3) (0#5) 0x2B#7)
  | .bararr a => some (encR (0x2#7) (0#5) (a) (0x6#3) (0#5) 0x2B#7)
  | .barwait d a => some (encR (0x3#7) (0#5) (a) (0x6#3) (d) 0x2B#7)
  | .decz a b => some (encR (0x4#7) (b) (a) (0x6#3) (0#5) 0x2B#7)
  | .phase mask g => some (encR (0x1#4 ++ mask) (0#2 ++ g.extractLsb' 5 3) (g.extractLsb' 0 5) (0x6#3) (0#5) 0x2B#7)
  | .rtset a b => some (encR (0x0#7) (b) (a) (0x7#3) (0#5) 0x2B#7)
  | .rtinv a => some (encR (0x1#7) (0x0#5) (a) (0x7#3) (0#5) 0x2B#7)
  | .rtinvAll => some (encR (0x1#7) (0x1#5) (0#5) (0x7#3) (0#5) 0x2B#7)
  | .rtbind a b => some (encR (0x2#7) (b) (a) (0x7#3) (0#5) 0x2B#7)
  | .vadd et d a b k => some (encR (0x0#4 ++ k) (b) (a) (et.code) (d) 0x5B#7)
  | .vsub et d a b k => some (encR (0x1#4 ++ k) (b) (a) (et.code) (d) 0x5B#7)
  | .vmul et d a b k => some (encR (0x2#4 ++ k) (b) (a) (et.code) (d) 0x5B#7)
  | .vfma et d a b k => some (encR (0x3#4 ++ k) (b) (a) (et.code) (d) 0x5B#7)
  | .vfms et d a b k => some (encR (0x4#4 ++ k) (b) (a) (et.code) (d) 0x5B#7)
  | .vfnma et d a b k => some (encR (0x5#4 ++ k) (b) (a) (et.code) (d) 0x5B#7)
  | .vmin et d a b k => some (encR (0x6#4 ++ k) (b) (a) (et.code) (d) 0x5B#7)
  | .vmax et d a b k => some (encR (0x7#4 ++ k) (b) (a) (et.code) (d) 0x5B#7)
  | .vand et d a b k => some (encR (0x8#4 ++ k) (b) (a) (et.code) (d) 0x5B#7)
  | .vor et d a b k => some (encR (0x9#4 ++ k) (b) (a) (et.code) (d) 0x5B#7)
  | .vxor et d a b k => some (encR (0xA#4 ++ k) (b) (a) (et.code) (d) 0x5B#7)
  | .vshl et d a b k => some (encR (0xB#4 ++ k) (b) (a) (et.code) (d) 0x5B#7)
  | .vshr et d a b k => some (encR (0xC#4 ++ k) (b) (a) (et.code) (d) 0x5B#7)
  | .vsra et d a b k => some (encR (0xD#4 ++ k) (b) (a) (et.code) (d) 0x5B#7)
  | .vcmp c et kd a b k => some (encR (0xE#4 ++ k) (b) (a) (et.code) (c.code ++ kd) 0x5B#7)
  | .vabs et d a k => some (encR (0xF#4 ++ k) (0x0#5) (a) (et.code) (d) 0x5B#7)
  | .vneg et d a k => some (encR (0xF#4 ++ k) (0x1#5) (a) (et.code) (d) 0x5B#7)
  | .vrcp et d a k => some (encR (0xF#4 ++ k) (0x2#5) (a) (et.code) (d) 0x5B#7)
  | .vsqrt et d a k => some (encR (0xF#4 ++ k) (0x3#5) (a) (et.code) (d) 0x5B#7)
  | .vrsq et d a k => some (encR (0xF#4 ++ k) (0x4#5) (a) (et.code) (d) 0x5B#7)
  | .vexp2 et d a k => some (encR (0xF#4 ++ k) (0x5#5) (a) (et.code) (d) 0x5B#7)
  | .vclz et d a k => some (encR (0xF#4 ++ k) (0x6#5) (a) (et.code) (d) 0x5B#7)
  | .vpopc et d a k => some (encR (0xF#4 ++ k) (0x7#5) (a) (et.code) (d) 0x5B#7)
  | .vredAdd et d a k => some (encR (0xF#4 ++ k) (0x8#5) (a) (et.code) (d) 0x5B#7)
  | .vredMin et d a k => some (encR (0xF#4 ++ k) (0x9#5) (a) (et.code) (d) 0x5B#7)
  | .vredMax et d a k => some (encR (0xF#4 ++ k) (0xA#5) (a) (et.code) (d) 0x5B#7)
  | .vld et d a imm k => some (encR (0x0#4 ++ k) (imm) (a) (et.code) (d) 0x7B#7)
  | .vst et d a imm k => some (encR (0x1#4 ++ k) (imm) (a) (et.code) (d) 0x7B#7)
  | .vlds et d a b k => some (encR (0x2#4 ++ k) (b) (a) (et.code) (d) 0x7B#7)
  | .vsts et d a b k => some (encR (0x3#4 ++ k) (b) (a) (et.code) (d) 0x7B#7)
  | .vldx et d a b k => some (encR (0x4#4 ++ k) (b) (a) (et.code) (d) 0x7B#7)
  | .vstx et d a b k => some (encR (0x5#4 ++ k) (b) (a) (et.code) (d) 0x7B#7)
  | .vcvtTo et d a code k => some (encR (0x6#4 ++ k) (0x0#1 ++ code) (a) (et.code) (d) 0x7B#7)
  | .vcvtFrom et d a code k => some (encR (0x6#4 ++ k) (0x1#1 ++ code) (a) (et.code) (d) 0x7B#7)
  | .vpack et d a b k => some (encR (0x7#4 ++ k) (b) (a) (et.code) (d) 0x7B#7)
  | .vunpk et d a hi k => some (encR (0x8#4 ++ k) (0#4 ++ BitVec.ofBool hi) (a) (et.code) (d) 0x7B#7)
  | .vperm et d a b k => some (encR (0x9#4 ++ k) (b) (a) (et.code) (d) 0x7B#7)
  | .vbcast et d a k => some (encR (0xA#4 ++ k) (0#5) (a) (et.code) (d) 0x7B#7)
  | .vins et d a n => some (encR (0xB#4 ++ 0#3) (n) (a) (et.code) (d) 0x7B#7)
  | .vext et d a n => some (encR (0xC#4 ++ 0#3) (n) (a) (et.code) (d) 0x7B#7)
  | .vsel et d a b k => some (encR (0xD#4 ++ k) (b) (a) (et.code) (d) 0x7B#7)
  | .vdot et d a b k => some (encR (0xE#4 ++ k) (b) (a) (et.code) (d) 0x7B#7)
  | .vmma64 d a b => some (encR (0xE#4 ++ 0#3) (b) (a) (0x3#3) (d) 0x7B#7)
  | .kand kd ka kb => some (encR (0xF#4 ++ kb) (0x0#5) (0#2 ++ ka) (0x0#3) (0#2 ++ kd) 0x7B#7)
  | .kor kd ka kb => some (encR (0xF#4 ++ kb) (0x1#5) (0#2 ++ ka) (0x0#3) (0#2 ++ kd) 0x7B#7)
  | .kxor kd ka kb => some (encR (0xF#4 ++ kb) (0x2#5) (0#2 ++ ka) (0x0#3) (0#2 ++ kd) 0x7B#7)
  | .knot kd ka => some (encR (0xF#4 ++ 0#3) (0x3#5) (0#2 ++ ka) (0x0#3) (0#2 ++ kd) 0x7B#7)
  | .kmovKK kd ka => some (encR (0xF#4 ++ 0#3) (0x4#5) (0#2 ++ ka) (0x0#3) (0#2 ++ kd) 0x7B#7)
  | .kmovKX kd a => some (encR (0xF#4 ++ 0#3) (0x5#5) (a) (0x0#3) (0#2 ++ kd) 0x7B#7)
  | .kmovXK d ka => some (encR (0xF#4 ++ 0#3) (0x6#5) (0#2 ++ ka) (0x0#3) (d) 0x7B#7)
  | .qnop => none
  | .qfence _ => none
  | .qsignalAdd _ _ => none
  | .qsignalDecz _ => none
  | .qsignalBararr _ => none
  | .qwait _ _ _ => none
  | .qwaitPoll _ _ => none
  | .mxloadb _ _ _ _ _ => none
  | .mxloada _ _ _ _ => none
  | .mxrun _ _ _ _ _ => none
  | .mxout _ _ _ _ => none
  | .mxzero _ _ => none
  | .mxcfg _ _ => none
  | .mxswap => none
  | .cpy _ _ _ _ => none
  | .cpyg _ _ _ => none
  | .cpys _ _ _ => none
  | .cpyfill _ _ _ _ => none
  | .commandPerformed _ _ => none
  | .activationStart _ _ => none
  | .pendingStart _ _ => none
  | .codeletStart _ => none
  | .closeStart _ _ => none
  | .managementStart _ => none
  | .routeFaultReport _ _ => none
  | .movedNotice _ _ => none
  | .acttime _ _ => none
  | .messageInjection _ => none
  | .messageArrival _ _ => none
  | .heldMessageAccept _ _ => none
  | .subringRefill _ _ => none
  | .roundMarkerArrival _ _ => none
  | .fenceMarkerArrival _ _ => none
  | .argumentUpdateEffect _ _ => none
  | .routerHeaderStep _ => none
  | .creditReturn _ _ _ => none
  | .flitCrcError _ _ => none
  | .linkReplay _ _ => none
  | .linkDown _ _ => none
  | .memoryRequestArrival _ => none
  | .deczHome _ => none
  | .loadReply _ => none
  | .storeAck _ => none
  | .syReply _ => none
  | .syncOperation _ => none
  | .dieArrival _ _ => none
  | .phaseReleaseArrival _ _ => none
  | .pairingArrival _ => none
  | .parkedDeparture _ => none
  | .strelInject _ => none
  | .streamElementAccess _ _ => none
  | .walkComplete _ _ => none
  | .missRetry _ _ _ => none
  | .busyRetry _ _ _ => none
  | .pageUpdate _ _ _ => none
  | .twinCompare _ _ => none
  | .twinTimeout _ => none
  | .migrationDrainTimeout _ => none
  | .migrationAbandon _ _ => none
  | .migrationTransfer _ _ _ _ => none
  | .forwardPacket _ _ => none
  | .regPhase _ => none
  | .regDark _ => none
  | .holdupEnd _ => none
  | .powerStageStart _ => none
  | .powerStageEnd _ => none
  | .powerWait _ => none
  | .convFail _ => none
  | .thermalSample _ _ _ => none
  | .trayUndervoltage _ _ => none
  | .coolantLowFlow _ _ => none
  | .softErr _ => none
  | .dramScrub _ => none
  | .coldReset => none
  | .stagePower _ _ _ _ => none
  | .stageDramTraining _ _ => none
  | .stageLinkTest _ _ => none
  | .stageGraft => none
  | .qclaim _ => none
  | .qpublish _ _ _ => none
  | .queueTake => none
  | .load => none
  | .launch => none
  | .roundStart => none
  | .logReplay _ => none
  | .quiescenceSweep => none
  | .labort _ => none
  | .launchTimeout => none
  | .hostRead _ _ _ => none
  | .hostWrite _ _ _ => none
  | .registerWrite _ _ _ => none
  | .spdmGetVersion _ => none
  | .spdmGetCapabilities _ => none
  | .spdmNegotiateAlgorithms _ => none
  | .spdmGetDigests _ => none
  | .spdmGetCertificate _ => none
  | .spdmChallenge _ => none
  | .spdmGetMeasurements _ => none
  | .spdmUnsupported _ _ => none
  | .portTrain _ => none
  | .portDisable _ => none
  | .portTrained _ _ => none
  | .keyStage _ _ => none
  | .groupSend _ _ => none
  | .groupReceive _ _ _ _ _ => none
  | .ackFrame _ _ _ _ => none
  | .nakFrame _ _ _ _ => none
  | .fabricCreditFrame _ _ _ => none
  | .keySwitch _ _ _ _ => none
  | .los _ _ => none
  | .restripe _ _ _ => none
  | .laneRejoin _ _ => none
  | .replayLog _ => none
  | .laserFailureDetect _ _ => none
  | .laserMonitorUpdate _ _ _ _ _ _ _ _ => none
  | .ptpSync _ _ => none
  | .ptpLost => none
  | .ptpResume => none
  | .rotationStart => none
  | .slotStart _ _ => none
  | .illegalEncoding _ => none
  | .rejectedCommand _ => none
  | .hostRingWrite _ _ _ => none
  | .streamElementArrival _ _ _ => none
  | .engineReadReturn _ _ _ => none
  | .fetchBlockReturn _ _ _ => none
  | .graftRewrite _ _ => none
  | .forwardingEntryRetire _ => none

/-! ## Tile command words (R49–R51) -/

/-- An operand field in space 0x0: a 48-bit virtual address (R49). -/
def addrOperand (o : BitVec 64) : Option VAddr :=
  if o.extractLsb' 48 16 = 0x0#16 then some (o.extractLsb' 0 48) else none

/-- An operand field in space 0xF: a 48-bit literal (R49). -/
def litOperand (o : BitVec 64) : Option (BitVec 48) :=
  if o.extractLsb' 48 16 = 0xF000#16 then some (o.extractLsb' 0 48) else none

/-- The class of R51 for a listed command code. -/
def classOf (c : BitVec 8) : Option (BitVec 4) :=
  if c.toNat ≤ 0x03 then some 0#4
  else if 0x10 ≤ c.toNat ∧ c.toNat ≤ 0x16 then some 1#4
  else if 0x20 ≤ c.toNat ∧ c.toNat ≤ 0x23 then some 2#4
  else none

/-- Does a class of R49 fit the queue that received the command? -/
def classFits (c : BitVec 4) : EngineQ → Bool
  | .mxq => c == 0#4 || c == 1#4
  | .cpq0 => c == 0#4 || c == 2#4
  | .cpq1 => c == 0#4 || c == 2#4

/-- The nine fields of R49. -/
structure CmdFields where
  cmd   : BitVec 8
  cls   : BitVec 4
  flags : BitVec 4
  loop  : BitVec 8
  sel   : BitVec 8
  op1   : BitVec 64
  op2   : BitVec 64
  op3   : BitVec 64
  extra : BitVec 32
  deriving DecidableEq, Repr

/-- The fields of a command word. -/
def CmdFields.ofWord (w : Vec) : CmdFields :=
  { cmd := w.extractLsb' 0 8, cls := w.extractLsb' 8 4, flags := w.extractLsb' 12 4, loop := w.extractLsb' 16 8,
    sel := w.extractLsb' 24 8, op1 := w.extractLsb' 32 64, op2 := w.extractLsb' 96 64, op3 := w.extractLsb' 160 64,
    extra := w.extractLsb' 224 32 }

/-- The word of nine fields. -/
def CmdFields.toWord (f : CmdFields) : Vec :=
  f.extra ++ f.op3 ++ f.op2 ++ f.op1 ++ f.sel ++ f.loop ++ f.flags ++ f.cls ++ f.cmd

/-- The result type code of MXOUT (R51). -/
def OutTy.code : OutTy → BitVec 2
  | .fp32 => 0 | .bf16 => 1 | .int32 => 2

/-- Commands whose loop field may name a record; the others require 255 (R160). -/
def loopAllowed (c : BitVec 8) : Bool :=
  c == 0x10#8 || c == 0x11#8 || c == 0x13#8 || c == 0x20#8 || c == 0x23#8

/-- The command a set of fields names once its code and class are accepted; none where a field has a reserved value (R51). A command
other than MXLOADA, MXLOADB and MXRUN ignores bits 24 and 25 of its word (R159, log entry 86); the rest of `sel` is reserved. -/
def commandOf (f : CmdFields) : Option Instr :=
  let sel2 := f.sel.extractLsb' 0 2
  let selOk : Bool := f.sel.extractLsb' 2 6 == 0#6
  let z1 : Bool := f.op1 == 0#64
  let z2 : Bool := f.op2 == 0#64
  let z3 : Bool := f.op3 == 0#64
  let zf : Bool := f.flags == 0#4
  let ze : Bool := f.extra == 0#32
  if f.cmd = 0x00#8 then
    if z1 && z2 && z3 && selOk && zf && ze then some .qnop else none
  else if f.cmd = 0x01#8 then
    if z1 && z2 && z3 && selOk && zf && f.extra.extractLsb' 3 29 == 0#29 then some (.qfence (f.extra.extractLsb' 0 3)) else none
  else if f.cmd = 0x02#8 then
    match addrOperand f.op1 with
    | none => none
    | some a =>
      if z2 && z3 && selOk && zf then
        if f.extra.extractLsb' 28 4 = 0#4 then some (.qsignalAdd a (f.extra.extractLsb' 0 28))
        else if f.extra.extractLsb' 28 4 = 1#4 ∧ f.extra.extractLsb' 0 28 = 0#28 then some (.qsignalDecz a)
        else if f.extra.extractLsb' 28 4 = 2#4 ∧ f.extra.extractLsb' 0 28 = 0#28 then some (.qsignalBararr a)
        else none
      else none
  else if f.cmd = 0x03#8 then
    match addrOperand f.op1 with
    | none => none
    | some a => if z2 && z3 && selOk && f.flags.extractLsb' 1 3 == 0#3 then some (.qwait (f.flags.getLsbD 0) a f.extra) else none
  else if f.cmd = 0x10#8 then
    match addrOperand f.op1, addrOperand f.op2 with
    | some a, some sc =>
      if z3 && ze && selOk && f.flags.extractLsb' 1 3 == 0#3 && (sel2.getLsbD 1 || sc == 0#48) then
        some (.mxloadb (f.flags.getLsbD 0) sel2 f.loop a sc) else none
    | _, _ => none
  else if f.cmd = 0x11#8 then
    match addrOperand f.op1, addrOperand f.op2 with
    | some a, some sc =>
      if z3 && ze && selOk && zf && (sel2.getLsbD 1 || sc == 0#48) then some (.mxloada sel2 f.loop a sc) else none
    | _, _ => none
  else if f.cmd = 0x12#8 then
    match addrOperand f.op1 with
    | none => none
    | some a =>
      if z2 && z3 && ze && selOk && !f.flags.getLsbD 3 && (f.flags.getLsbD 2 || a == 0#48) then
        some (.mxrun (f.flags.getLsbD 0) (f.flags.getLsbD 1) (f.flags.getLsbD 2) sel2 a) else none
  else if f.cmd = 0x13#8 then
    match addrOperand f.op1 with
    | none => none
    | some a =>
      if z2 && z3 && selOk && f.flags.extractLsb' 1 3 == 0#3 && f.extra.extractLsb' 2 30 == 0#30 then
        if f.extra.extractLsb' 0 2 = 0#2 then some (.mxout (f.flags.getLsbD 0) .fp32 f.loop a)
        else if f.extra.extractLsb' 0 2 = 1#2 then some (.mxout (f.flags.getLsbD 0) .bf16 f.loop a)
        else if f.extra.extractLsb' 0 2 = 2#2 then some (.mxout (f.flags.getLsbD 0) .int32 f.loop a)
        else none
      else none
  else if f.cmd = 0x14#8 then
    if z1 && z2 && z3 && selOk && f.flags.extractLsb' 1 3 == 0#3 && f.extra.extractLsb' 8 24 == 0#24 then
      some (.mxzero (f.flags.getLsbD 0) (f.extra.extractLsb' 0 8)) else none
  else if f.cmd = 0x15#8 then
    match litOperand f.op1, litOperand f.op2 with
    | some o1, some o2 =>
      if z3 && selOk && zf && ze && o2.extractLsb' 8 16 == 0#16 && o2.extractLsb' 32 16 == 0#16 then some (.mxcfg o1 o2) else none
    | _, _ => none
  else if f.cmd = 0x16#8 then
    if z1 && z2 && z3 && selOk && zf && ze then some .mxswap else none
  else if f.cmd = 0x20#8 then
    match addrOperand f.op1, addrOperand f.op2, litOperand f.op3 with
    | some s, some d, some n =>
      if selOk && zf && ze && decide (1 ≤ n.toNat ∧ n.toNat ≤ 0x1000000) then some (.cpy f.loop s d n) else none
    | _, _, _ => none
  else if f.cmd = 0x21#8 then
    match addrOperand f.op1, addrOperand f.op2, addrOperand f.op3 with
    | some s, some d, some x => if selOk && zf && ze then some (.cpyg s d x) else none
    | _, _, _ => none
  else if f.cmd = 0x22#8 then
    match addrOperand f.op1, addrOperand f.op2, addrOperand f.op3 with
    | some s, some d, some x => if selOk && zf && ze then some (.cpys s d x) else none
    | _, _, _ => none
  else if f.cmd = 0x23#8 then
    match addrOperand f.op1, litOperand f.op2 with
    | some d, some n =>
      if z3 && selOk && zf && decide (1 ≤ n.toNat ∧ n.toNat ≤ 0x1000000) then some (.cpyfill f.loop d n f.extra) else none
    | _, _ => none
  else none

/-- The command a 256-bit word names for the queue that received it, or the reason code of R178 it is rejected with:
1 code, 2 class, 3 reserved field or value, 4 loop field (R50, R160). -/
def decodeCommand (q : EngineQ) (w : Vec) : Except Nat Instr :=
  let f := CmdFields.ofWord w
  match classOf f.cmd with
  | none => .error 1
  | some c =>
    if f.cls ≠ c ∨ classFits c q = false then .error 2
    else match commandOf f with
      | none => .error 3
      | some i => if loopAllowed f.cmd || f.loop == 255#8 then .ok i else .error 4

/-- Operand field of an address, R49. -/
def addrField (a : VAddr) : BitVec 64 := 0x0#16 ++ a

/-- Operand field of a literal, R49. -/
def litField (a : BitVec 48) : BitVec 64 := 0xF000#16 ++ a

/-- Fields of a command word with nothing but a code and a class. -/
def baseFields (cmd : BitVec 8) (cls : BitVec 4) : CmdFields :=
  { cmd := cmd, cls := cls, flags := 0#4, loop := 255#8, sel := 0#8, op1 := 0#64, op2 := 0#64, op3 := 0#64, extra := 0#32 }

/-- The fields of a tile command's word (R51). -/
def commandFields : Instr → Option CmdFields
  | .qnop => some (baseFields 0x00#8 0#4)
  | .qfence m => some { baseFields 0x01#8 0#4 with extra := 0#29 ++ m }
  | .qsignalAdd a v => some { baseFields 0x02#8 0#4 with op1 := addrField a, extra := 0x0#4 ++ v }
  | .qsignalDecz a => some { baseFields 0x02#8 0#4 with op1 := addrField a, extra := 0x10000000#32 }
  | .qsignalBararr a => some { baseFields 0x02#8 0#4 with op1 := addrField a, extra := 0x20000000#32 }
  | .qwait e a v => some { baseFields 0x03#8 0#4 with flags := 0#3 ++ BitVec.ofBool e, op1 := addrField a, extra := v }
  | .mxloadb m sel loop a sc => some { baseFields 0x10#8 1#4 with
      flags := 0#3 ++ BitVec.ofBool m, sel := 0#6 ++ sel, loop := loop, op1 := addrField a, op2 := addrField sc }
  | .mxloada sel loop a sc => some { baseFields 0x11#8 1#4 with
      sel := 0#6 ++ sel, loop := loop, op1 := addrField a, op2 := addrField sc }
  | .mxrun b t s sel p => some { baseFields 0x12#8 1#4 with
      flags := 0#1 ++ BitVec.ofBool s ++ BitVec.ofBool t ++ BitVec.ofBool b, sel := 0#6 ++ sel, op1 := addrField p }
  | .mxout b ty loop a => some { baseFields 0x13#8 1#4 with
      flags := 0#3 ++ BitVec.ofBool b, loop := loop, op1 := addrField a, extra := 0#30 ++ ty.code }
  | .mxzero b w => some { baseFields 0x14#8 1#4 with flags := 0#3 ++ BitVec.ofBool b, extra := 0#24 ++ w }
  | .mxcfg o1 o2 => some { baseFields 0x15#8 1#4 with op1 := litField o1, op2 := litField o2 }
  | .mxswap => some (baseFields 0x16#8 1#4)
  | .cpy loop s d n => some { baseFields 0x20#8 2#4 with
      loop := loop, op1 := addrField s, op2 := addrField d, op3 := litField n }
  | .cpyg s d x => some { baseFields 0x21#8 2#4 with op1 := addrField s, op2 := addrField d, op3 := addrField x }
  | .cpys s d x => some { baseFields 0x22#8 2#4 with op1 := addrField s, op2 := addrField d, op3 := addrField x }
  | .cpyfill loop d n p => some { baseFields 0x23#8 2#4 with
      loop := loop, op1 := addrField d, op2 := litField n, extra := p }
  | _ => none

/-- The 256-bit word of a tile command (R49–R51). -/
def encodeCommand (i : Instr) : Option Vec := (commandFields i).map CmdFields.toWord

/-! ## The host's question (one row's bits) -/

/-- The queue that may receive a command of class `c` first: mxq for classes 0 and 1, cpq0 for class 2 (R49). -/
def queueFor (w : Vec) : EngineQ :=
  if (CmdFields.ofWord w).cls = 2#4 then .cpq0 else .mxq

/-- The instruction the decoder reads from `nbits` bits `w`: a 32-bit instruction word, or a 256-bit tile command word. -/
def decodeTableWord (nbits w : Nat) : Option Instr :=
  if nbits ≤ 32 then decode32 (BitVec.ofNat 32 w)
  else match decodeCommand (queueFor (BitVec.ofNat 256 w)) (BitVec.ofNat 256 w) with
    | .ok i => some i
    | .error _ => none

end Sys2Proof
end

