-- ==== Sys2Proof/Machine/CoreState.lean ====
section
/-! DEFINITION. The plain data a core holds: contexts, channel slots, route cache, inbox, tags, streams and engines
(R11, R154, R186, R231, R232), and the outstanding accesses of the whole module (R269). -/

namespace Sys2Proof.Machine

/-- A sparse table: keys rise strictly, an absent key has the reader's default. -/
abbrev FMap (α : Type) := List (Nat × α)

/-- Memory in canonical form: addresses rise strictly and no listed byte equals what an unlisted one reads as (0,
log entry 1). -/
abbrev Memory := List Host.Cell

/-- Privilege mode (R11, R39). -/
inductive Mode where
  | app | system
  deriving DecidableEq, Repr

/-- A message in an inbox: the packet's header fields and payload, with what the inbox adds (R84, R186, R194). -/
structure Msg where
  hdr      : Header
  payload  : List Word
  /-- arrival number -/
  seq      : Nat
  ovf      : Bool
  replayed : Bool
  queue    : Nat
  /-- a codelet post: codelet address and counter address (R194) -/
  post     : Option (Nat × Nat)
  /-- the trap context that holds it returned (R24, R25) -/
  lock     : Option Nat
  deriving DecidableEq, Repr

/-- What started an activation, so that an abort can return it (R24, R191, R197). -/
inductive Origin where
  | message (m : Msg)
  | pending
  | close (seq : Nat)
  /-- a close that has ended, of a round, replayed after a pair mismatch (R205) -/
  | closed (seq round : Nat)
  | system
  deriving DecidableEq, Repr

/-- The activation a context holds (R11, R12, R24, R200). -/
structure Activation where
  mode   : Mode
  /-- tag whose running activation this is; none for a system start -/
  tag    : Option Nat
  origin : Origin
  /-- role of the tag's entry (R193) -/
  role   : Nat
  /-- clock from which its first instruction may issue; once it has issued, the clock at that issue (R28, R192) -/
  begun  : Nat
  /-- its first instruction has issued -/
  issued : Bool
  deriving DecidableEq, Repr

/-- The activation that sent a packet, with its context and epoch (R205, R221). -/
structure Sender where
  ctx   : Nat
  epoch : Nat
  act   : Activation
  deriving DecidableEq, Repr

/-- A message built by SEND, SENDI or SENDM (R71). -/
structure OutMsg where
  core    : Nat
  ctx     : Nat
  slot    : Nat
  hdr     : Header
  payload : List Word
  /-- occupies the context's SENDI place (R19) -/
  sendiPlace : Bool
  /-- committed through SENDI rather than DONE -/
  sendi   : Bool
  sender  : Option Sender
  deriving DecidableEq, Repr

/-- A multi-read instruction in progress (ENQM, SBIND, RTSET, RTBIND; R75, R78, R106): the instruction's address, the
reads asked for and the dwords returned so far, by dword index. -/
structure Gather where
  pc    : Word
  asked : List Nat
  got   : FMap Word
  deriving DecidableEq, Repr

/-- A 32-byte instruction block held by a context, or awaited, with the mode in which its page was checked (R35, R59). -/
structure FetchBlock where
  base  : Nat
  mode  : Mode
  words : List (BitVec 32)
  ready : Bool
  deriving DecidableEq, Repr

/-- A route as runs, with its destination (R223). -/
structure Route where
  runs  : List Run
  dsite : Nat
  dmod  : Nat
  deriving DecidableEq, Repr

/-- A translated address: module, place and the site a request for it travels to (R231, R309). -/
structure Loc where
  mod   : Nat
  place : Place
  site  : Nat
  /-- TRACKED and NOTRACE of the page; false for an untranslated range (R309) -/
  tracked : Bool
  notrace : Bool
  /-- the sync-space page is of class FIFO (R241) -/
  fifo : Bool
  deriving DecidableEq, Repr

/-- A part of an instruction's access that has passed its checks: its number, address, place and route. -/
structure ElemAcc where
  i     : Nat
  va    : Nat
  loc   : Loc
  route : Option (Route × List Run)
  deriving DecidableEq, Repr

/-- Parts of the instruction at `pc` that have passed their checks while a later part still waits for its translation
(R146). -/
structure Checks where
  pc   : Word
  done : List ElemAcc
  deriving DecidableEq, Repr

/-- One activation context (R11). -/
structure Ctx where
  act   : Option Activation
  /-- counts starts and ends, so that a late reply is told from a current one (R73) -/
  epoch : Nat
  pc    : Word
  /-- x1 to x7 -/
  glob  : FMap Word
  /-- windowed registers: frame w holds i0–i7 and l0–l7 of window w at 16w to 16w+15; o0–o7 of window w are
  i0–i7 of frame w+1 (R16) -/
  win   : FMap Word
  depth : Nat
  v     : FMap Vec
  k     : FMap (BitVec 32)
  vrm    : Word
  vflags : Word
  actmsg   : Word
  acttag   : Word
  actround : Word
  actchan  : Word
  actsrc   : Word
  trapcause : Word
  trapval   : Word
  trappc    : Word
  trapmsg   : Word
  /-- uncommitted entries of the send buffer, in issue order (R18) -/
  send  : List OutMsg
  ld : Nat
  st : Nat
  sy : Nat
  gather  : Option Gather
  checks  : Option Checks
  /-- a PHASE that has issued and stalls: its address, the acceptance number from which commands came after its issue, its group
  and its queue mask (R276, R301) -/
  phaseAt : Option (Word × Nat × Nat × BitVec 3)
  /-- the barrier record: address and generation (R296) -/
  barrier : Option (Nat × Nat)
  blocks  : List FetchBlock
  /-- requests of injected PUSHes that may still be to be performed (R52) -/
  pushes  : List Nat
  /-- consecutive cycles ready and not chosen (R193) -/
  waits : Nat
  /-- clock of the DONE or TRET that ended the last activation, and its tag: the context is free from the next cycle on (R22, R79) -/
  left  : Option (Nat × Option Nat)
  deriving DecidableEq, Repr

/-- An entry of the route cache (R231). -/
structure RcEntry where
  key : Nat
  fwd : Route
  ret : Option Route
  deriving DecidableEq, Repr

/-- A channel slot (R232). -/
structure Slot where
  route  : Option Route
  rch    : Nat
  fmt    : Nat
  gen    : Nat
  round  : Nat
  logged : Bool
  tied   : Bool
  deriving DecidableEq, Repr

/-- A handler-table entry (R190); enable and pending bits live in TAGEN and TAGPEND. -/
structure TagEntry where
  handler : Nat
  close   : Nat
  join    : Word
  const   : BitVec 32
  valid   : Bool
  gated   : Bool
  serial  : Bool
  queue   : Nat
  role    : Nat
  deriving DecidableEq, Repr

/-- Round state of a gated tag (R195, R196). -/
structure RoundState where
  cur     : Nat
  setCur  : Word
  setNext : Word
  /-- arrival numbers of the markers that completed the current and the next set (R197) -/
  seqCur  : Nat
  seqNext : Nat
  /-- TRET has released an aborted close of the tag for a replay (R79, R197) -/
  again   : Bool
  deriving DecidableEq, Repr

/-- What the hold buffer holds: early data or a copy of an early marker for one tag (R195, R196). -/
inductive Held where
  | data (m : Msg)
  /-- `tie`: the sender, if its channel is tied (R350) -/
  | marker (tag rch round seq : Nat) (tie : Option Nat)
  deriving DecidableEq, Repr

/-- A command as accepted (R78, R171). -/
structure QCmd where
  word  : Vec
  mode  : Mode
  /-- acceptance order over the three queues (R109) -/
  stamp : Nat
  deriving DecidableEq, Repr

/-- A loop record as sampled (R100). -/
structure LoopRec where
  fmt     : Nat
  bounds  : List Nat
  strides : List Int
  deriving DecidableEq, Repr

/-- A page as a holder of translations keeps it (R309, R311). -/
structure Page where
  /-- virtual base and size in bytes of the page -/
  base : Nat
  size : Nat
  leaf : Word
  deriving DecidableEq, Repr

/-- One stream register (R102–R107). -/
structure Stream where
  bound  : Bool
  ctx    : Nat
  epoch  : Nat
  mode   : Mode
  eng    : Nat
  /-- element bytes: 8 or 32 -/
  esize  : Nat
  outb   : Bool
  base   : Nat
  loop   : Option LoopRec
  count  : Nat
  /-- next element the address generator accesses -/
  next   : Nat
  /-- elements read or pushed by port accesses -/
  used   : Nat
  arrived : List (List Byte)
  pushed  : List (List Byte)
  /-- requests of the stream in flight -/
  inflight : List Nat
  /-- held fault: reason, address, element index -/
  fault  : Option (Nat × Nat × Nat)
  page   : Option Page
  xlate  : Bool
  /-- serial number of the binding, telling replies of an earlier binding apart -/
  serial : Nat
  deriving DecidableEq, Repr

/-- A macro of the matrix engine (R154). -/
structure Macro where
  valid  : Bool
  fmt    : Nat
  wide   : Bool
  /-- the 64 codes of each column -/
  codes  : List (List Nat)
  scales : List Nat
  deriving DecidableEq, Repr

/-- The A row buffer (R154). -/
structure ABuf where
  valid  : Bool
  fmt    : Nat
  len    : Nat
  rows   : Nat
  /-- the codes of each row -/
  codes  : List (List Nat)
  /-- the scale bytes of each row's blocks -/
  scales : List (List Nat)
  deriving DecidableEq, Repr

/-- An accumulator bank: entry (r, c) at 32r + c, and the window base (R154). -/
structure Bank where
  acc  : FMap Int
  base : Int
  deriving DecidableEq, Repr

/-- The configuration latch (R154, R166). -/
structure Latch where
  fmta : Nat
  fmtb : Nat
  sca  : Nat
  scb  : Nat
  deriving DecidableEq, Repr

/-- A command an engine has started and not yet performed (R108). -/
structure Job where
  cmd    : QCmd
  instr  : Instr
  /-- formats and scales sampled at the start (R159) -/
  cfg    : Latch
  loop   : Option LoopRec
  /-- tuple, row or element the engine handles next -/
  cursor : Nat
  /-- bytes of it already written -/
  pos    : Nat
  /-- bytes read that are still needed -/
  buf    : List Byte
  /-- index-list header: element count and size (R173) -/
  hdr    : Option (Nat × Nat)
  /-- index-list element of the cursor, once read -/
  idx    : Option Int
  /-- the command has no more accesses to make -/
  done   : Bool
  /-- QWAIT: clock of the last unsatisfying read (R177) -/
  polled : Option Nat
  deriving DecidableEq, Repr

/-- A range entry of a read or write set or of D (R345, R346). -/
structure Range where
  space : Nat
  owner : Nat
  first : Nat
  cnt   : Nat
  deriving DecidableEq, Repr

/-- An entry of the coalescing buffer (R348). -/
structure BufEntry where
  write : Bool
  range : Range
  /-- order of its last extension -/
  used  : Nat
  deriving DecidableEq, Repr

/-- A core's trace state (R347–R351, R361); the sets themselves lie in the trace store. -/
structure Trace where
  valid  : Bool
  sat    : Bool
  isOpen : Bool
  recording : Bool
  reason : Nat
  rcnt   : Nat
  wcnt   : Nat
  logn   : Nat
  /-- the 16 entries of the coalescing buffer by number -/
  buf    : FMap BufEntry
  /-- tied senders of marker sets that have come to completion, to be recorded before anything else is (R350) -/
  ties   : List Nat
  deriving DecidableEq, Repr

/-- An outbound packet of a lead that waits for its twin since a clock (R204, R205). -/
structure Twin where
  pkt    : Packet
  since  : Nat
  sender : Option Sender
  deriving DecidableEq, Repr

/-- The core's part in a checked pair (R204, R205). -/
structure Pair where
  shadow  : Nat
  /-- outbound packets of the lead awaiting their twin, oldest first -/
  waiting : List Twin
  /-- replays after a first mismatch: context and epoch (R205) -/
  replays : List (Nat × Nat)
  /-- activations that a mismatch or another abort has ended, by context and epoch: a later mismatch of one of their packets does
  nothing more (R25, R205) -/
  spent : List (Nat × Nat)
  /-- ended activations whose replay has still to start: tag, and what starts it (R205) -/
  again : List (Nat × Origin)
  /-- trap context, by number and epoch, at whose end by TRET the pair is dissolved (R205) -/
  broken  : Option (Nat × Nat)
  deriving DecidableEq, Repr

/-- Where a migration of the core stands (R207–R211). -/
structure Migration where
  target : Nat
  full   : Bool
  /-- 0 activations may end, 1 draining, 2 transferring -/
  phase  : Nat
  /-- part and unit of the save to be sent next; part 10 once all are sent (R209) -/
  part   : Nat
  unit   : Nat
  since  : Nat
  /-- a failed converter takes the DRAM region with it (R367) -/
  dark   : Bool
  /-- page-table leaves held busy for the move, with their offsets (R314) -/
  leaves : List (Nat × Nat)
  deriving DecidableEq, Repr

/-- A report or message waiting to start a system context (R192, R202, R210). -/
inductive SysStart where
  | management (payload : List Word)
  | report (trapval : Word)
  | moved (trapval : Word)
  /-- a second mismatch of a replay that has already ended (R205) -/
  | pairFault (a : Activation)
  deriving DecidableEq, Repr

/-- An arrival in a group's next phase that stands though its activation was aborted before the arrival was made (R276, R277). -/
structure Standing where
  ctx   : Nat
  epoch : Nat
  /-- acceptance number of the PHASE -/
  stamp : Nat
  group : Nat
  mask  : BitVec 3
  deriving DecidableEq, Repr

/-- A logical core (R11, R154, R186, R190, R231). -/
structure Core where
  /-- site that carries it (R77) -/
  site    : Nat
  /-- site whose DRAM region it uses: MIGRATE.CTX leaves the region in place (R208) -/
  region  : Nat
  /-- named by the loaded image (R330) -/
  named   : Bool
  /-- retired or absent (R260, R264) -/
  absent  : Bool
  tagen   : Word
  tagpend : Word
  /-- cycle of the last TAGOP, with the enable and pending bits the scheduler still sees in it (R74) -/
  tagSeen : Option (Nat × Word × Word)
  grp     : Word
  trapvec : Word
  ageb    : Word
  actlim  : Word
  /-- clock of the last write to ACTLIM: it governs from the next cycle on (R28) -/
  actlimAt : Option Nat
  chdrop  : Word
  mxfmta  : Word
  mxfmtb  : Word
  mxsca   : Word
  mxscb   : Word
  mxflags : Word
  /-- formats and scales before the first CSR write of a cycle, with that cycle (R159) -/
  mxOld   : Nat × Latch
  /-- flags the engine set in a cycle, with that cycle (R157) -/
  mxSet   : Nat × Word
  qstat   : Word
  qerrm   : Word
  qerrc0  : Word
  qerrc1  : Word
  table   : FMap TagEntry
  slots   : FMap Slot
  /-- most recently used first -/
  rcache  : List RcEntry
  queues  : FMap (List Msg)
  rings   : FMap (List Msg)
  /-- next slot of each sub-ring to be written, 0 to 63 -/
  ringAt  : FMap Nat
  hold    : List Held
  genHold : List (Packet × Nat)
  /-- next arrival number -/
  arrivals : Nat
  bound   : Word
  /-- expected generation of each receiver channel -/
  gexp    : FMap Nat
  rounds  : FMap RoundState
  staged  : FMap (BitVec 32)
  /-- committed messages in injection order (R20, R72) -/
  outq    : List OutMsg
  /-- candidates of R192 with the clock at which each became eligible -/
  elig    : FMap Nat
  /-- ended closes that start again after a pair mismatch: tag, arrival number of the marker, round (R205) -/
  reclose : List (Nat × Nat × Nat)
  /-- clocks of the last start and of the last issue: one of each in a cycle (R192, R193) -/
  startedAt : Option Nat
  issuedAt  : Option Nat
  sysq    : List SysStart
  streams : FMap Stream
  /-- unbound outbound streams whose pushed elements are still sent (R23) -/
  drains  : List Stream
  /-- commands waiting in mxq (0), cpq0 (1), cpq1 (2), oldest first -/
  cmds    : FMap (List QCmd)
  jobs    : FMap Job
  /-- agent that made the last access of each copy engine: 0 its command, 1 + q stream q, 9 replay of a log (R171, R358) -/
  turns   : FMap Nat
  stamp   : Nat
  cp      : Nat
  mx      : Nat
  mb0 : Macro
  mb1 : Macro
  abuf : ABuf
  ac0 : Bank
  ac1 : Bank
  latch : Latch
  /-- micro-translation cache, most recently used first (R311) -/
  utlb    : List Page
  /-- source and destination entries of copy engines 0 and 1: keys 0–3 (R171) -/
  ctlb    : FMap Page
  /-- groups with a PHASE of this core uncompleted (R301) -/
  phases  : List Nat
  /-- arrivals that stand and have still to be made, whose activations have been aborted (R277) -/
  standing : List Standing
  trace   : Trace
  pair    : Option Pair
  mig     : Option Migration
  /-- starts of application activations are held (R207, R355) -/
  muted   : Bool
  /-- next serial number of a stream binding -/
  serial  : Nat
  /-- named regions of the loaded image (R14, R17, R100, R350): end and size of `stack`, base of `spill`, base and
  record count of `loops`, offset and size of `clog` -/
  stackEnd  : Nat
  stackSize : Nat
  spillBase : Nat
  loopsBase : Nat
  loopsN    : Nat
  clogBase  : Nat
  clogSize  : Nat
  deriving DecidableEq, Repr

/-- Who made an access (R269). -/
inductive Owner where
  | ctx (core ctx epoch : Nat)
  | stream (core q serial : Nat)
  | engine (core : Nat) (q : EngineQ) (stamp : Nat)
  | host (tag : Nat)
  deriving DecidableEq, Repr

/-- What the reply of an access does. -/
inductive Dest where
  | none
  /-- global register x1–x7; bytes, sign-extend -/
  | glob (r n : Nat) (sx : Bool)
  /-- windowed register by its place in `Ctx.win` -/
  | win (i n : Nat) (sx : Bool)
  /-- bytes lo.. of a vector register -/
  | vec (r lo n : Nat)
  /-- the bytes of a vector register that the mask selects, from a 32-byte block -/
  | block (r mask : Nat)
  /-- dwords `i` on of a gathering instruction -/
  | gather (i : Nat)
  | fetch (block : Nat)
  | barrier (addr : Nat)
  | element
  | engine
  deriving DecidableEq, Repr

/-- What an access does at its home. -/
inductive Target where
  | mem (op : MemOp) (place : Place) (size : Nat) (data : List Byte) (cmp : Word)
  | sync (place : Place) (op : SyncOp)
  | pair (op : PairOp) (win : Nat) (place : Place) (wide nopair : Bool) (value : Vec)
  deriving DecidableEq, Repr

/-- Progress of an access. -/
inductive Stage where
  /-- a STREL waiting for every earlier access of its context (R295) -/
  | release
  /-- behind an earlier access of the core to its unit (R272) -/
  | queued
  /-- on its way to the home -/
  | going
  /-- a part of a stream element at its home, which waits for the element's other part: its packet and site, none for a part in
  the core's own memory (R270) -/
  | held (at' : Option (Packet × Nat))
  /-- performed at the home; what the reply carries -/
  | performed (data : List Byte) (poisoned ok : Bool)
  /-- the reply has returned; the instruction's other elements are still awaited (R150) -/
  | back (data : List Byte) (poisoned : Bool)
  | answered (ans : SyncAns)
  | popped (value : Vec) (empty refused : Bool)
  deriving DecidableEq, Repr

/-- An outstanding access (R65, R75, R269, R270). -/
structure Req where
  id     : Nat
  /-- number shared by the accesses of one instruction, which complete together (R150) -/
  group  : Nat
  owner  : Owner
  /-- class whose count it holds, with the context charged -/
  cls    : Option CountClass
  /-- virtual address, for traps and events -/
  va     : Nat
  /-- address of the instruction (R66) -/
  pc     : Word
  target : Target
  dest   : Dest
  /-- the context issues nothing before the reply (R291, R295, R299) -/
  holds  : Bool
  /-- forward and return route; none for the core's own memory -/
  route  : Option (Route × List Run)
  stage  : Stage
  /-- the page is TRACKED (R353) -/
  tracked : Bool
  /-- a waiting STREL behind which a wait of its context has begun: it absorbs no store (R275) -/
  sealed : Bool
  deriving DecidableEq, Repr

end Sys2Proof.Machine
end

