-- ==== Sys2Proof/Machine/ModuleState.lean ====
section
/-! DEFINITION. The plain data outside the cores: packets in the mesh (R218), sites and the topology map (R325–R328),
dies with their synchronisation engines, walkers and event logs (R286, R312, R372), clusters and their power (R262),
launch queues and the running launch (R332–R342), coppice state (R353–R358), optical ports (R377–R398). -/

namespace Sys2Proof.Machine

/-- Where a packet stands. -/
inductive Spot where
  /-- in the unit behind a local port, which has no credit for it yet (R218) -/
  | queued
  /-- in the input buffer of the site's router -/
  | buffer
  /-- in an ejection buffer of local port `port` -/
  | eject (port : Nat)
  /-- in the input buffer of the synchronisation engine behind local port 3 (R289) -/
  | intake
  /-- in the pairing buffer: arrival, last matchable cycle, and the first cycle in which the request ahead lets it leave (R247,
  R250) -/
  | parked (since last hold : Nat)
  /-- discarded by the receiving side of a link, to be replayed by its sender (R228) -/
  | replay (site : Nat) (dir : Dir)
  /-- in the queue of an optical port, from span site `span` (R377, R393) -/
  | egress (port span : Nat)
  deriving DecidableEq, Repr

/-- A packet as it came over a link into a router, kept until the check of its last flit is over (R228). -/
structure Passed where
  site  : Nat
  inDir : Dir
  came  : Nat
  stamp : Nat
  pkt   : Packet
  cls   : Nat
  nonW  : Bool
  first : Bool
  /-- cycle of the check of its last flit: a link carries one flit in a cycle, those of a packet after those of the packets before it -/
  tail  : Nat
  deriving DecidableEq, Repr

/-- A packet in the mesh (R218, R225). -/
structure Flight where
  id    : Nat
  /-- order of arrival at its present place -/
  stamp : Nat
  pkt   : Packet
  site  : Nat
  /-- clock at which it came to its present place -/
  came  : Nat
  /-- input port it came through; none from a local port -/
  inDir : Option Dir
  /-- local port it came from: 0 to 3 by unit (R220), 4 the router's own pairing buffer -/
  inPort : Nat
  /-- escape class -/
  cls   : Nat
  /-- the segment already holds a run that is not W (R223) -/
  nonW  : Bool
  /-- it stands at the first hop of run `cur` -/
  first : Bool
  spot  : Spot
  /-- treated once at a pairing point of this router (R247) -/
  treated : Bool
  /-- links it has come over whose checks may still fail, the last first (R228) -/
  trail : List Passed := []
  deriving DecidableEq, Repr

inductive SiteState where
  | good | spare | failed | fenced
  deriving DecidableEq, Repr

/-- A site entry of the topology map (R326) with the site's part in a migration or pair. -/
structure Site where
  state : SiteState
  /-- links marked down: N 8, E 4, S 2, W 1 (R326) -/
  down  : Nat
  fbin  : Nat
  core  : Option Nat
  /-- forwarding entry: the new site (R210) -/
  fwd   : Option Nat
  /-- marked as the target of a migration of this core (R209) -/
  migTarget : Option Nat
  /-- shadow of the checked pair of this core (R204) -/
  shadowOf  : Option Nat
  deriving DecidableEq, Repr

/-- A manifest record (R328). -/
structure Manifest where
  bad    : Bool
  fbin   : Nat
  links  : Nat
  rows   : Nat
  sram   : Bool
  banks  : Nat
  deriving DecidableEq, Repr

/-- A bank remap entry (R326). -/
structure Remap where
  badSite   : Nat
  badBank   : Nat
  spareSite : Nat
  spareBank : Nat
  deriving DecidableEq, Repr

/-- A cluster: map entry and power domain (R216, R262–R265, R326, R368). -/
structure Cluster where
  /-- 0 normal, 1 one phase failed, 2 dark -/
  reg      : Nat
  phases   : Nat
  /-- power-on stages completed, 0 to 4; a stage in progress since the given time -/
  stages   : Nat
  stageAt  : Option Nat
  /-- power-on waiting for headroom since (R265); logged -/
  waitAt   : Option Nat
  waitLogged : Bool
  /-- permitted current, in tenths of an ampere -/
  permitted : Nat
  /-- the clock its limits allow, in MHz, and the one to return to after a throttle; its bin and sapling mode lower it
  (State.clock) -/
  clock    : Nat
  former   : Nat
  throttled : Bool
  /-- rail in mV -/
  rail     : Nat
  /-- hold-up running since (R264) -/
  holdup   : Option Nat
  /-- attach bits of banks 0–3: position 9 in use (R216) -/
  attach9  : Nat
  deriving DecidableEq, Repr

/-- A synchronisation object (R240–R244). -/
structure SyncObj where
  empty : Nat
  cap   : Nat
  wide  : Bool
  kind  : Nat
  /-- oldest first -/
  elems : List Vec
  deriving DecidableEq, Repr

/-- An entry of the home wait list (R243). -/
structure Waiter where
  base  : Nat
  /-- a push with its value, or a POPW -/
  push  : Option Vec
  id    : Nat
  ret   : List Run
  site  : Nat
  wide  : Bool
  /-- the object lies in a FIFO page (R245) -/
  nopair : Bool
  deriving DecidableEq, Repr

/-- A barrier (R296). -/
structure Barrier where
  n       : Nat
  arrived : Nat
  gen     : Nat
  abgen   : Option Nat
  deriving DecidableEq, Repr

/-- A waiting BARWAIT (R299). -/
structure BarWaiter where
  unit : Nat
  id   : Nat
  ret  : List Run
  site : Nat
  deriving DecidableEq, Repr

/-- A member's arrival held for its release (R302). -/
structure PhaseArr where
  core : Nat
  /-- site the arrival came from -/
  site : Nat
  id   : Nat
  ret  : List Run
  deriving DecidableEq, Repr

/-- Phase state of a group in one die (R302). -/
structure PhaseState where
  arrived : List PhaseArr
  /-- the die's arrival has been sent and no release has come back -/
  sent    : Bool
  /-- releases still to be delivered, ascending core number -/
  releasing : List PhaseArr
  deriving DecidableEq, Repr

/-- A group-table entry (R283). -/
structure Group' where
  phase   : Nat
  valid   : Bool
  level   : Nat
  home    : Nat
  members : Nat
  deriving DecidableEq, Repr

/-- A walk in progress (R312). -/
structure Walk where
  page : Nat
  reqs : List Requester
  deriving DecidableEq, Repr

/-- An event of the cycle in which a die logged last: site, code, bytes 12 to 63 of its record (R372). -/
structure LogEvent where
  site : Nat
  code : Nat
  body : List Byte
  deriving DecidableEq, Repr

/-- A die (R286, R302, R311, R312, R325, R367, R372). -/
structure Die where
  /-- die translation cache: pages of set n, most recently used first -/
  dtc   : FMap (List Page)
  walks : List Walk
  missq : List (Nat × Requester)
  /-- requesters refused by a full miss queue, and requesters that met a busy leaf -/
  refusedMiss : List (Nat × Requester)
  busyWait : List (Nat × Requester)
  /-- walks that found no valid leaf, each until its requester has taken its fault: page, requester, epoch (R313) -/
  failed : List (Nat × Requester × Nat)
  /-- unit kinds of sync space: 1 object, 2 barrier; absent: word -/
  units : FMap Nat
  objs  : FMap SyncObj
  bars  : FMap Barrier
  waits : List Waiter
  barWaits : List BarWaiter
  phases : FMap PhaseState
  /-- home of a group: dies that have completed the phase -/
  diesDone : FMap (List Nat)
  /-- events logged since cold reset; the records lie in the die scratchpad (R372) -/
  seq   : Nat
  /-- place in the circular log, 0 to 4,095, of the next record: it outlives a cold reset, as the records do (R372) -/
  place : Nat
  /-- clock of the last event, and the events of that cycle in the order of the log -/
  logAt  : Nat
  logged : List LogEvent
  soft  : Nat
  softAt : Option Nat
  /-- converter: hold-up since, or dark -/
  convHold : Option Nat
  convDark : Bool
  /-- DRAM regions lost with the supply whose pages have still to be rewritten (R367) -/
  rehoming : List Nat
  /-- attach sites as the map names them: of banks 0 to 15 of the scratchpad, and 16 the synchronisation engine (R325); where
  none is listed, a free value (log entry 10) -/
  attach : FMap Nat
  deriving DecidableEq, Repr

/-- A channel slot of a graph image: a route record of R224 as 12 dwords, its flags, and the target core of a `to=` channel;
a `route=` channel names none (R266, R329). -/
structure SlotImage where
  record : List Word
  logged : Bool
  tied   : Bool
  target : Option Nat
  deriving DecidableEq, Repr

/-- A named region of space cluster or die of an image, with the cores whose files declare it (R99). -/
structure SharedRegion where
  inDie : Bool
  off   : Nat
  size  : Nat
  cores : List Nat
  deriving DecidableEq, Repr

/-- A per-core section of a graph image (R329). The named regions are held as offset and size (R14, R98, R350). -/
structure CoreImage where
  core    : Nat
  scratch : List Host.Cell
  /-- extents of the DRAM section: offset and bytes -/
  dram    : List (Nat × List Byte)
  /-- end of what the image places in the DRAM region -/
  dramEnd : Nat
  stack   : Option (Nat × Nat)
  spill   : Option (Nat × Nat)
  clog    : Option (Nat × Nat)
  /-- base and number of loop records -/
  loops   : Nat × Nat
  /-- the 32-byte handler-table entries by tag (R190) -/
  table   : FMap Vec
  slots   : FMap SlotImage
  bound   : Word
  /-- initial route-cache entries: key, forward record, return record -/
  rcache  : List (Nat × List Word × List Word)
  trapvec : Word
  grp     : Word
  deriving DecidableEq, Repr

/-- A launch command (R337). -/
structure LaunchCmd where
  kind   : Nat
  mode   : Nat
  irq    : Bool
  dflt   : Bool
  rounds : Nat
  seq    : Nat
  image  : Word
  arg    : Word
  rec'   : Word
  arglen : Nat
  reccap : Nat
  limit  : Nat
  /-- a reserved field or value is set -/
  reserved : Bool
  deriving DecidableEq, Repr

/-- A graph image as LOAD reads it (R329): its header and its sections. How the sections lie in bytes is salld's own, so they
are structured here and their bytes are a free function of them; what the spec lays out bit by bit stays in its bits (log entry
35). -/
structure Image where
  magic   : Nat
  version : Nat
  id      : Nat
  graftGen : Nat
  length  : Nat
  count   : Nat
  digest  : BitVec 128
  cores   : List CoreImage
  shared  : List SharedRegion
  /-- the 16-byte group-table entries by group (R283) -/
  groups  : FMap (BitVec 128)
  /-- page-table bytes at their die-scratchpad offsets -/
  pages   : List Host.Cell
  /-- the 64-byte slot of the default launch command, of zeros when there is none; the header's copies repeat its mode, rounds
  and argument length -/
  dflt    : List Byte
  deriving DecidableEq, Repr

end Sys2Proof.Machine

namespace Sys2Proof.Config

/-- Free value: the bytes in which salld lays out the sections of a graph image (R329). Log entry 35. -/
opaque sectionBytes : List Machine.CoreImage → List Machine.SharedRegion → Machine.FMap (BitVec 128) → List Host.Cell →
  List Byte → List Byte

end Sys2Proof.Config

namespace Sys2Proof.Machine

open Sys2Proof

/-- A launch queue (R332–R335). -/
structure Queue where
  reserve : Nat
  head    : Nat
  progress : Nat
  lastst  : Nat
  prio    : Nat
  pub     : List Nat
  vector  : Nat
  badpub  : Bool
  /-- clock of the last completion, for R336 -/
  doneAt  : Nat
  /-- port on which each slot was published -/
  ports   : FMap Nat
  /-- it has been switched out and not in again; a queue that has never been in reads 0, as at reset (R333, R335; DEDUCED, log
  entry 120) -/
  swapped : Bool
  deriving DecidableEq, Repr

/-- The command being performed (R336, R339). -/
structure Running where
  queue  : Nat
  port   : Nat
  cmd    : LaunchCmd
  took   : Nat
  /-- 0 taken, 1 checked and between rounds, 2 in a round, 3 aborting, 4 ended with its record still to be written -/
  phase  : Nat
  /-- cores whose start message of the round has still to enter (R339) -/
  starts : List Nat
  /-- status, detail and late tiles of a record that waits for a busy page (R313, R342) -/
  finish : Option (Nat × Word × Nat)
  round  : Nat
  payload : List Word
  /-- core, tag, round, constant -/
  updates : List (Nat × Nat × Nat × BitVec 32)
  /-- counts of the last sweep that found everything idle (R340) -/
  sweep  : Option (Nat × Nat)
  /-- clock of the next sweep -/
  sweepAt : Nat
  status : Nat
  /-- events logged at the take (R342) -/
  events0 : Nat
  retired : List Nat
  /-- coppice sweep results (R357) -/
  reexec  : Nat
  skipped : Nat
  iters   : Nat
  flags   : Nat
  ranges  : Nat
  diverged : List Nat
  deriving DecidableEq, Repr

/-- Coppice state of the module (R353–R358). -/
structure Coppice where
  dirty   : List Range
  late    : List Range
  /-- image id, rounds and payload of the last recording launch (R355) -/
  last    : Option (Nat × Nat × List Word)
  /-- MIGRATE, page move or remap since its start -/
  moved   : Bool
  skippedSet : List Nat
  /-- write sets before the launch -/
  oldWrites : FMap (List Range)
  /-- log entries of skipped cores still to re-inject -/
  replays : FMap (List Packet)
  /-- D of the last sweep, which every die keeps in the 512 KiB beyond its overflow area (R356) -/
  union   : List Range
  deriving DecidableEq, Repr

/-- A key with its salt and index (R388, R390). -/
structure Key where
  key  : BitVec 256
  salt : BitVec 56
  idx  : Nat
  deriving DecidableEq, Repr

/-- An encryption context of a port with its own counters and replay state (R388, R390, R393). -/
structure FabCtx where
  staging : BitVec 256
  pending : Option Key
  /-- key of new groups sent, and key of groups received; none before the first switch since training (log entry 29) -/
  cur     : Option Key
  rxKey   : Option Key
  /-- the peer's announced switch: key index, and how many groups come before it -/
  rxSwitch : Option (Nat × Nat)
  peerPend : Option Nat
  ctr     : Nat
  expected : Nat
  /-- a NAK has been sent since the last accepted group -/
  nakSent : Bool
  /-- unacknowledged groups, oldest first -/
  held    : List Group
  /-- next held group to resend: index; none when not replaying -/
  resend  : Option Nat
  /-- flits of a packet whose first flits have left in a group -/
  filling : List FabFlit
  /-- clock when the first flit that still waits was there -/
  fillAt  : Nat
  /-- failed receptions of groups not yet accepted, by counter (R384) -/
  fails   : FMap Nat
  deriving DecidableEq, Repr

/-- A laser source (R389). -/
structure Laser where
  bias  : Word
  power : Word
  temp  : Word
  hours : Word
  trend : Word
  rem   : Word
  drift : Word
  /-- bias of the first powered hour, once it has been recorded -/
  b0 : Option Nat
  failed : Bool
  deriving DecidableEq, Repr

/-- Control frames and groups a port sends (R381). Acknowledgements and NAKs name a group by key index and counter. -/
inductive Frame where
  | ack (ctx key upto : Nat)
  | nak (ctx key counter : Nat)
  | credit (lane n : Nat)
  /-- this end holds a pending key; and it switches to a key after so many groups of the old one -/
  | keyPending (ctx idx : Nat)
  | keySwitch (ctx idx count : Nat)
  | stripe (lanes : Nat)
  | report (r : ReportFrame) (core : Nat) (moved : Bool)
  | group (g : Group)
  deriving DecidableEq, Repr

/-- An optical port (R377–R398). -/
structure Port where
  vector : Nat
  crypt  : Bool
  cryptOn : Bool
  mode   : Nat
  enable : Bool
  /-- stripe map and lost lanes of the direction received, stripe map of the direction sent (R398) -/
  lanes  : Nat
  lost   : Nat
  /-- lanes whose light has stopped arriving and is not yet detected as lost (R385, R398) -/
  unlit  : Nat
  txLanes : Nat
  state  : Nat
  replays : Nat
  uncorr : Nat
  evt    : Nat
  sel    : Nat
  ctxs   : FMap FabCtx
  lasers : FMap Laser
  /-- frames and groups sent, for the peer to receive -/
  sent   : List Frame
  /-- credits left for a peer's receive buffer, flits at 8 · encryption context + lane (R379, R393) -/
  credits : FMap Nat
  replayAt : Option Nat
  replayN : Nat
  overrunRot : Option Nat
  /-- lanes whose light is back since (R385) -/
  back   : FMap Nat
  /-- slot in progress: entry number and its end -/
  slot   : Option (Nat × Nat)
  peerMod  : Option Nat
  peerPort : Nat
  metres : Nat
  /-- die management has written the port's entry of the fibre table (R394) -/
  mapped : Bool
  deriving DecidableEq, Repr

/-- A slot-table entry (R392). -/
structure SlotEntry where
  guard    : Nat
  duration : Nat
  /-- halfword of each port: bit 15 valid, bits [9:0] the peer module -/
  peers    : FMap Nat
  deriving DecidableEq, Repr

/-- What the host does to the module over its bus; those with no port may have come over any (R333, R343, R344). -/
inductive HostInput where
  | read (port off n : Nat)
  | write (port off : Nat) (data : List Byte)
  | reg (port off : Nat) (v : Word)
  | publish (q : Nat) (slot : BitVec 7) (port : Nat)
  | claim (q : Nat)
  | ring (q off : Nat) (data : List Byte)
  | abort (v : Word)
  deriving DecidableEq, Repr

/-- Answers the host or an SPDM requester receives. -/
inductive HostMsg where
  | readData (port : Nat) (data : List Byte)
  | unsupported (port : Nat)
  | value (v : Word)
  | msix (vector : Nat)
  | spdm (port code : Nat) (body : List Byte)
  deriving DecidableEq, Repr

/-- Bring-up state (R369–R374). -/
structure Bringup where
  stage  : Nat
  fail   : Nat
  sapling : Bool
  /-- DRAM training of stage 2 has ended -/
  trained : Bool
  ms     : Nat
  began  : Option Nat
  /-- fatal error taken: FATAL logged, rails removed -/
  fatal  : Bool
  /-- security versions: in fuses, and of the firmware that runs (R374) -/
  fuseVersion : Nat
  version : Nat
  deriving DecidableEq, Repr

/-- A page move in progress (R314). -/
structure PageMove where
  va   : Nat
  leaf : Word
  step : Nat
  old  : Word
  move : Bool
  deriving DecidableEq, Repr

/-- PTP clock (R391). -/
structure Ptp where
  offset  : Int
  /-- PTP nanoseconds at the last Sync, and its clock -/
  time    : Nat
  lastSync : Nat
  lost    : Bool
  goodSince : Option Nat
  deriving DecidableEq, Repr

/-- What the scheduler lets move next: an instruction of a core, with the set of contexts whose latencies let them issue
as bits of `ready` (R193), the head command of an engine queue, or a machine step of the table with its operands (log
entry 4). -/
inductive Move where
  | issue (core ready : Nat) (merge : Bool)
  | command (core : Nat) (q : EngineQ)
  | event (i : Instr)
  deriving DecidableEq, Repr

/-- For whom `exec` acts: the context of a fetched instruction, the queue of a command (log entry 4). -/
structure Focus where
  core  : Nat
  ctx   : Nat
  queue : EngineQ
  /-- a posted STREL may absorb this store (R275) -/
  merge : Bool
  deriving DecidableEq, Repr

end Sys2Proof.Machine
end

