-- ==== Sys2Proof/Machine/State.lean ====
section
/-! DEFINITION. The machine's state: one module, its host's memory and images, and what the scheduler does next. Plain
data; `State.reset` is the module right after cold reset (R7, R154, R330, R370). -/

namespace Sys2Proof.Machine

/-- One module of 64 dies (R323), its host memory (R343), the packets in flight (R218) and the schedule. -/
structure State where
  /-- cores that differ from `Core.blank`, by logical core number (R3) -/
  cores    : FMap Core
  /-- contexts that differ from `Ctx.blank`, at 4 · core + context (R11) -/
  ctxs     : FMap Ctx
  /-- device memory, by physical number (R94, R95, R216, R286, R308) -/
  mem      : Memory
  /-- runs of 32-byte units, by first physical number / 32 and length, that read as an uncorrectable error (R211, R367,
  R373) -/
  poison   : List (Nat × Nat)
  /-- outstanding accesses, oldest first (R75, R269) -/
  reqs     : List Req
  /-- packets in the mesh (R218) -/
  net      : List Flight
  /-- flits of each lane buffer in use, at 128 · site + 8 · side + lane: sides 0 to 3 the links' input buffers, 4 to 7 the
  ejection buffers of the local ports, 8 to 11 their input buffers (R218) -/
  used     : FMap Nat
  /-- credits on their way back: buffer and flits (R218) -/
  owed     : List (Nat × Nat)
  /-- lane each output carried last, at 8 · site + side: 0 to 3 the links, 4 to 7 the local ports (R218) -/
  outTurn  : FMap Nat
  /-- consecutive failed checks of each link, at 4 · site + direction (R229) -/
  crcFails : FMap Nat
  /-- packets injected, and packets ejected, paired or dropped (R340) -/
  injected : Nat
  consumed : Nat
  /-- reports and notices on the service path: target core (R226, R202) -/
  reports  : List (Nat × Word × Option Nat)
  /-- routes between the synchronisation engines, installed at LOAD: from die a's to die b's at 64a + b (R302) -/
  engRoutes : FMap (List Run)
  sites    : FMap Site
  clusters : FMap Cluster
  dies     : FMap Die
  /-- graft entries: skip of row w of cluster n (64 · die + cluster) at 8n + w (R256) -/
  grafts   : FMap Nat
  remaps   : List Remap
  manifest : FMap Manifest
  /-- bad banks of a site that DRAM training found since power-on, one bit each (R369) -/
  training : FMap Nat
  graftGen : Nat
  stateGen : Nat
  moduleId : Nat
  groups   : FMap Group'
  /-- the cores that were members of groups at LOAD, each with its GRP (R276, R284, R302) -/
  members  : FMap Word
  image    : Option Image
  running  : Option Running
  queues   : FMap Queue
  /-- switched-in queues, most recently served first (R332, R335) -/
  cached   : List Nat
  /-- HWIN of each host port (R343) -/
  hwin     : FMap Nat
  hevt     : Nat
  slotRun  : Bool
  slotN    : Nat
  slotEpoch : Nat
  slotTable : FMap SlotEntry
  /-- table and start of the rotation in progress (R392) -/
  rotation : Option (Nat × List SlotEntry)
  bringup  : Bringup
  /-- flash copies of the heartwood records: the bytes of each of the 4 slots, die d's from 262,144 · d (R372) -/
  flash    : FMap Memory
  /-- fatal errors so far: the slot to be written next is this number modulo 4 -/
  fatals   : Nat
  coppice  : Coppice
  ports    : FMap Port
  ptp      : Ptp
  pageMove : Option PageMove
  /-- SPDM progress of each host port: 0 none, 1 version, 2 capabilities, 3 algorithms (R375) -/
  spdm     : FMap Nat
  /-- sensor result: firmware security version and manifest check at the last power-on (R374, R375) -/
  manifestOk : Bool
  hostMem  : Memory
  /-- graph images at host addresses (R329) -/
  hostImages : FMap Image
  /-- host accesses that meet a page being moved, and those behind them, in order of arrival (R314, R344) -/
  hostHeld : List HostInput
  /-- what the module has sent to the host, oldest first -/
  hostOut  : List HostMsg
  /-- the clock, in cycles since cold reset -/
  now      : Nat
  /-- turns taken by the default scheduler (log entry 4) -/
  turn     : Nat
  /-- next identifier for accesses, packets and arrival stamps; also the index of the next free value -/
  fresh    : Nat
  /-- what moves next, with the cycles that pass before it (log entry 4) -/
  agenda   : List (Nat × Move)
  focus    : Focus
  deriving DecidableEq, Repr

/-- Why the machine stops. -/
inductive Fault where
  /-- `step`: the agenda names a machine step whose parties the module does not have (a core number of 524,288 or
  above, a die of 64 or above …). Safe: no hardware event is such a step. -/
  | noSuchParty
  deriving DecidableEq, Repr

/-- Why an instruction is not given an outcome. -/
inductive Refusal where
  /-- an arm of `exec` with no meaning yet; safe -/
  | notModelled (mnemonic : String)
  deriving DecidableEq, Repr

/-- Site that carries logical core `n` under skip `sk` of its row (R257): the site id is PY · 2048 + PX (R2). -/
def siteUnder (n sk : Nat) : Nat :=
  let lx := n % 1024
  let ly := n / 1024
  let p := lx % 16
  let q := if p < sk then p else p + 1
  ly * 2048 + (136 * (lx / 128) + 17 * ((lx % 128) / 16) + q)

/-- The skip a row has where firmware finds no bad site (R258). -/
def defaultSkip : Nat := 8

/-- An invalid macro, row buffer, an empty bank, a zero latch (R154). -/
def Macro.blank : Macro := ⟨false, 0, false, [], []⟩
def ABuf.blank : ABuf := ⟨false, 0, 0, 0, [], []⟩
def Bank.blank : Bank := ⟨[], 0⟩
def Latch.blank : Latch := ⟨0, 0, 0, 0⟩

/-- Trace state after cold reset and LOAD (R347, R361). -/
def Trace.blank : Trace := ⟨false, false, false, false, 0, 0, 0, 0, [], []⟩

/-- An unbound stream register (R102). -/
def Stream.blank : Stream :=
  ⟨false, 0, 0, .app, 0, 8, false, 0, none, 0, 0, 0, [], [], [], none, none, false, 0⟩

/-- A channel slot without a route (R232). -/
def Slot.blank : Slot := ⟨none, 0, 0, 0, 0, false, false⟩

/-- An entry that is not in use (R190). -/
def TagEntry.blank : TagEntry := ⟨0, 0, 0, 0, false, false, false, 0, 0⟩

def RoundState.blank : RoundState := ⟨0, 0, 0, 0, 0, false⟩

/-- A context with no activation. Register values are the model's choice of 0 (log entry 2). -/
def Ctx.blank : Ctx :=
  { act := none, epoch := 0, pc := 0, glob := [], win := [], depth := 0, v := [], k := [], vrm := 0, vflags := 0,
    actmsg := 0, acttag := 0, actround := 0, actchan := 0, actsrc := 0, trapcause := 0, trapval := 0, trappc := 0,
    trapmsg := 0, send := [], ld := 0, st := 0, sy := 0, gather := none, checks := none, phaseAt := none, barrier := none, blocks := [],
    pushes := [], waits := 0, left := none }

/-- Logical core `n` after cold reset: no image, no channel bound (R93, R154, R155–R158, R330); the fields the spec marks
L hold 0 (log entry 2). -/
def Core.blank (n : Nat) : Core :=
  { site := siteUnder n defaultSkip, region := siteUnder n defaultSkip, named := false, absent := false, tagen := 0, tagpend := 0, tagSeen := none, grp := 0, trapvec := 0,
    ageb := 1024, actlim := 0, actlimAt := none, chdrop := 0, mxfmta := 0, mxfmtb := 0, mxsca := 0x20, mxscb := 0x20, mxflags := 0, mxOld := (0, ⟨0, 0, 0x20, 0x20⟩), mxSet := (0, 0),
    qstat := 0, qerrm := 0, qerrc0 := 0, qerrc1 := 0, table := [], slots := [], rcache := [], queues := [], rings := [], ringAt := [],
    hold := [], genHold := [], arrivals := 0, bound := 0, gexp := [], rounds := [], staged := [], outq := [],
    elig := [], reclose := [], startedAt := none, issuedAt := none, sysq := [], streams := [], drains := [], cmds := [], jobs := [], turns := [], stamp := 0, cp := 0, mx := 0,
    mb0 := .blank, mb1 := .blank, abuf := .blank, ac0 := .blank, ac1 := .blank, latch := .blank, utlb := [],
    ctlb := [], phases := [], standing := [], trace := .blank, pair := none, mig := none, muted := false, serial := 0,
    stackEnd := 0, stackSize := 0, spillBase := 0, loopsBase := 0, loopsN := 0, clogBase := 0, clogSize := 0 }

/-- A site of a module whose map has not been written (log entry 9). -/
def Site.blank : Site := ⟨.good, 0, 12, none, none, none, none⟩

def Manifest.blank : Manifest := ⟨false, 12, 0, 0, false, 0⟩

/-- A cluster before power-on (R262, R265). -/
def Cluster.blank : Cluster :=
  { reg := 0, phases := 6, stages := 0, stageAt := none, waitAt := none, waitLogged := false, permitted := 0,
    clock := 1200, former := 1200, throttled := false, rail := 0, holdup := none, attach9 := 0 }

/-- The rail at which die management sets a cluster, in mV (R262, log entry 23). -/
def railSet (cl : Nat) : Nat := 600 + 5 * (Config.railStep cl % 31)

/-- A cluster that has powered on, at its nominal limits (R262, R265). -/
def Cluster.powered (cl : Nat) : Cluster := { Cluster.blank with stages := 4, permitted := 120, rail := railSet cl }

/-- Nothing recorded for a later coppice launch (R353–R356). -/
def Coppice.blank : Coppice := ⟨[], [], none, false, [], [], [], []⟩

def Die.blank : Die :=
  { dtc := [], walks := [], missq := [], refusedMiss := [], busyWait := [], failed := [], units := [], objs := [], bars := [],
    waits := [], barWaits := [], phases := [], diesDone := [], seq := 0, place := 0, logAt := 0, logged := [], soft := 0, softAt := none,
    convHold := none, convDark := false, rehoming := [], attach := [] }

/-- A launch queue at its creation (R332, R333). -/
def Queue.blank : Queue := ⟨0, 0, 0, 0, 0, [], 0, false, 0, [], false⟩

def Laser.blank : Laser := ⟨0, 0, 0, 0, 0, 0, 0, none, false⟩

def FabCtx.blank : FabCtx :=
  { staging := 0, pending := none, cur := none, rxKey := none, rxSwitch := none, peerPend := none, ctr := 0, expected := 0,
    nakSent := false, held := [], resend := none, filling := [], fillAt := 0, fails := [] }

/-- A port with every register at its reset value (R387–R389). -/
def Port.blank : Port :=
  { vector := 0, crypt := false, cryptOn := false, mode := 0, enable := false, lanes := 0, lost := 0, unlit := 0, txLanes := 0, state := 0,
    replays := 0, uncorr := 0, evt := 0, sel := 0, ctxs := [], lasers := [], sent := [], credits := [],
    replayAt := none, replayN := 0, overrunRot := none, back := [], slot := none, peerMod := none, peerPort := 0,
    metres := 0, mapped := false }

def SlotEntry.blank : SlotEntry := ⟨0, 0, []⟩

def Group'.blank : Group' := ⟨0, false, 0, 0, 0⟩

/-- The module right after cold reset (R7, R370): off, nothing loaded, nothing in flight. -/
def State.reset : State :=
  { cores := [], ctxs := [], mem := [], poison := [], reqs := [], net := [], used := [], owed := [], outTurn := [], crcFails := [],
    injected := 0, consumed := 0, reports := [], engRoutes := [], sites := [], clusters := [], dies := [], grafts := [],
    remaps := [], manifest := [], training := [], graftGen := 0, stateGen := 0, moduleId := 0, groups := [], members := [], image := none,
    running := none, queues := [], cached := [], hwin := [], hevt := 0, slotRun := false, slotN := 0, slotEpoch := 0,
    slotTable := [], rotation := none, bringup := ⟨0, 0, false, false, 0, none, false, 0, 0⟩, flash := [], fatals := 0,
    coppice := .blank, ports := [], ptp := ⟨0, 0, 0, false, none⟩, pageMove := none, spdm := [],
    manifestOk := false, hostMem := [], hostImages := [], hostHeld := [], hostOut := [], now := 0, turn := 0, fresh := 0, agenda := [],
    focus := ⟨0, 0, .mxq, false⟩ }

end Sys2Proof.Machine
end

