-- ==== Sys2Proof/Machine/Ops.lean ====
section
/-! DEFINITION. The named operations over tables, memory, registers and contexts, the event log, and taking and leaving
a trap (R15–R17, R24, R79, R199–R201, R372). -/

namespace Sys2Proof

/-! ### Bits -/

/-- Bits hi..lo of a number. -/
def bits (x hi lo : Nat) : Nat := (x >>> lo) % 2 ^ (hi + 1 - lo)

/-- One bit of a number. -/
def bit (x i : Nat) : Bool := (x >>> i) % 2 == 1

/-- `sext(x, n)` of R9 on a natural. -/
def sextNat (x n : Nat) : Int := if x % 2 ^ n < 2 ^ (n - 1) then (x % 2 ^ n : Nat) else (x % 2 ^ n : Nat) - (2 : Int) ^ n

/-- `wrap(x, n)` of R9 as a natural. -/
def wrapInt (x : Int) (n : Nat) : Nat := (x % (2 : Int) ^ n).toNat


/-- Position and size of each tray of physical memory in the flat numbering. -/
def Space.code : Space → Nat
  | .dram => 0 | .scratch => 1 | .cluster => 2 | .die => 3 | .sync => 4

/-- Bytes of one memory of a space (R94, R95, R216, R286, R308). -/
def Space.size : Space → Nat
  | .dram => 0x40_0000 | .scratch => 0x8000 | .cluster => 0x20_0000 | .die => 0x200_0000 | .sync => 0x400_0000

/-- The physical number of a byte. -/
def Place.phys (p : Place) : Nat := p.space.code * 2 ^ 48 + p.owner * 2 ^ 26 + p.off

/-- Bank of a place (R94, R95, R216, R308); one engine for sync space. -/
def Place.bank (p : Place) : Nat :=
  match p.space with
  | .dram => bits p.off 21 19
  | .scratch => bits p.off 7 5
  | .cluster => bits p.off 6 5
  | .die => bits p.off 8 5
  | .sync => 0

/-- Two places with one home (R269). -/
def Place.sameHome (p q : Place) : Bool := p.space == q.space && p.owner == q.owner && p.bank == q.bank

/-- Two runs of bytes that share a byte. -/
def Place.overlaps (p : Place) (n : Nat) (q : Place) (m : Nat) : Bool :=
  p.space == q.space && p.owner == q.owner && decide (p.off < q.off + m) && decide (q.off < p.off + n)


/-! ### Header bits (R220) -/

/-- The header flit of R220 as four dwords, lowest first. -/
def PktKind.code : PktKind → Nat
  | .data => 0 | .marker => 1 | .fence => 2 | .memReq => 4 | .memRep => 5 | .syncReq => 6 | .syncRep => 7
  | .pairReq => 8 | .pairRep => 9 | .mgmt => 10 | .migrate => 12 | .reserved k => k

def Dir.code : Dir → Nat
  | .n => 0 | .e => 1 | .s => 2 | .w => 3

def Run.code (r : Run) : Nat :=
  r.dir.code * 2 ^ 14 + (if r.bump then 2 ^ 13 else 0) + (if r.pair then 2 ^ 12 else 0) + r.len % 1024

def runsNat : List Run → Nat
  | [] => 0
  | r :: t => r.code + 2 ^ 16 * runsNat t

def b2n (b : Bool) : Nat := if b then 1 else 0

/-- The header as a 256-bit number (R220). -/
def Header.nat (h : Header) : Nat :=
  runsNat (h.runs.take 8) + h.dsite * 2 ^ 128 + h.last * 2 ^ 149 + b2n h.ext * 2 ^ 154 + h.cur * 2 ^ 155
  + h.kind.code * 2 ^ 160 + h.tag * 2 ^ 164 + h.round * 2 ^ 170 + h.fmt * 2 ^ 186 + h.rch * 2 ^ 194 + h.sch * 2 ^ 200
  + h.gen * 2 ^ 206 + h.ssite * 2 ^ 208 + h.score * 2 ^ 229 + b2n h.logged * 2 ^ 248 + b2n h.tied * 2 ^ 249
  + b2n h.fin * 2 ^ 251 + h.port * 2 ^ 252

end Sys2Proof

namespace Sys2Proof.Machine

/-! ### Tables -/

/-- The value at a key. -/
def FMap.look {α : Type} : FMap α → Nat → Option α
  | [], _ => none
  | (k', v) :: t, k => if k' = k then some v else FMap.look t k

/-- The table with `v` at `k`. -/
def FMap.put {α : Type} : FMap α → Nat → α → FMap α
  | [], k, v => [(k, v)]
  | (k', v') :: t, k, v =>
    if k' = k then (k, v) :: t
    else if k < k' then (k, v) :: (k', v') :: t
    else (k', v') :: FMap.put t k v

/-- The table without key `k`. -/
def FMap.cut {α : Type} : FMap α → Nat → FMap α
  | [], _ => []
  | (k', v') :: t, k => if k' = k then FMap.cut t k else (k', v') :: FMap.cut t k

/-- The value at a key, or the default. -/
def FMap.at {α : Type} (m : FMap α) (k : Nat) (d : α) : α := (m.look k).getD d

/-- Every value changed by `f`. -/
def FMap.mapV {α β : Type} (f : Nat → α → β) (m : FMap α) : FMap β := m.map fun p => (p.1, f p.1 p.2)

/-- The first of a list under an order. -/
def leastBy (before : Nat → Nat → Bool) : List Nat → Option Nat
  | [] => none
  | k :: t => match leastBy before t with
    | none => some k
    | some j => if before j k then some j else some k

/-- Lists of one length in lexicographic order. -/
def lexBefore : List Nat → List Nat → Bool
  | [], _ => false
  | _ :: _, [] => false
  | a :: s, b :: t => decide (a < b) || (a == b && lexBefore s t)

/-- The word of a number. -/
def w64 (x : Nat) : Word := BitVec.ofNat 64 x

/-- Word with bit `i` set or cleared. -/
def setBit (w : Word) (i : Nat) : Word := w ||| (1#64 <<< i)
def clrBit (w : Word) (i : Nat) : Word := w &&& ~~~ (1#64 <<< i)

/-! ### Bytes -/

/-- Little-endian value of bytes (R5). -/
def leNat : List Byte → Nat
  | [] => 0
  | b :: t => b.toNat + 256 * leNat t

/-- The `n` little-endian bytes of a value (R5). -/
def natLE : Nat → Nat → List Byte
  | 0, _ => []
  | n + 1, v => BitVec.ofNat 8 v :: natLE n (v / 256)

/-- Bytes `lo` to `lo + n − 1` of a list, zero past its end. -/
def slice (bs : List Byte) (lo n : Nat) : List Byte := (List.range n).map fun i => bs.getD (lo + i) 0

/-! ### Memory -/

/-- One byte; an unlisted address reads as 0 (log entry 1). -/
def Memory.read : Memory → Nat → Byte
  | [], _ => 0
  | (k, v) :: t, a => if k = a then v else Memory.read t a

/-- The memory without an entry for an address. -/
def Memory.erase : Memory → Nat → Memory
  | [], _ => []
  | (k, v) :: t, a => if k = a then Memory.erase t a else (k, v) :: Memory.erase t a

/-- The memory with an entry for an address, at its place in the rising order. -/
def Memory.insert : Memory → Nat → Byte → Memory
  | [], a, b => [(a, b)]
  | (k, v) :: t, a, b =>
    if a < k then (a, b) :: (k, v) :: t
    else if a = k then (a, b) :: t
    else (k, v) :: Memory.insert t a b

/-- Write one byte, keeping the canonical form: a byte of 0 is not listed. -/
def Memory.write (m : Memory) (a : Nat) (b : Byte) : Memory := if b = 0 then m.erase a else m.insert a b

/-- The bytes at `a`, ascending. -/
def Memory.readN (m : Memory) (a n : Nat) : List Byte := (List.range n).map fun i => m.read (a + i)

/-- The listed bytes of a run. -/
def Memory.part (m : Memory) (a n : Nat) : Memory := m.filter fun c => decide (a ≤ c.1) && decide (c.1 < a + n)

/-- The memory with the `n` bytes at `dst` replaced by those of another memory at `src`. -/
def Memory.takeRun (m k : Memory) (src dst n : Nat) : Memory :=
  (k.part src n).foldr (fun c u => u.write (dst + (c.1 - src)) c.2)
    (m.filter fun c => !(decide (dst ≤ c.1) && decide (c.1 < dst + n)))

/-- Write bytes upward from `a`. -/
def Memory.writeN : Memory → Nat → List Byte → Memory
  | m, _, [] => m
  | m, a, b :: t => Memory.writeN (m.write a b) (a + 1) t

/-- Cells in any order as a memory; of two cells at one address the later one counts. -/
def Memory.ofCells (l : List Host.Cell) : Memory := l.foldl (fun m c => m.write c.1 c.2) []

/-- The memory with the `n` bytes at `a` replaced by the first `n` bytes of another. -/
def Memory.splice (m : Memory) (a n : Nat) (k : Memory) : Memory :=
  m.filter (fun c => decide (c.1 < a)) ++ (k.filter fun c => decide (c.1 < n)).map (fun c => (a + c.1, c.2))
    ++ m.filter fun c => decide (a + n ≤ c.1)

/-- Every listed address lies above `lo`, addresses rise, no byte is 0. -/
def Memory.wfFrom : Nat → Memory → Bool
  | _, [] => true
  | lo, (k, v) :: t => decide (lo ≤ k) && v != 0 && Memory.wfFrom (k + 1) t

/-- The canonical form. -/
def Memory.wf (m : Memory) : Bool := Memory.wfFrom 0 m

/-! ### Geometry (R2, R96, R215, R256, R257, R323) -/

def siteX (s : Nat) : Nat := s % 2048
def siteY (s : Nat) : Nat := s / 2048
def mkSite (x y : Nat) : Nat := y * 2048 + x
def siteExists (s : Nat) : Bool := decide (siteX s < 1088) && decide (siteY s < 512)
def siteDie (s : Nat) : Nat := 8 * (siteY s / 64) + siteX s / 136
/-- cluster of a site, as 64 · die + cluster -/
def siteCluster (s : Nat) : Nat := 64 * siteDie s + 8 * ((siteY s % 64) / 8) + (siteX s % 136) / 17
def siteRow (s : Nat) : Nat := siteY s % 8
def sitePos (s : Nat) : Nat := siteX s % 17
def coreLX (n : Nat) : Nat := n % 1024
def coreLY (n : Nat) : Nat := n / 1024
def coreDie (n : Nat) : Nat := 8 * (coreLY n / 64) + coreLX n / 128
def coreCluster (n : Nat) : Nat := 64 * coreDie n + 8 * ((coreLY n % 64) / 8) + (coreLX n % 128) / 16
/-- index of a core in its cluster window (R96) -/
def coreWindow (n : Nat) : Nat := (coreLY n % 8) * 16 + coreLX n % 16
/-- the core at window index `m` of the cluster of core `n` (R96) -/
def windowCore (n m : Nat) : Nat :=
  ((coreLY n / 8) * 8 + m / 16) * 1024 + (coreLX n / 16) * 16 + m % 16
/-- row key of the graft table -/
def siteRowKey (s : Nat) : Nat := 8 * siteCluster s + siteRow s

/-! ### Parts of the state -/

/-- Site of logical core `n` under the graft entries, and the skip of its row (R257). -/
def State.placed (s : State) (n : Nat) : Nat × Nat :=
  let sk := s.grafts.at (siteRowKey (siteUnder n defaultSkip)) defaultSkip
  (siteUnder n sk, sk)

/-- Logical core `n` as the graft entries place it, otherwise as after cold reset; a disabled row has none (R260). -/
def State.freshCore (s : State) (n : Nat) : Core :=
  let p := s.placed n
  { Core.blank n with site := p.1, region := p.1, absent := p.2 == 31 }

def State.core (s : State) (n : Nat) : Core := s.cores.at n (s.freshCore n)
def State.setCore (s : State) (n : Nat) (c : Core) : State := { s with cores := s.cores.put n c }
def State.ctx (s : State) (core c : Nat) : Ctx := s.ctxs.at (4 * core + c) .blank
def State.setCtx (s : State) (core c : Nat) (x : Ctx) : State := { s with ctxs := s.ctxs.put (4 * core + c) x }
def State.die (s : State) (d : Nat) : Die := s.dies.at d .blank
def State.setDie (s : State) (d : Nat) (x : Die) : State := { s with dies := s.dies.put d x }
/-- A cluster that is not listed: off before bring-up and after a failure of stage 1, waiting for its power-on in stage 1, and at
its nominal limits after it (R265, R369). -/
def State.freshCluster (s : State) (k : Nat) : Cluster :=
  let b := s.bringup
  if b.stage = 1 then { Cluster.blank with waitAt := b.began }
  else if b.stage = 0 ∨ (b.stage = 15 ∧ b.fail < 4) then .blank
  else .powered k
def State.cluster (s : State) (k : Nat) : Cluster := s.clusters.at k (s.freshCluster k)
/-- A change that shows in the map raises the state generation (R327). -/
def State.setCluster (s : State) (k : Nat) (x : Cluster) : State :=
  let old := s.cluster k
  { s with
    clusters := s.clusters.put k x
    stateGen := if old.reg = x.reg ∧ old.attach9 = x.attach9 then s.stateGen else s.stateGen + 1 }
def State.port (s : State) (p : Nat) : Port := s.ports.at p .blank
/-- Predicted hours as the port table shows them (R394). -/
def shownHours (x : Word) : Nat := if x.toNat > 0xFFFF then 0xFFFF else x.toNat

/-- The two dwords of a port-table entry (R394). -/
def Port.tableWord (p : Port) (hi : Bool) : Nat :=
  if hi then (List.range 4).foldr (fun l n => shownHours (p.lasers.at l .blank).rem + 2 ^ 16 * n) 0
  else p.mode % 4 + p.state % 4 * 4 + p.lanes % 2 ^ 16 * 16

/-- A fibre-table entry: in slotted mode the switch port, with no peer module; 0 until die management has written it (R394). -/
def Port.fibreWord (p : Port) : Nat :=
  if !p.mapped then 0
  else (match p.peerMod with
   | some m => if p.mode = 2 then 0 else 2 ^ 63 + m % 1024 * 2 ^ 32
   | none => 0) + p.peerPort % 64 * 2 ^ 16 + p.metres % 2 ^ 16

/-- What the map shows of a port (R394). -/
def Port.shown (p : Port) : Nat × Nat × Nat := (p.tableWord false, p.tableWord true, p.fibreWord)

/-- A change that shows in the map raises the state generation (R327). -/
def State.setPort (s : State) (p : Nat) (x : Port) : State :=
  let old := s.port p
  { s with
    ports := s.ports.put p x
    stateGen := if old.shown = x.shown then s.stateGen else s.stateGen + 1 }
def State.queue (s : State) (q : Nat) : Queue := s.queues.at q .blank
def State.setQueue (s : State) (q : Nat) (x : Queue) : State := { s with queues := s.queues.put q x }
def State.group (s : State) (g : Nat) : Group' := s.groups.at g .blank
/-- The context and the core in focus. -/
def State.me (s : State) : Ctx := s.ctx s.focus.core s.focus.ctx
def State.setMe (s : State) (x : Ctx) : State := s.setCtx s.focus.core s.focus.ctx x
def State.myCore (s : State) : Core := s.core s.focus.core
def State.setMyCore (s : State) (c : Core) : State := s.setCore s.focus.core c

/-- Skip of the row a site lies in (R256). -/
def State.skip (s : State) (site : Nat) : Nat := s.grafts.at (siteRowKey site) defaultSkip

/-- The core a site carries when nothing but the graft entries has placed it (R257). -/
def State.graftedCore (s : State) (site : Nat) : Option Nat :=
  let k := s.skip site
  let p := sitePos site
  if k = 31 ∨ p = k then none
  else
    let lp := if p < k then p else p - 1
    if lp > 15 then none else some (siteY site * 1024 + 128 * (siteX site / 136) + 16 * ((siteX site % 136) / 17) + lp)

/-- A site's entry; one that is not listed stands as its row's graft entry places it (R257, log entry 9). -/
def State.site (s : State) (n : Nat) : Site :=
  match s.sites.look n with
  | some e => e
  | none =>
    match s.graftedCore n with
    | some c => { Site.blank with core := some c }
    | none => { Site.blank with state := .spare }

/-- A change that shows in the map raises the state generation (R327). -/
def State.setSite (s : State) (n : Nat) (e : Site) : State :=
  let old := s.site n
  { s with
    sites := s.sites.put n e
    stateGen := if old.state = e.state ∧ old.down = e.down ∧ old.fbin = e.fbin ∧ old.core = e.core then s.stateGen
                else s.stateGen + 1 }

/-- The site that carries a core, none when the core is absent or retired (R257, R260). -/
def State.siteOf (s : State) (n : Nat) : Option Nat :=
  if n < 524288 ∧ (s.core n).absent = false then some (s.core n).site else none

/-- A core's part of the next fresh number. -/
def State.tick (s : State) : State := { s with fresh := s.fresh + 1 }

/-! ### Attach sites (R216, R308, R325) -/

/-- Site of a position in a row of a cluster, numbered 64 · die + cluster. -/
def clusterSite (cl row pos : Nat) : Nat :=
  let d := cl / 64
  let k := cl % 64
  mkSite (136 * (d % 8) + 17 * (k % 8) + pos) (64 * (d / 8) + 8 * (k / 8) + row)

/-- Sites of a cluster, ascending. -/
def clusterSites (cl : Nat) : List Nat := (List.range 8).flatMap fun r => (List.range 17).map fun p => clusterSite cl r p

/-- A cluster's bin: the lowest of its sites that carry cores (R326). -/
def State.clusterBin (s : State) (cl : Nat) : Nat :=
  (clusterSites cl).foldl (fun b x =>
    let e := s.site x
    if e.state = .good ∧ e.core.isSome ∧ e.fbin < b then e.fbin else b) 12

/-- The clock a cluster runs at, in MHz: its own, never above its bin, and 600 in sapling mode (R262, R371). -/
def State.clock (s : State) (cl : Nat) : Nat :=
  let f := 600 + 50 * s.clusterBin cl
  let c := (s.cluster cl).clock
  if s.bringup.sapling then 600 else if c < f then c else f

/-- The core rail of a cluster in mV: 600 in sapling mode (R262, R371). -/
def State.rail (s : State) (cl : Nat) : Nat :=
  let v := (s.cluster cl).rail
  if s.bringup.sapling ∧ v ≠ 0 then 600 else v

/-- Attach site of a cluster bank (R216). -/
def State.clusterBankSite (s : State) (cl bank : Nat) : Nat :=
  clusterSite cl (2 * bank) (if bit (s.cluster cl).attach9 bank then 9 else 8)

/-- A site of die `d` for its unit `n`, which no rule gives (log entry 10). -/
def freeAttach (d n : Nat) : Nat :=
  let v := Config.attachSite (17 * d + n) % 8704
  mkSite (136 * (d % 8) + v % 136) (64 * (d / 8) + v / 136)

/-- Site to which a unit of die `d` attaches, as the map names it: 0 to 15 the banks of its scratchpad, 16 its synchronisation
engine (R216, R308, R325). -/
def State.attachSite (s : State) (d n : Nat) : Nat := (s.die d).attach.at n (freeAttach d n)

def State.dieBankSite (s : State) (d j : Nat) : Nat := s.attachSite d j

def State.engineSite (s : State) (d : Nat) : Nat := s.attachSite d 16

/-! ### DRAM banks (R95, R310) -/

/-- The place that holds a byte of the DRAM region of a site: a bank that is remapped lies above a spare site (R310). -/
def State.regionPlace (s : State) (site off : Nat) : Place :=
  match s.remaps.find? fun m => m.badSite == site && m.badBank == bits off 21 19 with
  | some m => ⟨.dram, m.spareSite, m.spareBank * 0x8_0000 + off % 0x8_0000⟩
  | none => ⟨.dram, site, off⟩

/-- The offset in its region of a byte above a site: that of the bank for which a spare bank stands in (R310). -/
def State.regionOff (s : State) (site off : Nat) : Nat :=
  match s.remaps.find? fun m => m.spareSite == site && m.spareBank == bits off 21 19 with
  | some m => m.badBank * 0x8_0000 + off % 0x8_0000
  | none => off

/-! ### The topology map as it reads (R325–R327, R332, R394) -/

def siteStateCode : SiteState → Nat
  | .good => 0 | .spare => 1 | .failed => 2 | .fenced => 3

/-- A site entry (R326). A fenced or failed site shows no core. -/
def Site.entry (e : Site) : Nat :=
  let shown := match e.state with
    | .good => e.core
    | .spare | .failed | .fenced => none
  siteStateCode e.state * 2 ^ 30 + e.down % 16 * 2 ^ 26 + e.fbin % 16 * 2 ^ 22
    + (match shown with
       | some c => 2 ^ 19 + c
       | none => 0)

/-- A bank remap entry (R326). -/
def Remap.entry (m : Remap) : Nat :=
  2 ^ 63 + m.spareBank % 8 * 2 ^ 45 + m.spareSite * 2 ^ 24 + m.badBank % 8 * 2 ^ 21 + m.badSite

/-- Clusters of a die that are dark, and its spare sites (R394). -/
def State.darkClusters (s : State) (d : Nat) : Nat := ((List.range 64).filter fun c => (s.cluster (64 * d + c)).reg == 2).length
def State.spareSites (s : State) (d : Nat) : Nat :=
  ((List.range 8704).filter fun i =>
    (s.site (mkSite (136 * (d % 8) + i % 136) (64 * (d / 8) + i / 136))).state == .spare).length

/-- A die entry: dark with its converter, degraded with a dark cluster (R394, log entry 21). -/
def State.dieEntry (s : State) (d : Nat) : Nat :=
  let dark := s.darkClusters d
  (if (s.die d).convDark then 2 else if dark = 0 then 0 else 1) + dark * 4 + s.spareSites d * 2 ^ 9

/-- A pub field as a number. -/
def pubBits (l : List Nat) : Nat := l.foldl (fun n i => n ||| 2 ^ i) 0

/-- Dword `k` of a queue's memory record (R332). -/
def Queue.recordWord (q : Queue) (k : Nat) : Nat :=
  match k with
  | 0 => q.reserve % 2 ^ 32 * 2 ^ 32 + q.head % 2 ^ 32
  | 1 => q.progress % 2 ^ 32 * 2 ^ 32 + q.lastst % 256 * 2 ^ 24 + q.prio % 4 * 2 ^ 22 + b2n q.swapped * 2 ^ 21
  | 2 => pubBits q.pub % 2 ^ 64
  | 3 => pubBits q.pub / 2 ^ 64
  | _ => 0

/-- Base of the map area in a die scratchpad and of the page-table area above it (R308, R325). -/
def mapBase : Nat := 0x1C0_0000
def mapEnd : Nat := 0x1E0_0000

/-- Two values of 4 bytes. -/
def two32 (lo hi : Nat) : Nat := lo % 2 ^ 32 + 2 ^ 32 * (hi % 2 ^ 32)

/-- The dword at offset `o` of die `d`'s map area, where the state holds it in another form; none where the area holds
plain bytes. -/
def State.mapDword (s : State) (d o : Nat) : Option Nat :=
  let siteAt : Nat → Nat := fun i => (s.site (mkSite (136 * (d % 8) + i % 136) (64 * (d / 8) + i / 136))).entry
  let cl : Nat → Cluster := fun n => s.cluster (64 * d + n)
  if o = 0 then some s.graftGen
  else if o = 8 then some s.stateGen
  else if o < 0x40 then some (if o = 16 then s.moduleId % 1024 + d * 2 ^ 16 else 0)
  else if o < 0x60 then some ((List.range 16).foldr (fun i n => (cl (2 * (o - 0x40) + i)).attach9 % 16 + 16 * n) 0)
  else if o < 0xA0 then some (two32 (s.dieBankSite d ((o - 0x60) / 4)) (s.dieBankSite d ((o - 0x60) / 4 + 1)))
  else if o = 0xA0 then some (two32 (s.engineSite d) (Config.overflowSite d).toNat)
  else if o < 0x100 then none
  else if o < 0x300 then
    some ((List.range 8).foldr (fun w n => s.grafts.at (8 * (64 * d + (o - 0x100) / 8) + w) defaultSkip + 256 * n) 0)
  else if o < 0x400 then
    let e : Nat → Nat := fun n => s.clusterBin (64 * d + n) % 16 + (cl n).reg % 4 * 16
    some (two32 (e ((o - 0x300) / 4)) (e ((o - 0x300) / 4 + 1)))
  else if o < 0xC00 then
    some (match (s.remaps.filter fun m => siteDie m.badSite == d)[(o - 0x400) / 8]? with
      | some m => m.entry
      | none => 0)
  else if o < 0x1000 then none
  else if o < 0x9800 then some (two32 (siteAt ((o - 0x1000) / 4)) (siteAt ((o - 0x1000) / 4 + 1)))
  else if o < 0x1_0000 then none
  else if o < 0x1_0200 then some (s.dieEntry ((o - 0x1_0000) / 8))
  else if o < 0x1_0600 then some ((s.port ((o - 0x1_0200) / 16)).tableWord (o % 16 == 8))
  else if o < 0x1_0A00 then some (if o % 16 = 0 then (s.port ((o - 0x1_0600) / 16)).fibreWord else 0)
  else if d = 0 ∧ 0x18_0000 ≤ o ∧ o < 0x18_1000 then some ((s.queue ((o - 0x18_0000) / 64)).recordWord (o % 64 / 8))
  else none

/-- One byte of a die's map area. -/
def State.mapByte (s : State) (p : Place) (off : Nat) : Byte :=
  let o := off - mapBase
  match (if mapBase ≤ off ∧ off < mapEnd then s.mapDword p.owner (o / 8 * 8) else none) with
  | some w => BitVec.ofNat 8 (w / 256 ^ (o % 8))
  | none => s.mem.read { p with off : Place }.phys

/-! ### Reading and writing physical memory -/

/-- The run reaches into a die's map area. -/
def inMap (p : Place) (n : Nat) : Bool := p.space == .die && decide (mapBase < p.off + n) && decide (p.off < mapEnd)

/-- The bytes of a run of physical memory, ascending. -/
def State.readPlace (s : State) (p : Place) (n : Nat) : List Byte :=
  if inMap p n then (List.range n).map fun i => s.mapByte p (p.off + i) else s.mem.readN p.phys n

/-- Sites whose scratchpad a write to the scratchpad of site `o` also reaches: the shadow of a checked pair holds a copy
of its lead's scratchpad (R204). -/
def State.mirrors (s : State) (o : Nat) : List Nat :=
  match (s.site o).core with
  | none => []
  | some c => match (s.core c).pair with
    | some p => [p.shadow]
    | none => []

/-- Units `lo` to `hi − 1` without a run of units, as the runs that are left of one run. -/
def cutRun (lo hi : Nat) (r : Nat × Nat) : List (Nat × Nat) :=
  let last := r.1 + r.2
  (if r.1 < lo then [(r.1, (if lo < last then lo else last) - r.1)] else []) ++
  (if hi < last then [let f := if r.1 < hi then hi else r.1; (f, last - f)] else [])

/-- A store clears the poison of the 32-byte units it writes to (R367). -/
def unpoison (ps : List (Nat × Nat)) (a n : Nat) : List (Nat × Nat) :=
  if n = 0 then ps else ps.flatMap (cutRun (a / 32) ((a + n + 31) / 32))

def State.writePlace (s : State) (p : Place) (bs : List Byte) : State :=
  let s1 := { s with mem := s.mem.writeN p.phys bs, poison := unpoison s.poison p.phys bs.length }
  if p.space = .scratch then
    (s.mirrors p.owner).foldl (fun t o => { t with mem := t.mem.writeN { p with owner := o : Place }.phys bs }) s1
  else s1

/-- Some byte of the run lies in a unit that reads as an uncorrectable error (R66, R373). -/
def State.poisoned (s : State) (p : Place) (n : Nat) : Bool :=
  s.poison.any fun u => decide (p.phys < 32 * (u.1 + u.2)) && decide (32 * u.1 < p.phys + n)

/-! ### Scalar, vector and mask registers (R11, R15, R16) -/

/-- Place of a windowed register in `Ctx.win`: o registers are the i registers of the next frame (R16). -/
def winIdx (depth r : Nat) : Nat := if r < 24 then 16 * depth + (r - 8) else 16 * (depth + 1) + (r - 24)

/-- x[r] in the current window; x0 reads 0 (R15). -/
def Ctx.readX (c : Ctx) (r : Reg) : Word :=
  if r.toNat = 0 then 0
  else if r.toNat < 8 then c.glob.at r.toNat 0
  else c.win.at (winIdx c.depth r.toNat) 0

/-- Writes to x0 are ignored (R15). -/
def Ctx.writeX (c : Ctx) (r : Reg) (v : Word) : Ctx :=
  if r.toNat = 0 then c
  else if r.toNat < 8 then { c with glob := c.glob.put r.toNat v }
  else { c with win := c.win.put (winIdx c.depth r.toNat) v }

def Ctx.readV (c : Ctx) (r : Nat) : Vec := c.v.at r 0
def Ctx.writeV (c : Ctx) (r : Nat) (v : Vec) : Ctx := { c with v := c.v.put r v }

/-- x[r] of the context in focus. -/
def State.x (s : State) (r : Reg) : Word := s.me.readX r

/-- The context in focus past its instruction. -/
def Ctx.next (c : Ctx) : Ctx := { c with pc := c.pc + 4 }

/-- The instruction of the context in focus completes, writing one register. -/
def State.putX (s : State) (r : Reg) (v : Word) : State := s.setMe (s.me.writeX r v).next

/-- The instruction completes, writing nothing. -/
def State.pass (s : State) : State := s.setMe s.me.next

/-- The instruction completes, writing one vector register. -/
def State.putV (s : State) (r : Reg) (v : Vec) : State := s.setMe (s.me.writeV r.toNat v).next

/-- The context's mode; a context without an activation counts as app. -/
def Ctx.mode (c : Ctx) : Mode :=
  match c.act with
  | some a => a.mode
  | none => .app

/-! ### The event log (R203, R372) -/

/-! Event codes of R372; those of the optical ports stand with them. -/
def evChanDrop : Nat := 0x01
def evRoundLate : Nat := 0x02
def evEngineFault : Nat := 0x03
def evStreamLate : Nat := 0x04
def evCoreFault : Nat := 0x05
def evPairFault : Nat := 0x06
def evMigDone : Nat := 0x07
def evMigAbandon : Nat := 0x08
def evFwdDiscard : Nat := 0x09
def evRouteDrop : Nat := 0x0A
def evLinkDown : Nat := 0x0B
def evSyncDrop : Nat := 0x0C
def evSyncFault : Nat := 0x0D
def evPopLost : Nat := 0x0E
def evDeczUnder : Nat := 0x0F
def evXlateBad : Nat := 0x10
def evCoppiceDrop : Nat := 0x11
def evHostFault : Nat := 0x12
def evRecFault : Nat := 0x13
def evMarkerDrop : Nat := 0x14
def evRegPhase : Nat := 0x20
def evRegDark : Nat := 0x21
def evPowerWait : Nat := 0x22
def evConvFail : Nat := 0x23
def evThermHigh : Nat := 0x24
def evThermTrip : Nat := 0x25
def evSoftErr : Nat := 0x26
def evFatal : Nat := 0x27
def evStage : Nat := 0x28

/-- Nanoseconds since cold reset at the nominal 1.2 GHz (log entry 3). -/
def State.nanos (s : State) : Nat := s.now * 5 / 6

/-- Offset of a die's heartwood record in its die scratchpad (R372). -/
def recordBase : Nat := 0x1B8_0000

/-- A launch runs (R372). -/
def State.launchRuns (s : State) : Bool :=
  match s.running with
  | some r => r.cmd.kind == 2
  | none => false

/-- The event comes before the other in the log of one cycle (R372). -/
def LogEvent.before (e x : LogEvent) : Bool := decide (e.site < x.site) || (e.site == x.site && decide (e.code < x.code))

/-- The events of a cycle before a new one, and those after it (R372). -/
def splitEvents (e : LogEvent) : List LogEvent → List LogEvent × List LogEvent
  | [] => ([], [])
  | x :: t => if e.before x then ([], x :: t) else ((x :: (splitEvents e t).1), (splitEvents e t).2)

/-- Records of a die from a place and a sequence number on, each in the place of the oldest of 4,096 (R372). -/
def State.putRecords (s : State) (die : Nat) : Nat → Nat → List LogEvent → State
  | _, _, [] => s
  | p, q, e :: t =>
    (s.writePlace ⟨.die, die, recordBase + 64 * (p % 4096)⟩ (natLE 8 s.nanos ++ natLE 4 q ++ e.body)).putRecords die (p + 1) (q + 1) t

/-- Dwords are written upward from an offset of a site's DRAM region, wherever its banks lie (R310). -/
def State.putRegion (s : State) (site : Nat) : Nat → List Word → State
  | _, [] => s
  | off, w :: t => State.putRegion (s.writePlace (s.regionPlace site off) (natLE 8 w.toNat)) site (off + 8) t

/-- Log a die event: its record takes the place of the oldest of 4,096, and events of one cycle stand in ascending site, then
ascending code (R372, log entry 17). Byte 15 tells of a launch of this module (DEDUCED, log entry 123). -/
def State.log (s : State) (die code site : Nat) (core : Option Nat) (detail : Word) (bytes : List Word) : State :=
  let d := s.die die
  let e : LogEvent := ⟨site, code, natLE 2 code ++ natLE 1 die ++ natLE 1 (b2n s.launchRuns)
    ++ natLE 4 site ++ natLE 4 (core.getD 0xFFFF_FFFF) ++ natLE 8 detail.toNat
    ++ slice (bytes.flatMap fun w => natLE 8 w.toNat) 0 32⟩
  let p := splitEvents e (if d.logAt = s.now then d.logged else [])
  (s.setDie die { d with seq := d.seq + 1, place := (d.place + 1) % 4096, logAt := s.now, logged := p.1 ++ e :: p.2 }).putRecords die
    (d.place + 4096 - p.2.length % 4096) (d.seq - p.2.length) (e :: p.2)

/-- Log an event of a core in its site's die. -/
def State.logCore (s : State) (core code : Nat) (detail : Word) (bytes : List Word) : State :=
  s.log (siteDie (s.core core).site) code (s.core core).site (some core) detail bytes

/-- The four dwords of a 256-bit number. -/
def dwords4 (x : Nat) : List Word := [w64 x, w64 (x / 2 ^ 64), w64 (x / 2 ^ 128), w64 (x / 2 ^ 192)]

/-- The header as four dwords, lowest first. -/
def hdrDwords (h : Header) : List Word := dwords4 h.nat

/-! ### Streams at the end of an activation (R23) -/

/-- Unbind every stream the activation of context `ctx` bound: pushed outbound elements are still sent, arrived inbound
elements are discarded (R23). -/
def Core.unbindAll (c : Core) (ctx : Nat) : Core :=
  let mine := c.streams.filter fun p => p.2.bound && p.2.ctx == ctx
  let left := mine.filterMap fun p =>
    if p.2.outb && (!p.2.pushed.isEmpty || !p.2.inflight.isEmpty) && p.2.fault.isNone then some p.2 else none
  { c with
    streams := c.streams.mapV fun _ st => if st.bound && st.ctx == ctx then Stream.blank else st
    drains := c.drains ++ left }

/-! ### Rounds (R195–R198) -/

/-- Every staged update takes effect (R198). -/
def Core.applyStaged (c : Core) : Core :=
  { c with
    table := c.staged.foldl (fun t p => t.put p.1 { t.at p.1 .blank with const := p.2 }) c.table
    staged := [] }

/-- A marker on channel `n` meets gated tag `g`: with `d` 0 it joins the current set, with 1 the next; a set it completes takes its
number, and notes the sender of a tied one for the trace (R196, R350). -/
def Core.markSet (c : Core) (g n d seq : Nat) (tie : Option Nat) : Core :=
  let rs := c.rounds.at g .blank
  let join := (c.table.at g .blank).join
  let old := if d = 0 then rs.setCur else rs.setNext
  let new := setBit old n
  let full : Bool := new == join && old != join
  let rs' : RoundState :=
    if d = 0 then { rs with setCur := new, seqCur := if full then seq else rs.seqCur }
    else { rs with setNext := new, seqNext := if full then seq else rs.seqNext }
  let ties := match tie with
    | some p => if full && c.trace.recording then c.trace.ties ++ [p] else c.trace.ties
    | none => c.trace.ties
  { c with rounds := c.rounds.put g rs', trace := { c.trace with ties } }

/-- A held marker is classified again (R196, R197 step 4). -/
def Core.remark (c : Core) (g n r seq : Nat) (tie : Option Nat) : Core :=
  let d := (r + 65536 - (c.rounds.at g .blank).cur) % 65536
  if d ≤ 1 then c.markSet g n d seq tie
  else if d < 32768 then { c with hold := c.hold ++ [.marker g n r seq tie] }
  else c

/-- Messages enter a queue ahead of those in it: how long the new head has been eligible counts from now (R24, R192, R197). -/
def Core.pushHead (c : Core) (q : Nat) (ms : List Msg) : Core :=
  if ms.isEmpty then c else { c with queues := c.queues.put q (ms ++ c.queues.at q []), elig := c.elig.cut q }

/-- What a close does when it ends (R197). -/
def Core.closeStep (c0 : Core) (g : Nat) : Core :=
  let c := c0.applyStaged
  let rs := c.rounds.at g .blank
  let rs' : RoundState := ⟨(rs.cur + 1) % 65536, rs.setNext, 0, rs.seqNext, 0, false⟩
  let c1 := { c with rounds := c.rounds.put g rs' }
  let isG : Held → Bool := fun h => match h with
    | .data m => m.hdr.tag == g
    | .marker t _ _ _ _ => t == g
  let back := c1.hold.filter isG
  let c2 := { c1 with hold := c1.hold.filter fun h => !isG h }
  let msgs := back.filterMap fun h => match h with
    | .data m => some m
    | .marker _ _ _ _ _ => none
  let q := (c2.table.at g .blank).queue
  back.foldl (fun k h => match h with
    | .data _ => k
    | .marker _ n r seq tie => k.remark g n r seq tie) (c2.pushHead q msgs)

/-! ### Traps (R24, R199–R201) -/

/-- Top of a context's stack (R13). -/
def Core.stackTop (c : Core) (ctx : Nat) : Word := w64 (c.stackEnd - (3 - ctx) * (c.stackSize / 4))

/-- TRAPCAUSE (R92). -/
def causeWord (ctx cause : Nat) (sys : Bool) : Word := w64 (ctx * 512 + b2n sys * 256 + cause)

/-- The state a context takes at trap entry and at a system start (R200). -/
def Ctx.enterSystem (x : Ctx) (c : Core) (ctx : Nat) (cause val tpc msg : Word) (act : Activation) : Ctx :=
  { x with
    act := some act, epoch := x.epoch + 1, pc := c.trapvec &&& ~~~ 3#64, glob := [(2, c.stackTop ctx)],
    win := [(0, cause), (1, val), (2, tpc), (3, msg)], depth := 0, v := [], k := [], vrm := 0, vflags := 0,
    trapcause := cause, trapval := val, trappc := tpc, trapmsg := msg, send := [], gather := none, checks := none,
    phaseAt := none, barrier := none, waits := 0 }

/-- Give back what started an activation: a message goes to the head of its queue, held for context `ctx`; a pending
start sets its bit again (R24, R25, R191). -/
def Core.giveBack (c : Core) (ctx : Nat) (o : Origin) (tag : Option Nat) : Core :=
  match o with
  | .message m => c.pushHead m.queue [{ m with lock := some ctx }]
  | .pending => match tag with
    | some t => { c with tagpend := setBit c.tagpend t }
    | none => c
  | .close _ => c
  | .closed _ _ => c
  | .system => c

/-- The PHASE at the program counter of a context, once it has issued: its acceptance number, group and queue mask (R301). -/
def Ctx.phaseNow (x : Ctx) : Option (Nat × Nat × BitVec 3) :=
  match x.phaseAt with
  | some (pc, n) => if pc = x.pc then some n else none
  | none => none

/-- The activation of a context is aborted: the arrival of a PHASE it has issued stands, to be made when what it waits for is done
(R276, R277). -/
def Core.standPhase (c : Core) (ctx : Nat) (x : Ctx) : Core :=
  match x.phaseNow with
  | some (n, g, m) => { c with standing := c.standing ++ [⟨ctx, x.epoch, n, g, m⟩] }
  | none => c

/-- In a checked pair, an activation that is aborted meets no mismatch any more (R25, R205). -/
def Core.endTwin (c : Core) (ctx epoch : Nat) : Core :=
  { c with pair := c.pair.map fun p => { p with spent := p.spent ++ [(ctx, epoch)] } }

/-- The message a trap context holds leaves its queue (R79, R201). -/
def Core.dropHeld (c : Core) (ctx : Nat) : Core :=
  { c with queues := c.queues.mapV fun _ ms => ms.filter fun m => m.lock != some ctx }

/-- The message a trap context holds is released for a fresh activation (R79). -/
def Core.releaseHeld (c : Core) (ctx : Nat) : Core :=
  { c with queues := c.queues.mapV fun _ ms => ms.map fun m =>
      if m.lock = some ctx then { m with lock := none, replayed := true } else m }

/-- What a trap context holds is released for a replay: its message, or its close, which starts again as a replay (R79,
R197). A pending start needs nothing: its bit is set already (R191). -/
def Core.release (c : Core) (ctx : Nat) (a : Activation) : Core :=
  match a.origin, a.tag with
  | .message _, _ => c.releaseHeld ctx
  | .close _, some t => { c with rounds := c.rounds.put t { c.rounds.at t .blank with again := true } }
  | .closed seq round, some t => { c with reclose := c.reclose ++ [(t, seq, round)] }
  | _, _ => c

/-- Discard what a trap context holds: its message, its pending start, its close (R79, R191, R197). A core fault does the same:
that the close step of a close it held is then performed is the model's choice (log entry 93). -/
def Core.discardHeld (c : Core) (ctx : Nat) (a : Activation) : Core :=
  match a.origin, a.tag with
  | .message _, _ => c.dropHeld ctx
  | .pending, some t => { c with tagpend := clrBit c.tagpend t }
  | .close _, some t => c.closeStep t
  | _, _ => c

/-- The context becomes free (R201). -/
def Ctx.freed (x : Ctx) : Ctx :=
  { x with
    act := none, epoch := x.epoch + 1, send := [], gather := none, checks := none, phaseAt := none, barrier := none,
    waits := 0, left := none }

/-- DONE or TRET ends the activation at a clock: the context is free, and what it ran has ended, from the next cycle on (R22,
R79). -/
def Ctx.leave (x : Ctx) (now : Nat) : Ctx :=
  { x.freed with left := x.act.map fun a => (now, a.tag) }

/-- A trap in app mode: the abort of R24 and the trap entry of R200. -/
def State.abortInto (s : State) (core ctx : Nat) (a : Activation) (cause : Nat) (val tpc : Word) : State :=
  let x := s.ctx core ctx
  let c := (((s.core core).unbindAll ctx).endTwin ctx x.epoch).standPhase ctx x
  let c' := c.giveBack ctx a.origin a.tag
  (s.setCore core c').setCtx core ctx
    (x.enterSystem c' ctx (causeWord ctx cause false) val tpc x.actmsg { a with mode := .system, begun := s.now + 8, issued := false })

/-- ACTMSG (R84). -/
def actmsgWord (m : Msg) : Word := w64 (m.queue * 2 ^ 42 + b2n m.ovf * 2 ^ 41 + b2n m.replayed * 2 ^ 40 + m.seq % 2 ^ 32)

/-- A trap in system mode: the core fault of R201. -/
def State.coreFault (s : State) (core ctx : Nat) (a : Activation) (cause : Nat) (val tpc : Word) : State :=
  let x := s.ctx core ctx
  let cw := causeWord ctx cause true
  let held : Word := match a.origin with
    | .message m => actmsgWord m
    | _ => 0
  let s1 := s.logCore core evCoreFault held [x.trapcause, x.trapval, cw, val]
  let c := ((((s1.core core).discardHeld ctx a).unbindAll ctx).endTwin ctx x.epoch).standPhase ctx x
  (s1.setCore core c).setCtx core ctx
    { x.freed with trapcause := cw, trapval := val, trappc := tpc, trapmsg := 0 }

/-- Taking an exception: an activation in app mode is aborted and enters system mode at the trap vector, one in system
mode is a core fault (R24, R27, R200, R201). A context with no activation takes none. -/
def State.trap (s : State) (core ctx cause : Nat) (val tpc : Word) : State :=
  match (s.ctx core ctx).act with
  | none => s
  | some a =>
    match a.mode with
    | .app => s.abortInto core ctx a cause val tpc
    | .system => s.coreFault core ctx a cause val tpc

/-- Returning from an exception (R79): the held message, pending start or close is released for a replay or discarded,
and the context is free from the next cycle on. -/
def State.trapReturn (s : State) (core ctx : Nat) (replay : Bool) : State :=
  match (s.ctx core ctx).act with
  | none => s
  | some a =>
    let c := s.core core
    let c' := if replay then c.release ctx a else c.discardHeld ctx a
    (s.setCore core (c'.unbindAll ctx)).setCtx core ctx ((s.ctx core ctx).leave s.now)

/-! ### Outcomes of an instruction -/

/-- How an instruction of the context in focus ends: it completes in a state, it stalls (possibly in a changed state, for
example with a walk started), or it traps. -/
inductive Act where
  | go (s : State)
  | stall (s : State)
  | trap (s : State) (cause : Nat) (val : Word)

/-- The outcome of an instruction of the context in focus. -/
def Act.out : Act → Host.Outcome State Fault Refusal
  | .go s => .next s
  | .stall s => .next s
  | .trap s cause val => .next (s.trap s.focus.core s.focus.ctx cause val s.me.pc)

/-- The trap of an instruction of the context in focus, with its own address in TRAPPC. -/
def State.trapOut (s : State) (cause : Nat) (val : Word) : Host.Outcome State Fault Refusal :=
  .next (s.trap s.focus.core s.focus.ctx cause val s.me.pc)

/-! Trap causes of R199. -/
def cIllegal : Nat := 0x01
def cMisaligned : Nat := 0x02
def cAccess : Nat := 0x03
def cPage : Nat := 0x04
def cUncorrectable : Nat := 0x05
def cSync : Nat := 0x06
def cStream : Nat := 0x07
def cRouteMiss : Nat := 0x08
def cRouteFault : Nat := 0x09
def cWinovf : Nat := 0x0A
def cSendovf : Nat := 0x0B
def cGroup : Nat := 0x0C
def cPair : Nat := 0x0D
def cEcall : Nat := 0x0E
def cEbreak : Nat := 0x0F
def cActtime : Nat := 0x10
def cManagement : Nat := 0x20
def cMoved : Nat := 0x21

/-- The word an instruction was fetched as, for TRAPVAL of the illegal-instruction trap (R199). -/
def wordOf (i : Instr) : Word := match encode i with
  | some w => w.setWidth 64
  | none => 0

end Sys2Proof.Machine
end

