-- ==== Sys2Proof/Machine/Flags.lean ====
section
/-! DEFINITION. Number formats, exact values, rounding and the floating-point flags (R113–R119), with the arithmetic every
vector instruction, AMO fadd and MXOUT uses. -/

namespace Sys2Proof.Machine

/-! ### Formats (R113, R116) -/

/-- How a format treats its top codes (R113). -/
inductive Top where
  | ieee    -- infinities and NaNs where E is all ones
  | oneNan  -- E4M3: one NaN code, no infinity
  | finite  -- every code is a number
  deriving DecidableEq, Repr

/-- A floating-point format: exponent bits, fraction bits, bias. -/
structure Fmt where
  ebits : Nat
  mbits : Nat
  bias  : Nat
  top   : Top
  deriving DecidableEq, Repr

def fmtF64 : Fmt := ⟨11, 52, 1023, .ieee⟩
def fmtF32 : Fmt := ⟨8, 23, 127, .ieee⟩
def fmtF16 : Fmt := ⟨5, 10, 15, .ieee⟩
def fmtBF16 : Fmt := ⟨8, 7, 127, .ieee⟩
def fmtE5M2 : Fmt := ⟨5, 2, 15, .ieee⟩
def fmtE4M3 : Fmt := ⟨4, 3, 7, .oneNan⟩
def fmtE3M2 : Fmt := ⟨3, 2, 3, .finite⟩
def fmtE2M3 : Fmt := ⟨2, 3, 1, .finite⟩
def fmtE2M1 : Fmt := ⟨2, 1, 1, .finite⟩

/-- Bits of a code. -/
def Fmt.width (f : Fmt) : Nat := 1 + f.ebits + f.mbits

/-- Magnitude code of the largest finite value. -/
def Fmt.maxCode (f : Fmt) : Nat :=
  match f.top with
  | .ieee => (2 ^ f.ebits - 1) * 2 ^ f.mbits - 1
  | .oneNan => 2 ^ (f.ebits + f.mbits) - 2
  | .finite => 2 ^ (f.ebits + f.mbits) - 1

/-- Magnitude code of infinity in a format that has one. -/
def Fmt.infCode (f : Fmt) : Nat := (2 ^ f.ebits - 1) * 2 ^ f.mbits

/-- The canonical NaN (R114); E3M2 and E2M3 have none. -/
def Fmt.nanCode (f : Fmt) : Nat :=
  match f.top with
  | .ieee => f.infCode + 2 ^ (f.mbits - 1)
  | .oneNan => 2 ^ (f.ebits + f.mbits) - 1
  | .finite => 0

/-- Sign bit of a code. -/
def Fmt.signed (f : Fmt) (neg : Bool) (mag : Nat) : Nat := (if neg then 2 ^ (f.ebits + f.mbits) else 0) + mag

/-- A value: a NaN, an infinity, or the exact real ± m · 2^e with the sign of a zero kept. -/
inductive FVal where
  | nan (signalling : Bool)
  | inf (neg : Bool)
  | fin (neg : Bool) (m : Nat) (e : Int)
  deriving DecidableEq, Repr

/-- The value of a code (R113, R114). -/
def Fmt.value (f : Fmt) (code : Nat) : FVal :=
  let neg := bit code (f.ebits + f.mbits)
  let ex := bits code (f.ebits + f.mbits - 1) f.mbits
  let m := code % 2 ^ f.mbits
  let mag := code % 2 ^ (f.ebits + f.mbits)
  if f.top = .ieee ∧ ex = 2 ^ f.ebits - 1 then
    if m = 0 then .inf neg else .nan (!bit m (f.mbits - 1))
  else if f.top = .oneNan ∧ mag = 2 ^ (f.ebits + f.mbits) - 1 then .nan false
  else if ex = 0 then .fin neg m (1 - (f.bias : Int) - f.mbits)
  else .fin neg (2 ^ f.mbits + m) ((ex : Int) - f.bias - f.mbits)

/-! ### Flags (R83, R118) -/

def fNV : Nat := 16
def fDZ : Nat := 8
def fOF : Nat := 4
def fUF : Nat := 2
def fNX : Nat := 1

/-- Rounding modes of VRM (R82). -/
inductive RMode where
  | rne | rtz | rup | rdn
  deriving DecidableEq, Repr

def RMode.of (vrm : Word) : RMode :=
  match vrm.toNat % 4 with
  | 0 => .rne | 1 => .rtz | 2 => .rup | _ => .rdn

/-- Number of bits of a natural, with fuel for its length. -/
def bitLen (m : Nat) : Nat := if m = 0 then 0 else Nat.log2 m + 1

/-- Whether a magnitude n + r is rounded up, where r compares with one half: 0 exact, 1 below, 2 a tie, 3 above. -/
def RMode.up (mode : RMode) (neg odd : Bool) (cmp : Nat) : Bool :=
  match mode with
  | .rne => cmp == 3 || (cmp == 2 && odd)
  | .rtz => false
  | .rup => !neg && cmp != 0
  | .rdn => neg && cmp != 0

/-- Round m · 2^e (plus something below one unit of m when `sticky`) to a whole number of 2^q: the count and how the rest
compared with one half. -/
def quantum (mode : RMode) (neg : Bool) (m : Nat) (e q : Int) (sticky : Bool) : Nat × Bool :=
  if q ≤ e then
    let n := m <<< (e - q).toNat
    let c := if sticky then 1 else 0
    (n + (if mode.up neg (n % 2 == 1) c then 1 else 0), sticky)
  else
    let d := (q - e).toNat
    if d > bitLen m + 2 then
      let c := if m = 0 && !sticky then 0 else 1
      ((if mode.up neg false c then 1 else 0), c != 0)
    else
      let n := m >>> d
      let r := m % 2 ^ d
      let h := 2 ^ (d - 1)
      let c := if r = 0 && !sticky then 0 else if r < h then 1 else if r = h && !sticky then 2 else 3
      (n + (if mode.up neg (n % 2 == 1) c then 1 else 0), c != 0)

/-- A rounded result: its code and the flags it raises. -/
structure FRes where
  code  : Nat
  flags : Nat
  deriving DecidableEq, Repr

/-- round(x, fmt, mode) of a non-zero finite x (R117, R118). -/
def Fmt.roundFin (f : Fmt) (mode : RMode) (neg : Bool) (m : Nat) (e : Int) (sticky : Bool) : FRes :=
  let emin : Int := 1 - (f.bias : Int)
  let lead : Int := e + bitLen m - 1
  let ex := if lead < emin then emin else lead
  let q := ex - f.mbits
  let (n, inexact) := quantum mode neg m e q sticky
  let toobig : FRes :=
    match f.top with
    | .ieee =>
      let toInf := match mode with
        | .rne => true | .rtz => false | .rup => !neg | .rdn => neg
      ⟨f.signed neg (if toInf then f.infCode else f.maxCode), fOF + fNX⟩
    | .oneNan => ⟨f.signed neg f.maxCode, fOF + fNX⟩
    | .finite => ⟨f.signed neg f.maxCode, fOF + fNX⟩
  -- (ex + bias − 1) · 2^M + n is the magnitude code, carries included
  let top : Int := ex + f.bias - 1
  if top > 2 ^ f.ebits then toobig
  else
    let code := top.toNat * 2 ^ f.mbits + n
    if code > f.maxCode then toobig
    else
      let tiny := n != 0 && decide (code < 2 ^ f.mbits)
      ⟨f.signed neg code, (if inexact then fNX else 0) + (if inexact && tiny then fUF else 0)⟩

/-- round(x, fmt, mode) for every x (R117). -/
def Fmt.round (f : Fmt) (mode : RMode) (v : FVal) : FRes :=
  match v with
  | .nan sig => ⟨f.nanCode, if sig || f.top == .finite then fNV else 0⟩
  | .inf neg =>
    match f.top with
    | .ieee => ⟨f.signed neg f.infCode, 0⟩
    | .oneNan => ⟨f.signed neg f.maxCode, fNV⟩
    | .finite => ⟨f.signed neg f.maxCode, fNV⟩
  | .fin neg m e => if m = 0 then ⟨f.signed neg 0, 0⟩ else f.roundFin mode neg m e false

/-- Conversion to an integer range lo..hi (R117): the integer, with its flags. -/
def roundInt (lo hi : Int) (mode : RMode) (v : FVal) : Int × Nat :=
  match v with
  | .nan _ => (0, fNV)
  | .inf neg => (if neg then lo else hi, fNV)
  | .fin neg m e =>
    let (n, inexact) := quantum mode neg m e 0 false
    let i : Int := if neg then -(n : Int) else n
    if i < lo then (lo, fNV) else if i > hi then (hi, fNV)
    else (i, if inexact then fNX else 0)

/-! ### Exact arithmetic -/

/-- The exact value of an integer. -/
def FVal.ofInt (i : Int) : FVal := .fin (decide (i < 0)) i.natAbs 0

/-- m · 2^e as a signed integer multiple of 2^q, q ≤ e. -/
def scaled (neg : Bool) (m : Nat) (e q : Int) : Int :=
  let n : Int := ((m <<< (e - q).toNat : Nat) : Int)
  if neg then -n else n

/-- Product (R132): the exact product, and NV for 0 × ∞. -/
def FVal.mul (a b : FVal) : FVal × Nat :=
  match a, b with
  | .nan s, .nan t => (.nan false, if s || t then fNV else 0)
  | .nan s, _ => (.nan false, if s then fNV else 0)
  | _, .nan t => (.nan false, if t then fNV else 0)
  | .inf s, .inf t => (.inf (s != t), 0)
  | .inf s, .fin t m _ => if m = 0 then (.nan false, fNV) else (.inf (s != t), 0)
  | .fin s m _, .inf t => if m = 0 then (.nan false, fNV) else (.inf (s != t), 0)
  | .fin s m e, .fin t n f => (.fin (s != t) (m * n) (e + f), 0)

def FVal.isNan : FVal → Bool
  | .nan _ => true
  | .inf _ => false
  | .fin _ _ _ => false
def FVal.isSig : FVal → Bool
  | .nan s => s
  | .inf _ => false
  | .fin _ _ _ => false
def FVal.isInf (neg : Bool) : FVal → Bool
  | .nan _ => false
  | .inf s => s == neg
  | .fin _ _ _ => false
def FVal.neg : FVal → FVal
  | .nan s => .nan s
  | .inf s => .inf (!s)
  | .fin s m e => .fin (!s) m e
/-- Sign of a value that is not a NaN. -/
def FVal.sign : FVal → Bool
  | .nan _ => false
  | .inf s => s
  | .fin s _ _ => s

/-- Least exponent among finite terms. -/
def leastExp : List FVal → Int → Int
  | [], q => q
  | .fin _ _ e :: t, q => leastExp t (if e < q then e else q)
  | .nan _ :: t, q => leastExp t q
  | .inf _ :: t, q => leastExp t q

/-- Exact sum of finite terms as a multiple of 2^q. -/
def sumScaled (q : Int) : List FVal → Int
  | [] => 0
  | .fin s m e :: t => scaled s m e q + sumScaled q t
  | .nan _ :: t => sumScaled q t
  | .inf _ :: t => sumScaled q t

/-- The exact sum of terms (R118, R132, R138): opposite infinities and signalling NaNs set NV; the sign of an exact zero
is that of the terms when they agree, else − only under RDN. A quiet NaN goes before opposite infinities and sets no flag
(DESIGN CHOICE, log entry 89). -/
def sumTerms (mode : RMode) (ts : List FVal) : FVal × Nat :=
  if ts.any FVal.isNan then (.nan false, if ts.any FVal.isSig then fNV else 0)
  else if ts.any (FVal.isInf true) && ts.any (FVal.isInf false) then (.nan false, fNV)
  else if ts.any (FVal.isInf true) then (.inf true, 0)
  else if ts.any (FVal.isInf false) then (.inf false, 0)
  else
    let q := leastExp ts 0
    let i := sumScaled q ts
    if i = 0 then
      let s := if ts.all FVal.sign then true else if ts.all fun t => !t.sign then false else mode == .rdn
      (.fin s 0 0, 0)
    else (.fin (decide (i < 0)) i.natAbs q, 0)

/-- A result with more flags. -/
def FRes.add (r : FRes) (fl : Nat) : FRes := ⟨r.code, r.flags ||| fl⟩

/-- IEEE addition, rounded once. -/
def Fmt.add (f : Fmt) (mode : RMode) (a b : Nat) : FRes :=
  let (v, fl) := sumTerms mode [f.value a, f.value b]
  (f.round mode v).add fl

def Fmt.sub (f : Fmt) (mode : RMode) (a b : Nat) : FRes :=
  let (v, fl) := sumTerms mode [f.value a, (f.value b).neg]
  (f.round mode v).add fl

def Fmt.mul (f : Fmt) (mode : RMode) (a b : Nat) : FRes :=
  let (v, fl) := (f.value a).mul (f.value b)
  (f.round mode v).add fl

/-- round(±(a·b) ± c) with one rounding (R132). -/
def Fmt.fma (f : Fmt) (mode : RMode) (negP negC : Bool) (a b c : Nat) : FRes :=
  let (p, fl) := (f.value a).mul (f.value b)
  let p' := if negP then p.neg else p
  let cv := f.value c
  let c' := if negC then cv.neg else cv
  let (v, fl2) := sumTerms mode [p', c']
  (f.round mode v).add (fl ||| fl2 ||| (if cv.isSig then fNV else 0))

/-- Order of two numbers that are not NaNs: −1, 0, 1 with −0 equal to +0. -/
def FVal.cmp (a b : FVal) : Int :=
  match a, b with
  | .inf s, .inf t => if s = t then 0 else if s then -1 else 1
  | .inf s, _ => if s then -1 else 1
  | _, .inf t => if t then 1 else -1
  | .fin s m e, .fin t n f =>
    let q := if e < f then e else f
    let x := scaled s m e q
    let y := scaled t n f q
    if x < y then -1 else if x = y then 0 else 1
  | _, _ => 0

/-- minimumNumber and maximumNumber of R131. -/
def Fmt.minmax (f : Fmt) (isMax : Bool) (a b : Nat) : FRes :=
  let va := f.value a
  let vb := f.value b
  let fl := if va.isSig || vb.isSig then fNV else 0
  if va.isNan && vb.isNan then ⟨f.nanCode, fl⟩
  else if va.isNan then ⟨b, fl⟩
  else if vb.isNan then ⟨a, fl⟩
  else
    let c := va.cmp vb
    let aLess := decide (c < 0) || (c == 0 && va.sign && !vb.sign)
    ⟨if aLess != isMax then a else b, fl⟩

/-- Floating-point comparison (R133). -/
def Fmt.compare (f : Fmt) (cond : CmpCond) (a b : Nat) : Bool × Nat :=
  let va := f.value a
  let vb := f.value b
  let nan := va.isNan || vb.isNan
  let sig := va.isSig || vb.isSig
  let c := va.cmp vb
  match cond with
  | .eq => (!nan && c == 0, if sig then fNV else 0)
  | .ne => (nan || c != 0, if sig then fNV else 0)
  | .lt => (!nan && decide (c < 0), if nan then fNV else 0)
  | .le => (!nan && decide (c ≤ 0), if nan then fNV else 0)

/-- Newton's iteration for the integer square root, from above. -/
def isqrtFrom (n : Nat) : Nat → Nat → Nat
  | 0, x => x
  | k + 1, x =>
    let y := (x + n / x) / 2
    if y ≥ x then x else isqrtFrom n k y

/-- floor(√n). -/
def isqrt (n : Nat) : Nat := if n = 0 then 0 else isqrtFrom n (bitLen n + 8) (2 ^ ((bitLen n + 1) / 2))

/-- VABS and VNEG (R135): NaNs give the canonical NaN. -/
def Fmt.absneg (f : Fmt) (isNeg : Bool) (a : Nat) : FRes :=
  match f.value a with
  | .nan s => ⟨f.nanCode, if s then fNV else 0⟩
  | .inf s => ⟨f.signed (isNeg && !s) f.infCode, 0⟩
  | .fin s _ _ => ⟨f.signed (isNeg && !s) (a % 2 ^ (f.ebits + f.mbits)), 0⟩

/-- VRCP (R135). -/
def Fmt.rcp (f : Fmt) (mode : RMode) (a : Nat) : FRes :=
  match f.value a with
  | .nan s => ⟨f.nanCode, if s then fNV else 0⟩
  | .inf s => ⟨f.signed s 0, 0⟩
  | .fin s m e =>
    if m = 0 then ⟨f.signed s f.infCode, fDZ⟩
    else
      let k := bitLen m + f.mbits + 3
      f.roundFin mode s (2 ^ k / m) (-e - k) (2 ^ k % m != 0)

/-- VSQRT (R135). -/
def Fmt.sqrt (f : Fmt) (mode : RMode) (a : Nat) : FRes :=
  match f.value a with
  | .nan s => ⟨f.nanCode, if s then fNV else 0⟩
  | .inf s => if s then ⟨f.nanCode, fNV⟩ else ⟨f.infCode, 0⟩
  | .fin s m e =>
    if m = 0 then ⟨f.signed s 0, 0⟩
    else if s then ⟨f.nanCode, fNV⟩
    else
      let sh := 2 * (f.mbits + 3) + (if e % 2 = 0 then 0 else 1)
      let n := m * 2 ^ sh
      let r := isqrt n
      f.roundFin mode false r ((e - sh) / 2) (r * r != n)

/-- VRSQ by its reference algorithm (R136). -/
def Fmt.rsq (f : Fmt) (a : Nat) : FRes :=
  match f.value a with
  | .nan s => ⟨f.nanCode, if s then fNV else 0⟩
  | .inf s => if s then ⟨f.nanCode, fNV⟩ else ⟨0, 0⟩
  | .fin s m e =>
    if m = 0 then ⟨f.signed s f.infCode, fDZ⟩
    else if s then ⟨f.nanCode, fNV⟩
    else
      -- m · 2^e = S · 2^(−t) · 4^k with 1 ≤ S · 2^(−t) < 4
      let lead := e + bitLen m - 1
      let k := lead / 2
      let t : Int := 2 * k - e
      -- s = m · 2^(−t); 2^80 / s = 2^(80 + t) / m
      let y := if 80 + t < 0 then 0 else isqrt (2 ^ (80 + t).toNat / m)
      let one : Bool := if t < 0 then false else m == 2 ^ t.toNat
      let r := f.roundFin .rne false y (-40 - k) false
      ⟨r.code, if one then 0 else fNX⟩

/-- floor(2^(T / 2^32) · 2^P) for the 32 bits of T, lowest first: each bit halves the exponent so far. -/
def exp2Frac (p : Nat) : Nat → Nat → Nat → Nat
  | 0, _, r => r
  | n + 1, t, r => exp2Frac p n (t / 2) (isqrt ((if t % 2 = 1 then 2 * r else r) * 2 ^ p))

/-- VEXP2 by its reference algorithm (R136). -/
def Fmt.exp2 (f : Fmt) (a : Nat) : FRes :=
  match f.value a with
  | .nan s => ⟨f.nanCode, if s then fNV else 0⟩
  | .inf s => if s then ⟨0, 0⟩ else ⟨f.infCode, 0⟩
  | .fin s m e =>
    -- n = floor(x), T = floor((x − n) · 2^32), whole: x is an integer
    let xs : Int := if s then -(m : Int) else m
    let (n, frac, whole) : Int × Nat × Bool :=
      if e ≥ 0 then (xs * 2 ^ e.toNat, 0, true)
      else
        let d := (-e).toNat
        let n := xs / 2 ^ d
        let r := (xs % 2 ^ d).toNat
        (n, r * 2 ^ 32 / 2 ^ d, r == 0)
    let y := exp2Frac 160 32 frac (2 ^ 160) / 2 ^ 120
    let r := f.roundFin .rne false y (n - 40) false
    let tiny := decide (r.code < 2 ^ f.mbits) && r.code != 0
    if whole then r
    else ⟨r.code, (r.flags &&& fOF) ||| fNX ||| (if tiny then fUF else 0)⟩

end Sys2Proof.Machine
end

