-- ==== Sys2Proof/Machine/Operands.lean ====
section
/-! DEFINITION. Operand forms: immediates (R36), vector elements and predicates (R127, R128), packed codes (R124), element
types and formats as operands (R45, R48, R125), and the CSR map (R80–R93, R155–R158). -/

namespace Sys2Proof.Machine

/-! ### Immediates (R36, R60) -/

/-- The sign-extended 12-bit immediate. -/
def imm12 (i : BitVec 12) : Word := i.signExtend 64

/-- LUI and AUIPC: imm[31:12] × 4,096, sign-extended. -/
def imm20 (i : BitVec 20) : Word := (i.signExtend 64) <<< 12

/-- Branch offset in bytes: the field holds imm[12:1]. -/
def immB (i : BitVec 12) : Word := (i.signExtend 64) <<< 1

/-- JAL offset in bytes: the field holds imm[20:1]. -/
def immJ (i : BitVec 20) : Word := (i.signExtend 64) <<< 1

/-- Sign extension of a 32-bit result (R60, W forms). -/
def sext32 (x : BitVec 32) : Word := x.signExtend 64

/-- Low 32 bits. -/
def low32 (x : Word) : BitVec 32 := x.setWidth 32

/-! ### Vector elements (R127) -/

/-- Element `i` of width `w` as a number. -/
def lane (v : Vec) (w i : Nat) : Nat := bits v.toNat (w * (i + 1) - 1) (w * i)

/-- Elements of width `w`, lowest first, as one number. -/
def packLanes (w : Nat) : List Nat → Nat
  | [] => 0
  | x :: t => x % 2 ^ w + 2 ^ w * packLanes w t

def vecOf (w : Nat) (xs : List Nat) : Vec := BitVec.ofNat 256 (packLanes w xs)

/-- Mask register; k0 reads as all ones (R127). -/
def Ctx.readK (c : Ctx) (k : BitVec 3) : Nat := if k = 0#3 then 0xFFFF_FFFF else (c.k.at k.toNat 0).toNat

/-- Writing k0 has no encoding; it is never written (R127). -/
def Ctx.writeK (c : Ctx) (k : BitVec 3) (v : Nat) : Ctx :=
  if k = 0#3 then c else { c with k := c.k.put k.toNat (BitVec.ofNat 32 v) }

def orFlags : List FRes → Nat
  | [] => 0
  | r :: t => r.flags ||| orFlags t

/-- `n` elements of width `w`: the active ones from `f`, the others kept (R128). -/
def mapLanes (w n k : Nat) (old : Vec) (f : Nat → FRes) : Vec × Nat :=
  let rs := (List.range n).map fun i => if bit k i then f i else ⟨lane old w i, 0⟩
  (vecOf w (rs.map FRes.code), orFlags rs)

/-- Floating-point format of an element type. -/
def etFmt : ElemTy → Option Fmt
  | .f32 => some fmtF32 | .bf16 => some fmtBF16 | .f16 => some fmtF16 | .f64 => some fmtF64
  | .i32 => none | .i16 => none | .i8 => none | .i64 => none

/-- An integer element read as two's complement. -/
def slane (v : Vec) (w i : Nat) : Int := sextNat (lane v w i) w

/-- An integer result, wrapped; no flag (R130). -/
def intRes (w : Nat) (i : Int) : FRes := ⟨wrapInt i w, 0⟩

/-- The vector instruction completes: result in vd, flags added to VFLAGS (R83). -/
def State.vdone (s : State) (d : Reg) (r : Vec × Nat) : State :=
  let c := s.me
  s.setMe ({ c.writeV d.toNat r.1 with vflags := c.vflags ||| w64 r.2 }).next

/-! ### Formats as operands (R48, R125, R140) -/

/-- A format a VCVT names: a floating-point one, or an integer of a width with or without sign. -/
inductive NumFmt where
  | fp (f : Fmt)
  | int (w : Nat) (signed : Bool)
  deriving DecidableEq, Repr

/-- The format of a VCVT code (R48); codes 13 to 15 name none and stand for UINT8 here, no word decodes to them. -/
def cvtFmt (code : Nat) : NumFmt :=
  match code with
  | 0 => .fp fmtF32 | 1 => .fp fmtBF16 | 2 => .fp fmtF16 | 3 => .fp fmtF64
  | 4 => .int 32 true | 5 => .int 16 true | 6 => .int 8 true | 7 => .int 64 true
  | 8 => .fp fmtE4M3 | 9 => .fp fmtE5M2 | 10 => .fp fmtE2M3 | 11 => .fp fmtE3M2
  | _ => .int 8 false

def NumFmt.width : NumFmt → Nat
  | .fp f => f.width
  | .int w _ => w

/-- Elements a register holds: 32 for the 6-bit formats, packed in bits [191:0] (R140). -/
def NumFmt.count (n : NumFmt) : Nat := if n.width = 6 then 32 else 256 / n.width

/-- The value of an element. -/
def NumFmt.value (n : NumFmt) (code : Nat) : FVal :=
  match n with
  | .fp f => f.value code
  | .int w true => .ofInt (sextNat code w)
  | .int w false => .ofInt ((code % 2 ^ w : Nat) : Int)

/-- round(x, dst, mode) for any target (R117). -/
def NumFmt.round (n : NumFmt) (mode : RMode) (v : FVal) : FRes :=
  match n with
  | .fp f => f.round mode v
  | .int w true =>
    let r := roundInt (-(2 : Int) ^ (w - 1)) ((2 : Int) ^ (w - 1) - 1) mode v
    ⟨wrapInt r.1 w, r.2⟩
  | .int w false =>
    let r := roundInt 0 ((2 : Int) ^ w - 1) mode v
    ⟨wrapInt r.1 w, r.2⟩

/-! ### Packed codes (R124) -/

/-- Element `k` of width 4, 6 or a whole number of bytes, from bytes. -/
def unpackCode (w : Nat) (bs : List Byte) (k : Nat) : Nat :=
  if w = 4 then
    let b := (bs.getD (k / 2) 0).toNat
    if k % 2 = 0 then b % 16 else b / 16
  else if w = 6 then
    let q := k / 4
    let v := leNat (slice bs (3 * q) 3)
    bits v (6 * (k % 4) + 5) (6 * (k % 4))
  else leNat (slice bs (k * (w / 8)) (w / 8))

/-- A vector as its 32 bytes, lowest address first, and back (R124). -/
def vecBytes (v : Vec) : List Byte := natLE 32 v.toNat
def bytesVec (bs : List Byte) : Vec := BitVec.ofNat 256 (leNat bs)

/-! ### Control and status registers -/

/-- A CSR of the map (R80, R155). -/
inductive Csr where
  | vrm | vflags | mxfmta | mxfmtb | mxsca | mxscb | mxflags | qstat | qerrm | qerrc0 | qerrc1
  | actmsg | acttag | actround | actchan | actsrc | winp | grp | tagen | tagpend
  | trapcause | trapval | trappc | trapmsg | trapvec | ageb | actlim | chdrop
  deriving DecidableEq, Repr

/-- The CSR an address names, if any (R80, R155). -/
def csrOf (a : Nat) : Option Csr :=
  match a with
  | 0x800 => some .vrm | 0x801 => some .vflags | 0x802 => some .mxfmta | 0x803 => some .mxfmtb
  | 0x804 => some .mxsca | 0x805 => some .mxscb | 0x806 => some .mxflags | 0x807 => some .qstat
  | 0x808 => some .qerrm | 0x809 => some .qerrc0 | 0x80A => some .qerrc1
  | 0xCC0 => some .actmsg | 0xCC1 => some .acttag | 0xCC2 => some .actround | 0xCC3 => some .actchan
  | 0xCC4 => some .actsrc | 0xCC5 => some .winp | 0xCC6 => some .grp | 0xCC7 => some .tagen
  | 0xCC8 => some .tagpend
  | 0x7C0 => some .trapcause | 0x7C1 => some .trapval | 0x7C2 => some .trappc | 0x7C3 => some .trapmsg
  | 0x7C4 => some .trapvec | 0x7C5 => some .ageb | 0x7C6 => some .actlim | 0x7C7 => some .chdrop
  | _ => none

/-- Addresses 0x7C0 to 0x7FF exist only in system mode (R80). -/
def csrSystem (a : Nat) : Bool := decide (0x7C0 ≤ a) && decide (a ≤ 0x7FF)

/-- Addresses 0xCC0 to 0xCFF are read-only (R80). -/
def csrReadOnly (a : Nat) : Bool := decide (0xCC0 ≤ a) && decide (a ≤ 0xCFF)

/-- WINP (R89). -/
def winpWord (depth : Nat) : Word := w64 ((depth - 5) * 16 + depth)

/-- The value a CSR reads as (R80–R93, R155–R158). -/
def csrRead (c : Core) (x : Ctx) : Csr → Word
  | .vrm => x.vrm | .vflags => x.vflags
  | .mxfmta => c.mxfmta | .mxfmtb => c.mxfmtb | .mxsca => c.mxsca | .mxscb => c.mxscb | .mxflags => c.mxflags
  | .qstat => c.qstat | .qerrm => c.qerrm | .qerrc0 => c.qerrc0 | .qerrc1 => c.qerrc1
  | .actmsg => x.actmsg | .acttag => x.acttag | .actround => x.actround | .actchan => x.actchan | .actsrc => x.actsrc
  | .winp => winpWord x.depth | .grp => c.grp | .tagen => c.tagen | .tagpend => c.tagpend
  | .trapcause => x.trapcause | .trapval => x.trapval | .trappc => x.trappc | .trapmsg => x.trapmsg
  | .trapvec => c.trapvec | .ageb => c.ageb | .actlim => c.actlim | .chdrop => c.chdrop

/-- A code R199 lists for TRAPCAUSE.cause; the field ignores a write of another value (R6). -/
def causeListed (k : Nat) : Bool := (decide (1 ≤ k) && decide (k ≤ 16)) || k == 0x20 || k == 0x21

/-- A write alters only the writable fields (R7, R62, R82–R93, R156–R158). A reserved value of rows, klen, fmt or n is stored, and
the command that uses it is rejected (DEDUCED, log entry 100). -/
def csrWrite (c : Core) (x : Ctx) (r : Csr) (v : Word) : Core × Ctx :=
  match r with
  | .vrm => (c, { x with vrm := v &&& 3#64 })
  | .vflags => (c, { x with vflags := v &&& 31#64 })
  | .mxfmta => ({ c with mxfmta := v &&& 0x1F1FFF#64 }, x)
  | .mxfmtb => ({ c with mxfmtb := v &&& 0x3FF#64 }, x)
  | .mxsca => ({ c with mxsca := v &&& 0xFF#64 }, x)
  | .mxscb => ({ c with mxscb := v &&& 0xFF#64 }, x)
  | .mxflags => ({ c with mxflags := v &&& 0xFF#64 }, x)
  | .qstat => ({ c with qstat := c.qstat &&& ~~~ (v &&& 0x107#64) }, x)
  | .qerrm => ({ c with qerrm := c.qerrm &&& ~~~ (v &&& (1#64 <<< 63)) }, x)
  | .qerrc0 => ({ c with qerrc0 := c.qerrc0 &&& ~~~ (v &&& (1#64 <<< 63)) }, x)
  | .qerrc1 => ({ c with qerrc1 := c.qerrc1 &&& ~~~ (v &&& (1#64 <<< 63)) }, x)
  | .trapcause =>
    (c, { x with trapcause := (v &&& 0x700#64) ||| ((if causeListed (v &&& 0xFF#64).toNat then v else x.trapcause) &&& 0xFF#64) })
  | .trapval => (c, { x with trapval := v })
  | .trappc => (c, { x with trappc := v })
  | .trapmsg => (c, { x with trapmsg := v })
  | .trapvec => ({ c with trapvec := v &&& ~~~ 3#64 }, x)
  | .ageb => ({ c with ageb := if (v &&& 0xFFFF#64).toNat < 16 then 16#64 else v &&& 0xFFFF#64 }, x)
  | .actlim => ({ c with actlim := v &&& 0xFFFF_FFFF#64 }, x)
  | .chdrop => ({ c with chdrop := v &&& 0x3F_FFFF_FFFF#64 }, x)
  | .actmsg => (c, x) | .acttag => (c, x) | .actround => (c, x) | .actchan => (c, x) | .actsrc => (c, x)
  | .winp => (c, x) | .grp => (c, x) | .tagen => (c, x) | .tagpend => (c, x)

end Sys2Proof.Machine
end

