-- ==== Sys2Proof/Machine/Arith.lean ====
section
/-! DEFINITION. Integer arithmetic of RV64IM (R60, R61): each instruction writes one register and moves on. -/

namespace Sys2Proof.Machine

/-- 1 if the comparison holds, else 0 (R60). -/
def flag (b : Bool) : Word := if b then 1 else 0

/-- Bits [127:64] of a product (R60). -/
def high (p : Int) : Word := BitVec.ofInt 64 (p / 2 ^ 64)

/-- Signed quotient toward zero; a zero divisor gives all ones, the most negative value by −1 the dividend (R61). -/
def divS {n : Nat} (x y : BitVec n) : BitVec n := if y = 0 then BitVec.allOnes n else BitVec.ofInt n (x.toInt.tdiv y.toInt)

/-- Unsigned quotient (R61). -/
def divU {n : Nat} (x y : BitVec n) : BitVec n := if y = 0 then BitVec.allOnes n else BitVec.ofNat n (x.toNat / y.toNat)

/-- The matching signed remainder; a zero divisor leaves the dividend (R61). -/
def remS {n : Nat} (x y : BitVec n) : BitVec n := if y = 0 then x else BitVec.ofInt n (x.toInt.tmod y.toInt)

/-- The matching unsigned remainder (R61). -/
def remU {n : Nat} (x y : BitVec n) : BitVec n := if y = 0 then x else BitVec.ofNat n (x.toNat % y.toNat)

/-- LUI (R60). -/
def execLui (d : Reg) (imm : BitVec 20) (s : State) : Host.Outcome State Fault Refusal :=
  .next (s.putX d (imm20 imm))

/-- AUIPC (R60). -/
def execAuipc (d : Reg) (imm : BitVec 20) (s : State) : Host.Outcome State Fault Refusal :=
  .next (s.putX d (s.me.pc + imm20 imm))

/-- ADDI (R60). -/
def execAddi (d a : Reg) (imm : BitVec 12) (s : State) : Host.Outcome State Fault Refusal :=
  .next (s.putX d (s.x a + imm12 imm))

/-- SLTI (R60). -/
def execSlti (d a : Reg) (imm : BitVec 12) (s : State) : Host.Outcome State Fault Refusal :=
  .next (s.putX d (flag ((s.x a).slt (imm12 imm))))

/-- SLTIU (R60). -/
def execSltiu (d a : Reg) (imm : BitVec 12) (s : State) : Host.Outcome State Fault Refusal :=
  .next (s.putX d (flag ((s.x a).ult (imm12 imm))))

/-- XORI (R60). -/
def execXori (d a : Reg) (imm : BitVec 12) (s : State) : Host.Outcome State Fault Refusal :=
  .next (s.putX d (s.x a ^^^ imm12 imm))

/-- ORI (R60). -/
def execOri (d a : Reg) (imm : BitVec 12) (s : State) : Host.Outcome State Fault Refusal :=
  .next (s.putX d (s.x a ||| imm12 imm))

/-- ANDI (R60). -/
def execAndi (d a : Reg) (imm : BitVec 12) (s : State) : Host.Outcome State Fault Refusal :=
  .next (s.putX d (s.x a &&& imm12 imm))

/-- SLLI (R60). -/
def execSlli (d a : Reg) (sh : BitVec 6) (s : State) : Host.Outcome State Fault Refusal :=
  .next (s.putX d (s.x a <<< sh.toNat))

/-- SRLI (R60). -/
def execSrli (d a : Reg) (sh : BitVec 6) (s : State) : Host.Outcome State Fault Refusal :=
  .next (s.putX d (s.x a >>> sh.toNat))

/-- SRAI (R60). -/
def execSrai (d a : Reg) (sh : BitVec 6) (s : State) : Host.Outcome State Fault Refusal :=
  .next (s.putX d ((s.x a).sshiftRight sh.toNat))

/-- ADDIW (R60). -/
def execAddiw (d a : Reg) (imm : BitVec 12) (s : State) : Host.Outcome State Fault Refusal :=
  .next (s.putX d (sext32 (low32 (s.x a) + low32 (imm12 imm))))

/-- SLLIW (R60). -/
def execSlliw (d a : Reg) (sh : BitVec 5) (s : State) : Host.Outcome State Fault Refusal :=
  .next (s.putX d (sext32 (low32 (s.x a) <<< sh.toNat)))

/-- SRLIW (R60). -/
def execSrliw (d a : Reg) (sh : BitVec 5) (s : State) : Host.Outcome State Fault Refusal :=
  .next (s.putX d (sext32 (low32 (s.x a) >>> sh.toNat)))

/-- SRAIW (R60). -/
def execSraiw (d a : Reg) (sh : BitVec 5) (s : State) : Host.Outcome State Fault Refusal :=
  .next (s.putX d (sext32 ((low32 (s.x a)).sshiftRight sh.toNat)))

/-- ADD (R60). -/
def execAdd (d a b : Reg) (s : State) : Host.Outcome State Fault Refusal :=
  .next (s.putX d (s.x a + s.x b))

/-- SLL (R60). -/
def execSll (d a b : Reg) (s : State) : Host.Outcome State Fault Refusal :=
  .next (s.putX d (s.x a <<< ((s.x b).toNat % 64)))

/-- SLT (R60). -/
def execSlt (d a b : Reg) (s : State) : Host.Outcome State Fault Refusal :=
  .next (s.putX d (flag ((s.x a).slt (s.x b))))

/-- SLTU (R60). -/
def execSltu (d a b : Reg) (s : State) : Host.Outcome State Fault Refusal :=
  .next (s.putX d (flag ((s.x a).ult (s.x b))))

/-- XOR (R60). -/
def execXor (d a b : Reg) (s : State) : Host.Outcome State Fault Refusal :=
  .next (s.putX d (s.x a ^^^ s.x b))

/-- SRL (R60). -/
def execSrl (d a b : Reg) (s : State) : Host.Outcome State Fault Refusal :=
  .next (s.putX d (s.x a >>> ((s.x b).toNat % 64)))

/-- OR (R60). -/
def execOr (d a b : Reg) (s : State) : Host.Outcome State Fault Refusal :=
  .next (s.putX d (s.x a ||| s.x b))

/-- AND (R60). -/
def execAnd (d a b : Reg) (s : State) : Host.Outcome State Fault Refusal :=
  .next (s.putX d (s.x a &&& s.x b))

/-- SUB (R60). -/
def execSub (d a b : Reg) (s : State) : Host.Outcome State Fault Refusal :=
  .next (s.putX d (s.x a - s.x b))

/-- SRA (R60). -/
def execSra (d a b : Reg) (s : State) : Host.Outcome State Fault Refusal :=
  .next (s.putX d ((s.x a).sshiftRight ((s.x b).toNat % 64)))

/-- MUL (R60). -/
def execMul (d a b : Reg) (s : State) : Host.Outcome State Fault Refusal :=
  .next (s.putX d (s.x a * s.x b))

/-- MULH: bits [127:64] of s × s (R60). -/
def execMulh (d a b : Reg) (s : State) : Host.Outcome State Fault Refusal :=
  .next (s.putX d (high ((s.x a).toInt * (s.x b).toInt)))

/-- MULHSU: bits [127:64] of s × u (R60). -/
def execMulhsu (d a b : Reg) (s : State) : Host.Outcome State Fault Refusal :=
  .next (s.putX d (high ((s.x a).toInt * (s.x b).toNat)))

/-- MULHU: bits [127:64] of u × u (R60). -/
def execMulhu (d a b : Reg) (s : State) : Host.Outcome State Fault Refusal :=
  .next (s.putX d (high (((s.x a).toNat * (s.x b).toNat : Nat) : Int)))

/-- DIV (R60, R61). -/
def execDiv (d a b : Reg) (s : State) : Host.Outcome State Fault Refusal :=
  .next (s.putX d (divS (s.x a) (s.x b)))

/-- DIVU (R60, R61). -/
def execDivu (d a b : Reg) (s : State) : Host.Outcome State Fault Refusal :=
  .next (s.putX d (divU (s.x a) (s.x b)))

/-- REM (R60, R61). -/
def execRem (d a b : Reg) (s : State) : Host.Outcome State Fault Refusal :=
  .next (s.putX d (remS (s.x a) (s.x b)))

/-- REMU (R60, R61). -/
def execRemu (d a b : Reg) (s : State) : Host.Outcome State Fault Refusal :=
  .next (s.putX d (remU (s.x a) (s.x b)))

/-- ADDW (R60). -/
def execAddw (d a b : Reg) (s : State) : Host.Outcome State Fault Refusal :=
  .next (s.putX d (sext32 (low32 (s.x a) + low32 (s.x b))))

/-- SLLW (R60). -/
def execSllw (d a b : Reg) (s : State) : Host.Outcome State Fault Refusal :=
  .next (s.putX d (sext32 (low32 (s.x a) <<< ((s.x b).toNat % 32))))

/-- SRLW (R60). -/
def execSrlw (d a b : Reg) (s : State) : Host.Outcome State Fault Refusal :=
  .next (s.putX d (sext32 (low32 (s.x a) >>> ((s.x b).toNat % 32))))

/-- SUBW (R60). -/
def execSubw (d a b : Reg) (s : State) : Host.Outcome State Fault Refusal :=
  .next (s.putX d (sext32 (low32 (s.x a) - low32 (s.x b))))

/-- SRAW (R60). -/
def execSraw (d a b : Reg) (s : State) : Host.Outcome State Fault Refusal :=
  .next (s.putX d (sext32 ((low32 (s.x a)).sshiftRight ((s.x b).toNat % 32))))

/-- MULW (R60). -/
def execMulw (d a b : Reg) (s : State) : Host.Outcome State Fault Refusal :=
  .next (s.putX d (sext32 (low32 (s.x a) * low32 (s.x b))))

/-- DIVW (R60, R61). -/
def execDivw (d a b : Reg) (s : State) : Host.Outcome State Fault Refusal :=
  .next (s.putX d (sext32 (divS (low32 (s.x a)) (low32 (s.x b)))))

/-- DIVUW (R60, R61). -/
def execDivuw (d a b : Reg) (s : State) : Host.Outcome State Fault Refusal :=
  .next (s.putX d (sext32 (divU (low32 (s.x a)) (low32 (s.x b)))))

/-- REMW (R60, R61). -/
def execRemw (d a b : Reg) (s : State) : Host.Outcome State Fault Refusal :=
  .next (s.putX d (sext32 (remS (low32 (s.x a)) (low32 (s.x b)))))

/-- REMUW (R60, R61). -/
def execRemuw (d a b : Reg) (s : State) : Host.Outcome State Fault Refusal :=
  .next (s.putX d (sext32 (remU (low32 (s.x a)) (low32 (s.x b)))))

end Sys2Proof.Machine
end

