-- ==== Sys2Proof/Machine/Routes.lean ====
section
/-! DEFINITION. Where a request goes and by which route: homes and attach sites (R216, R308), default routes (R230, R302,
R405), the route cache (R231), packet headers (R220). -/

namespace Sys2Proof.Machine

/-- The site whose router ends a request for a place. -/
def State.homeSite (s : State) (p : Place) : Nat :=
  match p.space with
  | .dram => p.owner
  | .scratch => p.owner
  | .cluster => s.clusterBankSite p.owner p.bank
  | .die => s.dieBankSite p.owner p.bank
  | .sync => s.engineSite p.owner

/-- Local port of a home (R220). -/
def homePort (p : Place) : Nat :=
  match p.space with
  | .dram => 0 | .scratch => 0 | .cluster => 1 | .die => 2 | .sync => 3

/-! ### Links and default routes -/

def dirOpposite : Dir → Dir
  | .n => .s | .s => .n | .e => .w | .w => .e

/-- The neighbour one hop away inside the module (R215). -/
def hop (site : Nat) : Dir → Option Nat
  | .n => if siteY site = 0 then none else some (site - 2048)
  | .s => if siteY site ≥ 511 then none else some (site + 2048)
  | .e => if siteX site ≥ 1087 then none else some (site + 1)
  | .w => if siteX site = 0 then none else some (site - 1)

/-- Bit of a direction in a site entry's down field (R326). -/
def downBit : Dir → Nat
  | .n => 3 | .e => 2 | .s => 1 | .w => 0

/-- The link leaving a site in a direction is marked down, by either end (R225, R229, R328). -/
def State.linkDown (s : State) (site : Nat) (d : Dir) : Bool :=
  bit (s.site site).down (downBit d) ||
  (match hop site d with
   | some t => bit (s.site t).down (downBit (dirOpposite d))
   | none => false)

/-- Site `n` hops away, with every link on the way up. -/
def State.clearRun (s : State) (site : Nat) (d : Dir) : Nat → Bool × Nat
  | 0 => (true, site)
  | n + 1 =>
    match hop site d with
    | none => (false, site)
    | some t => if s.linkDown site d then (false, t) else State.clearRun s t d n

/-- Every link on a list of runs is up. -/
def State.clearRuns (s : State) (site : Nat) : List Run → Bool
  | [] => true
  | r :: t => let q := s.clearRun site r.dir (r.len + 1); q.1 && State.clearRuns s q.2 t

/-- `n` hops in one direction: none for 0, and two straight runs where one run's 1,024 hops do not suffice (R222, R223). -/
def mkRun (d : Dir) (n : Nat) (bump : Bool) : List Run :=
  if n = 0 then []
  else if n ≤ 1024 then [⟨d, bump, false, n - 1⟩]
  else [⟨d, bump, false, 1023⟩, ⟨d, false, false, n - 1025⟩]

/-- North or south part of a default route. -/
def vertical (a b : Nat) : List Run :=
  if siteY b < siteY a then mkRun .n (siteY a - siteY b) false else mkRun .s (siteY b - siteY a) false

/-- First form of R230. -/
def formOne (a b : Nat) : List Run :=
  mkRun .w (siteX a - siteX b) false ++ vertical a b ++ mkRun .e (siteX b - siteX a) false

/-- Second form of R230. -/
def formTwo (a b : Nat) : List Run :=
  if siteX b > siteX a then mkRun .e (siteX b - siteX a) false ++ vertical a b
  else
    let v := vertical a b
    v ++ mkRun .w (siteX a - siteX b) (!v.isEmpty)

/-- The default route, if one of its forms is clear (R230). -/
def State.defaultRuns (s : State) (a b : Nat) : Option (List Run) :=
  if s.clearRuns a (formOne a b) then some (formOne a b)
  else if s.clearRuns a (formTwo a b) then some (formTwo a b)
  else none

/-- A list of runs within the limits of 32 runs and 4 classes (R222, R223). -/
def runsFit (l : List Run) : Bool := decide (l.length ≤ 32) && decide ((l.filter fun r => r.bump).length ≤ 3)

/-! A legal route over links that are up, with the fewest hops and then the fewest turns (R209, R302, R405). -/

/-- A route as far as the search has come: its site, its hops (the last first, each with its bump), its class, whether its segment
holds a run that is not W, and its turns (R223). -/
structure Probe where
  site  : Nat
  hops  : List (Dir × Bool)
  cls   : Nat
  nonW  : Bool
  turns : Nat
  deriving DecidableEq, Repr

/-- One more hop, where a link that is up and the rules of legality allow it; a W hop behind another direction takes a bump
(R223). -/
def State.probeHop (s : State) (p : Probe) (d : Dir) : Option Probe :=
  match hop p.site d with
  | none => none
  | some t =>
    let last := p.hops.head?.map fun h => h.1
    let bump := d == .w && p.nonW
    if s.linkDown p.site d || last == some (dirOpposite d) || (bump && p.cls == 3) then none
    else some ⟨t, (d, bump) :: p.hops, if bump then p.cls + 1 else p.cls, (!bump && p.nonW) || d != .w,
      p.turns + b2n (last.isSome && last != some d)⟩

/-- What decides how a route may go on: its site, last direction, class and segment. -/
def Probe.key (p : Probe) : Nat × Option Dir × Nat × Bool := (p.site, p.hops.head?.map fun h => h.1, p.cls, p.nonW)

/-- Of two routes that may go on alike the one with fewer turns stays. -/
def addProbe (seen : List (Nat × Option Dir × Nat × Bool)) (l : List Probe) (p : Probe) : List Probe :=
  if seen.contains p.key then l
  else match l.find? fun q => q.key == p.key with
    | none => l ++ [p]
    | some q => if p.turns < q.turns then l.map fun r => if r.key = p.key then p else r else l

/-- The route with the fewest turns. -/
def fewestTurns : List Probe → Option Probe
  | [] => none
  | p :: t => match fewestTurns t with
    | none => some p
    | some q => if q.turns < p.turns then some q else some p

/-- All routes of one number of hops, then those of one hop more, until one stands at the target. -/
def State.searchHops (s : State) (b : Nat) : Nat → List (Nat × Option Dir × Nat × Bool) → List Probe → Option Probe
  | 0, _, _ => none
  | fuel + 1, seen, level =>
    match fewestTurns (level.filter fun p => p.site == b) with
    | some p => some p
    | none =>
      let next := (level.flatMap fun p => [Dir.n, .e, .s, .w].filterMap (s.probeHop p)).foldl (addProbe seen) []
      if next.isEmpty then none else State.searchHops s b fuel (seen ++ next.map Probe.key) next

/-- Hops in order as runs of up to 1,024 (R222). -/
def runsOfHops : List (Dir × Bool) → List Run
  | [] => []
  | (d, bump) :: t => match runsOfHops t with
    | r :: u => if r.dir = d ∧ !r.bump ∧ r.len < 1023 then { r with bump, len := r.len + 1 } :: u else ⟨d, bump, false, 0⟩ :: r :: u
    | [] => [⟨d, bump, false, 0⟩]

/-- The route the search finds, if it has at most 32 runs. -/
def State.searchRuns (s : State) (a b : Nat) : Option (List Run) :=
  ((s.searchHops b (2 ^ 21) [] [⟨a, [], 0, false, 0⟩]).map fun p => runsOfHops p.hops.reverse).filter runsFit

/-- A route management forms: by the default forms, and where both meet a down link by a search over links that are up; where
there is none, the first form, which the routers then drop (R209, R302, R405, log entry 11). -/
def State.managedRuns (s : State) (a b : Nat) : List Run :=
  (s.defaultRuns a b).getD ((s.searchRuns a b).getD (formOne a b))

/-! ### The route cache (R231) -/

/-- Key of a destination (R231). -/
def rcKey (mod site : Nat) : Nat := mod * 2 ^ 21 + site

def rcFind : List RcEntry → Nat → Option RcEntry
  | [], _ => none
  | e :: t, k => if e.key = k then some e else rcFind t k

/-- A used entry becomes the most recently used. -/
def rcTouch (l : List RcEntry) (e : RcEntry) : List RcEntry := e :: l.filter fun f => f.key != e.key

/-- RTSET's replacement: the entry of the key, else the least recently used of 64 (R231, R233). -/
def rcInsert (l : List RcEntry) (e : RcEntry) : List RcEntry :=
  let l' := l.filter fun f => f.key != e.key
  e :: l'.take 63

/-- How a request reaches its home. -/
inductive Reach where
  /-- the core's own memory: no link is crossed -/
  | own
  | routed (fwd : Route) (ret : List Run) (s : State)
  | miss (val : Nat)

/-- Route of an access of `core` to a location (R230, R231, R405). `near`: through the cluster window or to the cluster
scratchpad of the core-local map; `ownDram`: through the own DRAM range or the DRAM part of the own window slot. -/
def State.reach (s : State) (core : Nat) (l : Loc) (near ownDram needReply : Bool) : Reach :=
  let c := s.core core
  let viaCache : Unit → Reach := fun _ =>
    let k := rcKey l.mod l.site
    match rcFind c.rcache k with
    | none => .miss k
    | some e =>
      match e.ret with
      | none =>
        if needReply || l.mod != s.moduleId then .miss (2 ^ 62 + k)
        else .routed e.fwd [] (s.setCore core { c with rcache := rcTouch c.rcache e })
      | some r => .routed e.fwd r.runs (s.setCore core { c with rcache := rcTouch c.rcache e })
  let viaDefault : Unit → Reach := fun _ =>
    match s.defaultRuns c.site l.site, s.defaultRuns l.site c.site with
    | some f, some r => .routed ⟨f, l.site, l.mod⟩ r s
    | _, _ => viaCache ()
  if l.mod = s.moduleId ∧ (l.place.space = .dram ∨ l.place.space = .scratch) ∧ l.place.owner = c.site then .own
  else if near then viaDefault ()
  else if ownDram ∧ l.mod = s.moduleId ∧ siteDie l.site = siteDie c.site then viaDefault ()
  else viaCache ()

/-! ### Packets (R220, R221) -/

/-- Runs as a packet carries them at injection: the pair bit only where the packet's own rule sets it (R230). -/
def hdrBlank : Header :=
  { port := 0, fin := false, tied := false, logged := false, score := 0, ssite := 0, gen := 0, sch := 0, rch := 0,
    fmt := 0, round := 0, tag := 0, kind := .data, cur := 0, ext := false, last := 0, dsite := 0, runs := [], dmod := 0,
    smod := 0, ingress := [], reqPorts := [], asker := 0 }

/-- The header of a request or reply on a route (R220). A route of no runs is complete at injection. -/
def State.mkHeader (s : State) (kind : PktKind) (port score ssite : Nat) (r : Route) : Header :=
  { hdrBlank with
    port, kind, score, ssite, runs := r.runs, dsite := r.dsite, dmod := r.dmod, smod := s.moduleId,
    fin := r.runs.isEmpty, last := r.runs.length - 1, ext := decide (8 < r.runs.length) }

/-- Bits [207:164] of a header of a kind that is no message (R209, R245). Those of kinds 4 to 7 and 10, which no chapter lays
down, and win in a kind 9 reply are 0 (DESIGN CHOICE, log entry 97); a kind 12 packet carries its fields in its header
(State.movePacket). -/
def Body.fields : Body → Nat
  | .pairReq _ op win p wide np _ _ _ =>
    win % 256 * 2 ^ 200 + p.off / 32 % 2 ^ 30 * 2 ^ 170 + (match op with
      | .push => 0
      | .pop => 2 ^ 168
      | .popw => 2 ^ 169) + b2n wide * 2 ^ 167 + b2n np * 2 ^ 166
  | .pairRep _ _ e r obj wide np =>
    obj % 2 ^ 30 * 2 ^ 170 + (if r then 2 ^ 169 else b2n e * 2 ^ 168) + b2n wide * 2 ^ 167 + b2n np * 2 ^ 166
  | .message _ | .empty | .memReq _ _ _ _ _ _ _ _ _ | .memRep _ _ _ _ | .syncReq _ _ _ _ | .syncRep _ _ | .mgmt _
  | .migrate _ _ _ | .phase _ _ _ => 0

/-- A packet's header flit as four dwords, lowest first (R220, R245). -/
def Packet.dwords (p : Packet) : List Word := dwords4 (p.hdr.nat + Body.fields p.body)

/-- Flits of a packet (R221). -/
def pktFlits (p : Packet) : Nat :=
  (if p.hdr.ext then 2 else 0) +
  (match p.hdr.kind with
   | .data => 3 | .marker => 1 | .fence => 1 | .mgmt => 3 | .migrate => 2 + bits p.hdr.round 5 3
   | .memReq => 2 | .memRep => 2 | .syncReq => 2 | .syncRep => 2 | .pairReq => 2 | .pairRep => 2
   | .reserved _ => 1)

/-- Reply kinds ride the reply lanes (R221). -/
def isReplyKind : PktKind → Bool
  | .memRep => true | .syncRep => true | .pairRep => true
  | .data => false | .marker => false | .fence => false | .memReq => false | .syncReq => false | .pairReq => false
  | .mgmt => false | .migrate => false | .reserved _ => false

/-- Lane number of a packet: 0–3 request classes, 4–7 reply classes (R218). -/
def Flight.lane (f : Flight) : Nat := (if isReplyKind f.pkt.hdr.kind then 4 else 0) + f.cls

def findFlight : List Flight → Nat → Option Flight
  | [], _ => none
  | f :: t, i => if f.id = i then some f else findFlight t i

def State.flight (s : State) (i : Nat) : Option Flight := findFlight s.net i

def State.setFlight (s : State) (f : Flight) : State :=
  { s with net := s.net.map fun g => if g.id = f.id then f else g }

/-- Flits of a lane buffer a packet occupies: a buffer holds 4 (R218, log entry 16). -/
def Flight.need (f : Flight) : Nat := if pktFlits f.pkt < 4 then pktFlits f.pkt else 4

/-- Key of a lane buffer of a router: sides 0 to 3 are the inputs from its links, 4 to 7 the ejection buffers of its local
ports, 8 to 11 the inputs from them. -/
def bufKey (site side lane : Nat) : Nat := 128 * site + 8 * side + lane

/-- A buffer has room for a packet: credits are at hand (R218). -/
def State.room (s : State) (key need : Nat) : Bool := decide (s.used.at key 0 + need ≤ 4)

def State.charge' (s : State) (key need : Nat) : State := { s with used := s.used.put key (s.used.at key 0 + need) }

def State.release' (s : State) (key need : Nat) : State := { s with used := s.used.put key (s.used.at key 0 - need) }

/-! ### Entering a router (R218) -/

def findReq : List Req → Nat → Option Req
  | [], _ => none
  | r :: t, i => if r.id = i then some r else findReq t i

def State.req (s : State) (i : Nat) : Option Req := findReq s.reqs i

def Ctx.subCount (x : Ctx) (k : CountClass) : Ctx :=
  match k with
  | .ld => { x with ld := x.ld - 1 }
  | .st => { x with st := x.st - 1 }
  | .sy => { x with sy := x.sy - 1 }
  | .cp => x
  | .mx => x

def Target.isPush : Target → Bool
  | .pair .push _ _ _ _ _ => true
  | .pair .pop _ _ _ _ _ => false
  | .pair .popw _ _ _ _ _ => false
  | .mem _ _ _ _ _ => false
  | .sync _ _ => false

/-- The request of a PUSH is injected: nothing comes back for it (R75, R248, R252). -/
def State.dropPush (s : State) (r : Req) : State :=
  let s1 := { s with reqs := s.reqs.filter fun q => q.id != r.id || !q.target.isPush }
  match r.owner, r.cls with
  | .ctx core ctx _, some k =>
    let x := (s1.ctx core ctx).subCount k
    s1.setCtx core ctx { x with pushes := x.pushes ++ [r.id] }
  | _, _ => s1

/-- A packet enters its router: a PUSH leaves its count (R75, R252). -/
def State.pushInjected (s : State) (p : Packet) : State :=
  match p.body with
  | .pairReq id .push _ _ _ _ _ _ _ => match s.req id with
    | some r => if r.target.isPush then s.dropPush r else s
    | none => s
  | _ => s

/-- The oldest packet waiting behind a local port for a lane enters the router's input buffer, when there is a credit. -/
def State.admitOne (s : State) (site port lane : Nat) : State :=
  match s.net.find? fun f => f.spot == .queued && f.site == site && f.inPort == port && f.lane == lane with
  | none => s
  | some f =>
    let k := bufKey site (8 + port) lane
    if s.room k f.need then
      let t := s.charge' k f.need
      State.pushInjected { t with net := t.net.map fun g => if g.id = f.id then { g with spot := .buffer, came := s.now } else g } f.pkt
    else s

/-- As many as there are credits for: the buffer holds four flits. -/
def State.letIn (s : State) (site port lane : Nat) : State :=
  (((s.admitOne site port lane).admitOne site port lane).admitOne site port lane).admitOne site port lane

/-- A packet of the unit behind a local port is injected: it enters the router as soon as there is a credit (R20, R218). -/
def State.injectAt (s : State) (site port : Nat) (p : Packet) : State :=
  let f : Flight :=
    { id := s.fresh, stamp := s.fresh, pkt := p, site, came := s.now, inDir := none, inPort := port, cls := 0,
      nonW := false, first := true, spot := .queued, treated := false }
  State.letIn { s with net := s.net ++ [f], fresh := s.fresh + 1, injected := s.injected + 1 } site port f.lane

/-- A packet of a core is injected at its site's router. -/
def State.inject (s : State) (site : Nat) (p : Packet) : State := s.injectAt site 0 p

/-! ### Optical ports at the edge (R377, R378) -/

/-- Position of a site along an edge: port half and span site. -/
def spanOf (r first half : Nat) : Option (Nat × Nat) :=
  if first ≤ r ∧ r < first + 16 then some (0, r - first)
  else if first + half ≤ r ∧ r < first + half + 16 then some (1, r - first - half)
  else none

/-- Port and span site behind the edge-facing port of a router (R377). -/
def portAt (site : Nat) (d : Dir) : Option (Nat × Nat) :=
  let x := siteX site
  let y := siteY site
  let onX : Nat → Option (Nat × Nat) := fun e => (spanOf (x % 136) 26 68).map fun q => (16 * e + 2 * (x / 136) + q.1, q.2)
  let onY : Nat → Option (Nat × Nat) := fun e => (spanOf (y % 64) 8 32).map fun q => (16 * e + 2 * (y / 64) + q.1, q.2)
  match d with
  | .n => if y = 0 then onX 0 else none
  | .e => if x = 1087 then onY 1 else none
  | .s => if y = 511 then onX 2 else none
  | .w => if x = 0 then onY 3 else none

/-- Site of span site `i` of a port, and the direction out of the wafer there. -/
def spanSite (p i : Nat) : Nat × Dir :=
  let k := p % 16 / 2
  let h := p % 2
  match p / 16 with
  | 0 => (mkSite (136 * k + 68 * h + 26 + i) 0, .n)
  | 1 => (mkSite 1087 (64 * k + 32 * h + 8 + i), .e)
  | 2 => (mkSite (136 * k + 68 * h + 26 + i) 511, .s)
  | _ => (mkSite 0 (64 * k + 32 * h + 8 + i), .w)

/-! ### Leaving a buffer -/

/-- The packet leaves the buffer it stands in: the credits of a local port's buffers return at once, those of a link's input
buffer with CREDIT_RETURN, those of an optical port's receive buffer in a control frame (R218, R379). -/
def State.vacate (s : State) (f : Flight) : State :=
  match f.spot with
  | .eject p => s.release' (bufKey f.site (4 + p) f.lane) f.need
  | .buffer => match f.inDir with
    | none => if f.inPort < 4 then (s.release' (bufKey f.site (8 + f.inPort) f.lane) f.need).letIn f.site f.inPort f.lane else s
    | some d => match hop f.site d, portAt f.site d with
      | none, some (p, _) =>
        let q := s.port p
        s.setPort p { q with sent := q.sent ++ [.credit f.lane (pktFlits f.pkt)] }
      | _, _ => { s with owed := s.owed ++ [(bufKey f.site d.code f.lane, f.need)] }
  | .queued | .parked _ _ _ | .replay _ _ | .egress _ _ | .intake => s

/-- Key of the link out of a site in a direction. -/
def linkKey (site : Nat) (d : Dir) : Nat := 4 * site + d.code

/-- The check of a packet's last flit is over: the flits came one per cycle, and each was checked a cycle later (R228). -/
def Passed.closed (p : Passed) (now : Nat) : Bool := decide (p.tail < now)

/-- Cycle from which the link into router `t` at a side carries the next packet: the packets of a link close in link order (R228). -/
def State.linkTail (s : State) (t : Nat) (side : Dir) : Nat :=
  (s.net.flatMap fun f => f.trail).foldl (fun m p => if p.site = t ∧ p.inDir = side ∧ m < p.tail then p.tail else m) s.now

/-- Links have passed good checks: a run of failures ends (R229). -/
def State.linksGood (s : State) (l : List Passed) : State :=
  { s with crcFails := l.foldl (fun m p => match hop p.site p.inDir with
      | some up => m.cut (linkKey up (dirOpposite p.inDir))
      | none => m) s.crcFails }

/-- The packet leaves the mesh: consumed, dropped or paired (R340). The checks of its flits were good (R229). -/
def State.consume (s : State) (id : Nat) : State :=
  match s.flight id with
  | none => s
  | some f =>
    let t := (s.vacate f).linksGood f.trail
    { t with net := t.net.filter fun g => g.id != id, consumed := t.consumed + 1 }

/-- A packet of an ejection buffer is the oldest of its lane there, and the checks of its flits are over (R188, R218, R228). -/
def State.ejectHead (s : State) (f : Flight) : Bool :=
  (f.trail.all fun p => p.closed s.now) && !(s.net.any fun g => g.site == f.site && g.lane == f.lane && g.spot == f.spot && decide (g.stamp < f.stamp))

/-- Ports in the order in which arrivals of one cycle are served: N, E, S, W, then the local ports (R216, R247). -/
def Flight.portOrder (f : Flight) : Nat :=
  match f.inDir with
  | some d => d.code
  | none => 4 + f.inPort

/-- Order of arrival at a place (R216, R289). -/
def Flight.order (f : Flight) : List Nat := [f.came, f.portOrder, f.stamp]

/-- The packet in an ejection buffer's port `port` of a site that may be taken next. -/
def State.ejected (s : State) (id port : Nat) : Option Flight :=
  match s.flight id with
  | none => none
  | some f => if f.spot = .eject port ∧ s.ejectHead f then some f else none

/-- A packet of a core leaves through its site's router; a checked pair's packet first waits at the lead's local port for
its twin (R204). -/
def State.emit (s : State) (core : Nat) (sender : Option Sender) (p : Packet) : State :=
  let c := s.core core
  match c.pair with
  | some q => s.setCore core { c with pair := some { q with waiting := q.waiting ++ [⟨p, s.now, sender⟩] } }
  | none => s.inject c.site p

end Sys2Proof.Machine
end

