-- ==== Sys2Proof/Machine/Translate.lean ====
section
/-! DEFINITION. Address translation: the core-local map (R96, R97), the page-table walk (R309), the holders of
translations (R311, R312), the checks in order (R313) and the logical-core window (R307). -/

namespace Sys2Proof.Machine

/-- What an access needs of a page (R288, R313): rights, and whether sync space is forbidden (0), allowed (1) or
required (2). -/
structure Acc where
  r : Bool
  w : Bool
  x : Bool
  sync : Nat
  deriving DecidableEq, Repr

def accLoad : Acc := ⟨true, false, false, 0⟩
def accStore : Acc := ⟨false, true, false, 0⟩
def accAmo : Acc := ⟨true, true, false, 1⟩
def accSync : Acc := ⟨true, true, false, 2⟩
def accDecz : Acc := ⟨true, true, false, 0⟩
def accFetch : Acc := ⟨false, false, true, 0⟩

/-- How a translation ends. -/
inductive Xlate where
  /-- the place; in the own cluster, through its window or to its scratchpad (R230); through the own DRAM range or window
  slot (R405) -/
  | ok (s : State) (l : Loc) (near ownDram : Bool)
  | wait (s : State)
  | fault (s : State) (cause : Nat)

/-- Base of core n's slot in the logical-core window (R307). -/
def winBase (n : Nat) : Nat := 0x400_0000_0000 + n * 0x80_0000

/-! ### The page table (R309) -/

/-- Offset of the root table in each die scratchpad (log entry 12). -/
def rootTable : Nat := 0x1E0_0000

def State.ptEntry (s : State) (die off : Nat) : Nat := leNat (s.readPlace ⟨.die, die, off⟩ 8)

/-- The leaf's fields agree with its level and target (R309). -/
def leafOk (e level : Nat) : Bool :=
  let size := bits e 16 15
  let target := bits e 32 30
  let frame := bits e 29 20
  let cls := bit e 14
  let x := bit e 11
  (match level with
   | 1 => size == 2 && target == 5 && frame == 0
   | 2 => size == 1 && (target == 0 || target == 2 || target == 3 || target == 4) && frame % 32 == 0
   | 3 => size == 0 && target ≤ 4
   | _ => false) && (!cls || target == 4) && (!x || target ≤ 1)

/-- A target-5 leaf over a row of this module that is disabled, which carries no such page (R309). -/
def State.rowDisabled (s : State) (e : Nat) : Bool := bits e 32 30 == 5 && bits e 63 54 == s.moduleId && s.skip (bits e 53 33) == 31

/-- What a walk finds. -/
inductive Walked where
  | leaf (p : Page)
  | none
  /-- the entry with a reserved value or fields that disagree -/
  | malformed (e : Nat)

/-- Offset of the next table that an entry of an inner level names: bits [24:0], of which the low three are no part of a
multiple of 8 B (R309). -/
def tableOff (e : Nat) : Nat := bits e 24 3 * 8

/-- Walk the die's copy of the table for an address (R309, R312). -/
def State.walkTable (s : State) (die va : Nat) : Walked :=
  let e0 := s.ptEntry die (rootTable + 8 * bits va 47 36)
  if !bit e0 0 then .none
  else if bit e0 1 then .malformed e0
  else
    let e1 := s.ptEntry die (tableOff e0 + 8 * bits va 35 26)
    if !bit e1 0 then .none
    else if bit e1 1 then
      if leafOk e1 1 && !s.rowDisabled e1 then .leaf ⟨va / 0x400_0000 * 0x400_0000, 0x400_0000, w64 e1⟩ else .malformed e1
    else
      let e2 := s.ptEntry die (tableOff e1 + 8 * bits va 25 21)
      if !bit e2 0 then .none
      else if bit e2 1 then
        if leafOk e2 2 then .leaf ⟨va / 0x20_0000 * 0x20_0000, 0x20_0000, w64 e2⟩ else .malformed e2
      else
        let e3 := s.ptEntry die (tableOff e2 + 8 * bits va 20 16)
        if !bit e3 0 then .none
        else if bit e3 1 && leafOk e3 3 then .leaf ⟨va / 0x1_0000 * 0x1_0000, 0x1_0000, w64 e3⟩
        else .malformed e3

/-! ### Holders (R311) -/

def Page.covers (p : Page) (va : Nat) : Bool := decide (p.base ≤ va) && decide (va < p.base + p.size)

def findPage : List Page → Nat → Option Page
  | [], _ => none
  | p :: t, va => if p.covers va then some p else findPage t va

/-- A page becomes the most recently used of a list. -/
def touchPage (l : List Page) (p : Page) : List Page := p :: l.filter fun q => q.base != p.base || q.size != p.size

def reqCore : Requester → Nat
  | .context c _ => c
  | .stream c _ _ => c
  | .drain c _ => c
  | .engineSrc c _ => c
  | .engineDst c _ => c
  | .fetch c _ => c

/-- Key of a copy engine's entry; none for the matrix engine, which uses the micro cache (R311). -/
def ctlbKey (q : EngineQ) (dst : Bool) : Option Nat :=
  match q with
  | .mxq => none
  | .cpq0 => some (if dst then 1 else 0)
  | .cpq1 => some (if dst then 3 else 2)

/-- The page a requester's own holder has for an address. -/
def Core.held (c : Core) (r : Requester) (va : Nat) : Option Page :=
  match r with
  | .context _ _ => findPage c.utlb va
  | .fetch _ _ => findPage c.utlb va
  | .stream _ q n => match (c.streams.at q .blank).page with
    | some p => if (c.streams.at q .blank).serial = n ∧ p.covers va then some p else none
    | none => none
  | .drain _ n => match (c.drains.find? fun d => d.serial == n).bind fun d => d.page with
    | some p => if p.covers va then some p else none
    | none => none
  | .engineSrc _ q => match ctlbKey q false with
    | none => findPage c.utlb va
    | some k => match c.ctlb.look k with
      | some p => if p.covers va then some p else none
      | none => none
  | .engineDst _ q => match ctlbKey q true with
    | none => findPage c.utlb va
    | some k => match c.ctlb.look k with
      | some p => if p.covers va then some p else none
      | none => none

/-- A page arrives at the address generator of a stream's binding: in its register, or where it sends on unbound; one that has
ended takes nothing, and the stream bound there since keeps its own entry (R23, R104). -/
def Core.fillStream (c : Core) (q serial : Nat) (p : Page) : Core :=
  if (c.streams.at q .blank).serial = serial then
    { c with streams := c.streams.put q { c.streams.at q .blank with page := some p, xlate := false } }
  else { c with drains := c.drains.map fun d => if d.serial = serial then { d with page := some p, xlate := false } else d }

/-- The requester's holder takes a page, replacing its least recently used entry (R311). -/
def Core.fill (c : Core) (r : Requester) (p : Page) : Core :=
  let micro := { c with utlb := (touchPage c.utlb p).take 16 }
  match r with
  | .context _ _ => micro
  | .fetch _ _ => micro
  | .stream _ q n => c.fillStream q n p
  | .drain _ n => { c with drains := c.drains.map fun d => if d.serial = n then { d with page := some p, xlate := false } else d }
  | .engineSrc _ q => match ctlbKey q false with
    | none => micro
    | some k => { c with ctlb := c.ctlb.put k p }
  | .engineDst _ q => match ctlbKey q true with
    | none => micro
    | some k => { c with ctlb := c.ctlb.put k p }

/-- Set index of the die translation cache for a page size (R311). -/
def dtcSet (va size : Nat) : Nat :=
  if size = 0x1_0000 then bits va 25 16 else if size = 0x20_0000 then bits va 30 21 else bits va 35 26

/-- Probe of all three sets (R311). -/
def Die.probe (d : Die) (va : Nat) : Option Page :=
  let at' : Nat → Option Page := fun size => match findPage (d.dtc.at (dtcSet va size) []) va with
    | some p => if p.size = size then some p else none
    | none => none
  match at' 0x1_0000 with
  | some p => some p
  | none => match at' 0x20_0000 with
    | some p => some p
    | none => at' 0x400_0000

def Die.fillCache (d : Die) (p : Page) : Die :=
  let k := dtcSet p.base p.size
  { d with dtc := d.dtc.put k ((touchPage (d.dtc.at k []) p).take 8) }

/-- Number telling one use of a requester from the next, so that a fault reaches the use that met it. -/
def State.reqEpoch (s : State) (r : Requester) : Nat :=
  match r with
  | .context c x => (s.ctx c x).epoch
  | .fetch c x => (s.ctx c x).epoch
  | .stream _ _ n => n
  | .drain _ n => n
  | .engineSrc c q => match (s.core c).jobs.look (match q with | .mxq => 0 | .cpq0 => 1 | .cpq1 => 2) with
    | some j => j.cmd.stamp
    | none => 0
  | .engineDst c q => match (s.core c).jobs.look (match q with | .mxq => 0 | .cpq0 => 1 | .cpq1 => 2) with
    | some j => j.cmd.stamp
    | none => 0

/-- The requester already waits for this page. -/
def Die.waiting (d : Die) (page : Nat) (r : Requester) : Bool :=
  d.walks.any (fun w => w.page == page && w.reqs.contains r) || d.missq.contains (page, r)
  || d.refusedMiss.contains (page, r) || d.busyWait.contains (page, r)

/-- A miss in the die cache: join a walk, take a walker, wait in the miss queue or be refused (R312). -/
def Die.miss (d : Die) (page : Nat) (r : Requester) : Die :=
  if d.walks.any fun w => w.page == page then
    { d with walks := d.walks.map fun w => if w.page = page then { w with reqs := w.reqs ++ [r] } else w }
  else if d.walks.length < 96 then { d with walks := d.walks ++ [⟨page, [r]⟩] }
  else if d.missq.length < 256 then { d with missq := d.missq ++ [(page, r)] }
  else { d with refusedMiss := d.refusedMiss ++ [(page, r)] }

/-- A stream that waits for a refill shows xlate = 1 (R104). -/
def State.markXlate (s : State) (r : Requester) : State :=
  match r with
  | .stream c q n =>
    let k := s.core c
    if (k.streams.at q .blank).serial = n then
      s.setCore c { k with streams := k.streams.put q { k.streams.at q .blank with xlate := true } }
    else s
  | .context _ _ => s
  | .fetch _ _ => s
  | .drain c n =>
    let k := s.core c
    s.setCore c { k with drains := k.drains.map fun d => if d.serial = n then { d with xlate := true } else d }
  | .engineSrc _ _ => s
  | .engineDst _ _ => s

/-- The leaf for an address: from the requester's holder, from the die cache, or after a walk (R311, R312). A requester whose own
walk has failed takes its fault, whatever a later walk has found (R313). -/
inductive LeafFound where
  | found (s : State) (p : Page)
  | wait (s : State)
  | none (s : State)

def State.leafFor (s : State) (r : Requester) (va : Nat) : LeafFound :=
  let n := reqCore r
  let c := s.core n
  let dn := siteDie c.site
  let d := s.die dn
  let page := va / 0x1_0000
  let ep := s.reqEpoch r
  if d.failed.contains (page, r, ep) then
    .none (s.setDie dn { d with failed := d.failed.filter fun f => f != (page, r, ep) })
  else match c.held r va with
    | some p => .found (s.setCore n (c.fill r p)) p
    | none => match d.probe va with
      | some p => .found ((s.setCore n (c.fill r p)).setDie dn (d.fillCache p)) p
      | none =>
        if d.waiting page r then .wait s
        else .wait ((s.setDie dn (d.miss page r)).markXlate r)

/-! ### Checks (R307, R313) -/

/-- Offset of an address in the DRAM region of a window slot (R307). -/
def slotDramOff (va : Nat) : Option Nat :=
  if 0x400_0000_0000 ≤ va ∧ va < 0x800_0000_0000 ∧ 0x40_0000 ≤ va % 0x80_0000 then some (va % 0x80_0000 - 0x40_0000) else none

/-- The address lies in the top 128 KiB of a DRAM region: of the slot's region through the window, else of the region of
which the place is a part (R95, R307, R310). -/
def State.reservedDram (s : State) (va : Nat) (p : Place) : Bool :=
  match slotDramOff va with
  | some o => decide (o ≥ 0x3E_0000)
  | none => p.space == .dram && decide (s.regionOff p.owner p.off ≥ 0x3E_0000)

/-- The place a leaf maps an address to, with R313's checks 3 to 5. -/
def State.checkLeaf (s : State) (mode : Mode) (a : Acc) (va : Nat) (p : Page) : Loc ⊕ Nat :=
  let e := p.leaf.toNat
  let target := bits e 32 30
  let site := bits e 53 33
  let modl := bits e 63 54
  let off := bits e 29 20 * 0x1_0000 + (va - p.base)
  let isSync := target == 4
  if isSync && a.sync == 0 then .inr cSync
  else if !isSync && a.sync == 2 then .inr cAccess
  else if isSync && modl != s.moduleId then .inr cAccess
  else if (mode == .app && !bit e 8) || (a.r && !bit e 9) || (a.w && !bit e 10) || (a.x && !bit e 11) then .inr cAccess
  else
    let place : Place :=
      if target = 0 then ⟨.dram, site, off⟩
      else if target = 1 then ⟨.scratch, site, off⟩
      else if target = 2 then ⟨.cluster, siteCluster site, off⟩
      else if target = 3 then ⟨.die, siteDie site, off⟩
      else if target = 4 then ⟨.sync, siteDie site, off⟩
      else
        let j := off / 0x40_0000
        let sk := s.skip site
        ⟨.dram, site + (if j < sk then j else j + 1), off % 0x40_0000⟩
    if place.off ≥ place.space.size then .inr cAccess
    else if mode == .app && s.reservedDram va place then .inr cAccess
    else if s.bringup.sapling && (place.space == .dram || (place.space == .sync && place.off ≥ 0x70_0000)) then .inr cAccess
    else
      let dest := if target = 5 then place.owner else if modl = s.moduleId then s.homeSite place else site
      .inl ⟨modl, place, dest, bit e 13, bit e 12, bit e 14⟩

/-- An address in the logical-core window: the slot's core, or that the address is not usable (R307). -/
def State.slotBad (s : State) (va : Nat) : Bool :=
  if 0x400_0000_0000 ≤ va ∧ va < 0x800_0000_0000 then
    let n := (va - 0x400_0000_0000) / 0x80_0000
    let o := (va - 0x400_0000_0000) % 0x80_0000
    (s.siteOf n).isNone || (decide (o > 0x7FFF) && decide (o < 0x40_0000))
  else false

/-- Translation of an address at or above 2^32, or of the own DRAM range's window alias (R307, R311–R313). The scratchpad
of the own cluster is in the own cluster whichever page names it (R230). -/
def State.translateHigh (s : State) (who : Requester) (mode : Mode) (a : Acc) (va : Nat) (ownDram : Bool) : Xlate :=
  if s.slotBad va then .fault s cAccess
  else
    match s.leafFor who va with
    | .wait t => .wait t
    | .none t => .fault t cPage
    | .found t p =>
      if bit p.leaf.toNat 7 then .wait (t.markXlate who)
      else match t.checkLeaf mode a va p with
        | .inr cause => .fault t cause
        | .inl l =>
          let n := reqCore who
          let mine := ownDram || (decide (winBase n + 0x40_0000 ≤ va) && decide (va < winBase n + 0x80_0000))
          .ok t l (l.mod == t.moduleId && l.place.space == .cluster && l.place.owner == coreCluster n) mine

/-- A location in the untranslated part of the core-local map. -/
def State.nearLoc (s : State) (p : Place) : Loc := ⟨s.moduleId, p, s.homeSite p, false, false, false⟩

/-- Translation of any address for a requester of a core (R96, R97, R306, R313). -/
def State.translate (s : State) (who : Requester) (mode : Mode) (a : Acc) (va : Nat) : Xlate :=
  let n := reqCore who
  if va ≥ 2 ^ 48 then .fault s cAccess
  else if va < 0x8000 then
    if a.sync = 2 then .fault s cAccess
    else .ok s (s.nearLoc ⟨.scratch, (s.core n).site, va⟩) true false
  else if 0x4000_0000 ≤ va ∧ va < 0x4040_0000 then
    s.translateHigh who mode a (winBase n + 0x40_0000 + (va - 0x4000_0000)) true
  else if a.x then .fault s cAccess
  else if va < 2 ^ 32 then
    if a.sync = 2 then .fault s cAccess
    else if 0x40_0000 ≤ va ∧ va < 0x80_0000 then
      match s.siteOf (windowCore n ((va - 0x40_0000) / 0x8000)) with
      | none => .fault s cAccess
      | some t => .ok s (s.nearLoc ⟨.scratch, t, va % 0x8000⟩) true false
    else if 0x80_0000 ≤ va ∧ va < 0xA0_0000 then
      .ok s (s.nearLoc ⟨.cluster, coreCluster n, va - 0x80_0000⟩) true false
    else .fault s cAccess
  else s.translateHigh who mode a va false

/-- The leaf of an address is being moved: an access that die 0's table serves directly waits (R313, R314). -/
def State.busyAt (s : State) (va : Nat) : Bool :=
  decide (2 ^ 32 ≤ va) && decide (va < 2 ^ 48) && !s.slotBad va && (match s.walkTable 0 va with
    | .leaf p => bit p.leaf.toNat 7
    | .none => false
    | .malformed _ => false)

/-- The malformed entry a walk for an address meets (R309). -/
def State.badLeafAt (s : State) (va : Nat) : Option Nat :=
  if va < 2 ^ 32 ∨ 2 ^ 48 ≤ va ∨ s.slotBad va then none
  else match s.walkTable 0 va with
    | .leaf _ => none
    | .none => none
    | .malformed e => some e

/-- XLATE_BAD records the entry, as its detail word and its bytes (R309, DESIGN CHOICE, log entry 103). -/
def State.logBadLeaf (s : State) (die e : Nat) : State := s.log die evXlateBad (s.engineSite die) none (w64 e) [w64 e]

/-- Translation by the host or by die management, straight from die 0's copy of the table (R343). -/
def State.translateDirect (s : State) (mode : Mode) (a : Acc) (va : Nat) : Loc ⊕ Nat :=
  if va ≥ 2 ^ 48 ∨ va < 2 ^ 32 then .inr cAccess
  else if s.slotBad va then .inr cAccess
  else match s.walkTable 0 va with
    | .leaf p => s.checkLeaf mode a va p
    | .none => .inr cPage
    | .malformed _ => .inr cPage

/-! ### Entries and their pages (R309, R311, R314) -/

/-- Offset of the entry a leaf of `level` for an address occupies, none when a table on the way is missing (R309). -/
def State.leafSlot (s : State) (va level : Nat) : Option Nat :=
  let e0 := s.ptEntry 0 (rootTable + 8 * bits va 47 36)
  if !bit e0 0 ∨ bit e0 1 then none
  else
    let o1 := tableOff e0 + 8 * bits va 35 26
    if level = 1 then some o1
    else
      let e1 := s.ptEntry 0 o1
      if !bit e1 0 ∨ bit e1 1 then none
      else
        let o2 := tableOff e1 + 8 * bits va 25 21
        if level = 2 then some o2
        else
          let e2 := s.ptEntry 0 o2
          if !bit e2 0 ∨ bit e2 1 then none else some (tableOff e2 + 8 * bits va 20 16)

/-- Level and bytes of a page of a leaf (R309). -/
def leafLevel (e : Nat) : Nat := 3 - bits e 16 15
def leafSize (e : Nat) : Nat := match bits e 16 15 with
  | 0 => 0x1_0000 | 1 => 0x20_0000 | _ => 0x400_0000

/-- The runs of physical memory a leaf maps, in ascending address order: first place and bytes. -/
def State.leafRuns (s : State) (e : Nat) : List (Place × Nat) :=
  let site := bits e 53 33
  let off := bits e 29 20 * 0x1_0000
  let n := leafSize e
  match bits e 32 30 with
  | 0 => [(⟨.dram, site, off⟩, n)]
  | 1 => [(⟨.scratch, site, off⟩, n)]
  | 2 => [(⟨.cluster, siteCluster site, off⟩, n)]
  | 3 => [(⟨.die, siteDie site, off⟩, n)]
  | 4 => [(⟨.sync, siteDie site, off⟩, n)]
  | _ =>
    let k := s.skip site
    (List.range 16).map fun j => (⟨.dram, site + (if j < k then j else j + 1), 0⟩, 0x40_0000)

/-- Write one entry in every die's copy of the table. -/
def State.writeEntry (s : State) (off e : Nat) : State :=
  (List.range 64).foldl (fun t d => t.writePlace ⟨.die, d, off⟩ (natLE 8 e)) s

/-- Drop a page from a list of held pages. -/
def dropPage (l : List Page) (base size : Nat) : List Page :=
  l.filter fun p => !(decide (p.base < base + size) && decide (base < p.base + p.size))

/-- A stream's entry without a page. -/
def Stream.forget (st : Stream) (base size : Nat) : Stream :=
  match st.page with
  | some p => if decide (p.base < base + size) && decide (base < p.base + p.size) then { st with page := none } else st
  | none => st

/-- A core's holders without a page. -/
def Core.forget (c : Core) (base size : Nat) : Core :=
  let hit : Page → Bool := fun p => decide (p.base < base + size) && decide (base < p.base + p.size)
  { c with
    utlb := dropPage c.utlb base size
    ctlb := c.ctlb.filter fun e => !hit e.2
    streams := c.streams.mapV fun _ st => st.forget base size
    drains := c.drains.map fun st => st.forget base size }

/-- The address in the logical-core window that an address of core `n`'s own DRAM range stands for; another address stands for
itself (R96, R306). -/
def windowVa (n va : Nat) : Nat :=
  if 0x4000_0000 ≤ va ∧ va < 0x4040_0000 then winBase n + 0x40_0000 + (va - 0x4000_0000) else va

/-- The finished checks of a context of core `n` without those made under a page: all are made again (R146, R314). -/
def Ctx.forget (x : Ctx) (n base size : Nat) : Ctx :=
  { x with checks := match x.checks with
      | some k =>
        if k.done.any fun e => decide (base ≤ windowVa n e.va) && decide (windowVa n e.va < base + size) then none else some k
      | none => none }

/-- The page leaves every holder of the module (R311, R314). -/
def State.forgetPage (s : State) (base size : Nat) : State :=
  { s with
    cores := s.cores.mapV fun _ c => c.forget base size
    ctxs := s.ctxs.mapV fun k x => x.forget (k / 4) base size
    dies := s.dies.mapV fun _ d => { d with dtc := d.dtc.mapV fun _ l => dropPage l base size } }

end Sys2Proof.Machine
end

