-- ==== Sys2Proof/Machine/Spare.lean ====
section
/-! DEFINITION. Spare and fenced sites, the start and the abandonment of a move, the end of a pair, and the page-table
entries a move rewrites (R205–R211, R257, R264, R307, R309). -/

namespace Sys2Proof.Machine

open Sys2Proof

/-! ### Sites -/

/-- A site leaves service (R264, R326). -/
def State.fence (s : State) (site : Nat) : State := s.setSite site { s.site site with state := .fenced }

/-- A number names a site of the module in state spare (R204, R207). -/
def State.isSpare (s : State) (site : Nat) : Bool := siteExists site && (s.site site).state == .spare

/-- The sites of a die in ascending order. -/
def dieSites (d : Nat) : List Nat :=
  (List.range 64).flatMap fun y => (List.range 136).map fun x => mkSite (136 * (d % 8) + x) (64 * (d / 8) + y)

/-- The spare site of a die that management chooses: the first that no move has marked (log entry 18). -/
def State.spareIn (s : State) (d : Nat) : Option Nat :=
  (dieSites d).find? fun x => s.isSpare x && (s.site x).migTarget.isNone

/-- A move of a core to a site begins: activations may still end, none starts (R207). A site that another move has marked takes
the new mark (DESIGN CHOICE, log entry 96). -/
def State.beginMove (s : State) (core target : Nat) (full dark : Bool) : State :=
  let t := s.setCore core { s.core core with mig := some { target, full, phase := 0, part := 0, unit := 0, since := s.now, dark, leaves := [] } }
  t.setSite target { t.site target with migTarget := some core }

/-! ### The end of a pair (R205, R206) -/

/-- The pair is over: what waits for its twin enters the router. -/
def State.unpair (s : State) (core : Nat) : State :=
  let c := s.core core
  match c.pair with
  | none => s
  | some p => p.waiting.foldl (fun t w => t.inject c.site w.pkt) (s.setCore core { c with pair := none })

/-- The die dissolves a pair: both sites are fenced, and the core moves to a spare site of the die, if it has one. -/
def State.dissolve (s : State) (core : Nat) : State :=
  let c := s.core core
  match c.pair with
  | none => s
  | some p =>
    let s1 := s.unpair core
    let s2 := s1.setSite p.shadow { s1.site p.shadow with state := .fenced, shadowOf := none }
    let s3 := s2.fence c.site
    match s3.spareIn (siteDie c.site) with
    | none => s3
    | some t => s3.beginMove core t false false

/-- A trap context has ended by TRET; that of a second mismatch takes its pair with it (R205). `epoch`: the context's before its
end. -/
def State.afterTrap (s : State) (core ctx epoch : Nat) : State :=
  match (s.core core).pair with
  | none => s
  | some p => if p.broken = some (ctx, epoch) then s.dissolve core else s

/-! ### Page-table entries (R307, R309, R314) -/

/-- Offsets of a rising list of offsets, each 8-byte entry once. -/
def entriesOf : List Nat → List Nat
  | [] => []
  | o :: t => match entriesOf t with
    | [] => [8 * (o / 8)]
    | p :: r => if 8 * (o / 8) = p then p :: r else 8 * (o / 8) :: p :: r

/-- Offsets of the entries of the page table that are not 0, ascending (R308). -/
def State.tableEntries (s : State) : List Nat :=
  let base := (⟨.die, 0, 0⟩ : Place).phys
  entriesOf ((s.mem.part (base + rootTable) 0x20_0000).map fun c => c.1 - base)

/-- The valid leaves with their offsets. -/
def State.tableLeaves (s : State) : List (Nat × Nat) :=
  s.tableEntries.filterMap fun o =>
    let e := s.ptEntry 0 o
    if bit e 0 && bit e 1 then some (o, e) else none

/-- A leaf names the scratchpad of a site, or (`dram`) its DRAM region. -/
def leafNames (e site : Nat) (dram : Bool) : Bool :=
  decide (bits e 53 33 = site) && (bits e 32 30 == 1 || (dram && bits e 32 30 == 0))

/-- The leaf with another site. -/
def leafAt (e site : Nat) : Nat := e - bits e 53 33 * 2 ^ 33 + site * 2 ^ 33

/-- The leaf at a place of the DRAM above a site. -/
def leafTo (e : Nat) (p : Place) : Nat := leafAt e p.owner - bits e 29 20 * 2 ^ 20 + p.off / 0x1_0000 * 2 ^ 20

/-- The DRAM a leaf of target 0 names. -/
def leafPlace (e : Nat) : Place := ⟨.dram, bits e 53 33, bits e 29 20 * 0x1_0000⟩

/-- The leaves that name the DRAM region of a site. -/
def State.regionLeaves (s : State) (region : Nat) : List (Nat × Nat) :=
  s.tableLeaves.filter fun p => bits p.2 63 54 == s.moduleId && bits p.2 32 30 == 0 && bits p.2 53 33 == region

/-- The offset of a place in the DRAM region of a site: above the site itself, or in a spare bank that stands in for a bad one
(R310). -/
def State.inRegion (s : State) (region : Nat) (p : Place) : Option Nat :=
  match s.remaps.find? fun m => m.badSite == region && m.spareSite == p.owner && m.spareBank == bits p.off 21 19 with
  | some m => some (m.badBank * 0x8_0000 + p.off % 0x8_0000)
  | none => if p.owner = region then some p.off else none

/-- The places of the 8 banks of a site's DRAM region (R95, R310). -/
def State.regionBanks (s : State) (region : Nat) : List Place := (List.range 8).map fun b => s.regionPlace region (b * 0x8_0000)

/-! ### Copies of memory (R204, R208) -/

/-- A run of memory and its poison are copied from a state over another run. -/
def State.copyFrom (s : State) (src : State) (a b : Place) (n : Nat) : State :=
  let p := a.phys
  let q := b.phys
  let carried := (src.poison.flatMap fun r => cutRun 0 (p / 32) r).flatMap (cutRun ((p + n) / 32) (2 ^ 62))
  { s with
    mem := s.mem.takeRun src.mem p q n
    poison := unpoison s.poison q n ++ carried.map fun r => (r.1 - p / 32 + q / 32, r.2) }

/-- The scratchpad of one site is copied to another's. -/
def State.copyScratch (s : State) (a b : Nat) : State := s.copyFrom s ⟨.scratch, a, 0⟩ ⟨.scratch, b, 0⟩ 0x8000

/-- The DRAM region of one site is copied to another's, bank by bank, wherever the banks lie (R208, R310). -/
def State.copyRegion (s : State) (a b : Nat) : State :=
  ((s.regionBanks a).zip (s.regionBanks b)).foldl (fun t p => t.copyFrom s p.1 p.2 0x8_0000) s

/-- Runs of 256 bytes of the table area that the tables in use take: a table of level 1 has 8 KiB, of level 2 or 3 256 bytes,
and the root 32 KiB (R309). -/
def State.tableRuns (s : State) : List (Nat × Nat) :=
  (rootTable / 256, 128) :: s.tableEntries.filterMap fun o =>
    let e := s.ptEntry 0 o
    if bit e 0 && !bit e 1 then some (tableOff e / 256, if o < rootTable + 0x8000 then 32 else 1) else none

/-- The first `n` free places of 256 bytes in the table area, none when there are not as many (log entry 18). -/
def State.freeTables (s : State) (n : Nat) : Option (List Nat) :=
  let runs := s.tableRuns
  let free := (List.range 0x2000).filter fun i =>
    !(runs.any fun r => decide (r.1 ≤ rootTable / 256 + i) && decide (rootTable / 256 + i < r.1 + r.2))
  if n ≤ free.length then some ((free.take n).map fun i => rootTable + 256 * i) else none

/-- Drop the pages of a set of leaves from every holder (R314 step 2). Which addresses a leaf maps is not kept with it, so
every held page that names the same memory goes. -/
def State.dropLeaves (s : State) (ls : List Nat) : State :=
  let hit : Page → Bool := fun p => ls.any fun l => l == p.leaf.toNat
  let keep : List Page → List Page := fun l => l.filter fun p => !hit p
  { s with
    cores := s.cores.mapV fun _ c => { c with
      utlb := keep c.utlb
      ctlb := c.ctlb.filter fun e => !hit e.2
      streams := c.streams.mapV fun _ st => match st.page with
        | some p => if hit p then { st with page := none } else st
        | none => st
      drains := c.drains.map fun st => match st.page with
        | some p => if hit p then { st with page := none } else st
        | none => st }
    ctxs := s.ctxs.mapV fun _ x => { x with checks := none }
    dies := s.dies.mapV fun _ d => { d with dtc := d.dtc.mapV fun _ l => keep l } }

/-- A target-5 page becomes 1,024 pages of 64 KiB of target 0 (R309): one table of level 2 and 32 of level 3 in free places
of the area; its own page leaves every holder. None when the area has no room for them. -/
def State.splitRow (s : State) (off e : Nat) : Option State :=
  (s.freeTables 33).map fun ts =>
    let site := bits e 53 33
    let k := s.skip site
    let common := e % 2 ^ 15 + bits e 63 54 * 2 ^ 54
    let leaf : Nat → Nat := fun i =>
      let j := i / 64
      common + (site + (if j < k then j else j + 1)) * 2 ^ 33 + (i % 64) * 2 ^ 20
    let at' : Nat → Nat := fun i => ts.getD i 0
    let s1 := (List.range 1024).foldl (fun t i => t.writeEntry (at' (1 + i / 32) + 8 * (i % 32)) (leaf i)) s
    let s2 := (List.range 32).foldl (fun t i => t.writeEntry (at' 0 + 8 * i) (at' (1 + i) + 1)) s1
    (s2.writeEntry off (at' 0 + 1)).dropLeaves [e]

/-- Every target-5 page over the row of a site is split before one of its cores moves or has a bank remapped (R309); none when
one cannot be. -/
def State.splitRows (s : State) (site : Nat) : Option State :=
  (s.tableLeaves.filter fun p => bits p.2 32 30 == 5 && siteRowKey (bits p.2 53 33) == siteRowKey site).foldl
    (fun t p => t.bind fun u => u.splitRow p.1 p.2) (some s)

/-- Set `busy` in a set of leaves and drop their pages from every holder (R314 steps 1 and 2). -/
def State.busyLeaves (s : State) (ls : List (Nat × Nat)) : State :=
  (ls.foldl (fun u l => u.writeEntry l.1 (l.2 + (if bit l.2 7 then 0 else 128))) s).dropLeaves (ls.map fun l => l.2)

/-! ### Abandoning a move (R211) -/

/-- Transfer packets of a core that have come to a site which is its target no longer are discarded (R209). -/
def State.discardMove (s : State) (core target : Nat) : State :=
  (s.net.filter fun f => f.site == target && f.spot == .eject 0 && f.pkt.hdr.kind == .migrate && f.pkt.hdr.score == core).foldl
    (fun t f => (t.consume f.id).log (siteDie target) evRouteDrop target none 0 (Packet.dwords f.pkt)) s

/-- The source takes activations again, the leaves are as before; an error of the transfer or the target fences the
target (R211). -/
def State.abandonMove (s : State) (core : Nat) (fenced : Bool) : State :=
  let c := s.core core
  match c.mig with
  | none => s
  | some m =>
    let s1 := m.leaves.foldl (fun t l => t.writeEntry l.1 l.2) (s.setCore core { c with mig := none })
    let e := s1.site m.target
    let s2 := s1.setSite m.target { e with
      migTarget := if e.migTarget = some core then none else e.migTarget
      state := if fenced then .fenced else e.state }
    (s2.discardMove core m.target).logCore core evMigAbandon (w64 m.target) []

end Sys2Proof.Machine
end

