-- ==== Sys2Proof/Machine/Control.lean ====
section
/-! DEFINITION. Jumps, branches, calls to the system and CSR instructions (R34, R60, R62, R63). -/

namespace Sys2Proof.Machine

/-- A control transfer of the context in focus; a target that is not a multiple of 4 traps (R34). -/
def State.jump (s : State) (target : Word) (link : Ctx → Ctx) : Host.Outcome State Fault Refusal :=
  if target.toNat % 4 ≠ 0 then s.trapOut cMisaligned target
  else .next (s.setMe { link s.me with pc := target })

/-- A branch: to pc + imm when the comparison holds (R60). -/
def State.branch (s : State) (taken : Bool) (imm : BitVec 12) : Host.Outcome State Fault Refusal :=
  if taken then s.jump (s.me.pc + immB imm) id else .next s.pass

/-- JAL (R60). -/
def execJal (d : Reg) (imm : BitVec 20) (s : State) : Host.Outcome State Fault Refusal :=
  s.jump (s.me.pc + immJ imm) fun c => c.writeX d (c.pc + 4)

/-- JALR: the target has bit 0 cleared; x[a] is read before rd is written (R60). -/
def execJalr (d a : Reg) (imm : BitVec 12) (s : State) : Host.Outcome State Fault Refusal :=
  s.jump ((s.x a + imm12 imm) &&& ~~~ 1#64) fun c => c.writeX d (c.pc + 4)

/-- BEQ (R60). -/
def execBeq (a b : Reg) (imm : BitVec 12) (s : State) : Host.Outcome State Fault Refusal :=
  s.branch (s.x a == s.x b) imm

/-- BNE (R60). -/
def execBne (a b : Reg) (imm : BitVec 12) (s : State) : Host.Outcome State Fault Refusal :=
  s.branch (s.x a != s.x b) imm

/-- BLT (R60). -/
def execBlt (a b : Reg) (imm : BitVec 12) (s : State) : Host.Outcome State Fault Refusal :=
  s.branch ((s.x a).slt (s.x b)) imm

/-- BGE (R60). -/
def execBge (a b : Reg) (imm : BitVec 12) (s : State) : Host.Outcome State Fault Refusal :=
  s.branch (!(s.x a).slt (s.x b)) imm

/-- BLTU (R60). -/
def execBltu (a b : Reg) (imm : BitVec 12) (s : State) : Host.Outcome State Fault Refusal :=
  s.branch ((s.x a).ult (s.x b)) imm

/-- BGEU (R60). -/
def execBgeu (a b : Reg) (imm : BitVec 12) (s : State) : Host.Outcome State Fault Refusal :=
  s.branch (!(s.x a).ult (s.x b)) imm

/-- ECALL raises its trap with TRAPVAL = 0 (R63). -/
def execEcall (s : State) : Host.Outcome State Fault Refusal := s.trapOut cEcall 0

/-- EBREAK raises its trap with its own address (R63). -/
def execEbreak (s : State) : Host.Outcome State Fault Refusal := s.trapOut cEbreak s.me.pc

/-- What is known of the cycle of a CSR write: the formats and scales from before it (R159), the flags the engine set in it
(R157), and that a new ACTLIM was written in it (R28). -/
def Core.afterCsr (c old : Core) (r : Csr) (now : Nat) : Core :=
  { c with
    actlimAt := if r = .actlim then some now else c.actlimAt
    mxOld := if old.mxOld.1 = now then old.mxOld
             else (now, ⟨old.mxfmta.toNat, old.mxfmtb.toNat, old.mxsca.toNat, old.mxscb.toNat⟩)
    mxflags := if old.mxSet.1 = now then c.mxflags ||| (old.mxSet.2 &&& old.mxflags) else c.mxflags }

/-- A Zicsr instruction (R38, R62): rd receives the value before the write; `val` is none for a form that does not
write. -/
def State.csrAct (s : State) (word : Word) (d : Reg) (csr : BitVec 12) (val : Word → Option Word) :
    Host.Outcome State Fault Refusal :=
  let a := csr.toNat
  match csrOf a with
  | none => s.trapOut cIllegal word
  | some r =>
    if csrSystem a && s.me.mode == .app then s.trapOut cIllegal word
    else
      let old := csrRead s.myCore s.me r
      match val old with
      | none => .next (s.putX d old)
      | some v =>
        if csrReadOnly a then s.trapOut cIllegal word
        else
          let q := csrWrite s.myCore s.me r v
          .next (((s.setMyCore (q.1.afterCsr s.myCore r s.now)).setMe q.2).putX d old)

/-- CSRRW (R62). -/
def execCsrrw (d a : Reg) (csr : BitVec 12) (s : State) : Host.Outcome State Fault Refusal :=
  s.csrAct (wordOf (.csrrw d a csr)) d csr (fun _ => some (s.x a))

/-- CSRRS (R62). -/
def execCsrrs (d a : Reg) (csr : BitVec 12) (s : State) : Host.Outcome State Fault Refusal :=
  s.csrAct (wordOf (.csrrs d a csr)) d csr (fun old => if a = 0#5 then none else some (old ||| s.x a))

/-- CSRRC (R62). -/
def execCsrrc (d a : Reg) (csr : BitVec 12) (s : State) : Host.Outcome State Fault Refusal :=
  s.csrAct (wordOf (.csrrc d a csr)) d csr (fun old => if a = 0#5 then none else some (old &&& ~~~ s.x a))

/-- CSRRWI (R62). -/
def execCsrrwi (d : Reg) (u : BitVec 5) (csr : BitVec 12) (s : State) : Host.Outcome State Fault Refusal :=
  s.csrAct (wordOf (.csrrwi d u csr)) d csr (fun _ => some (u.setWidth 64))

/-- CSRRSI (R62). -/
def execCsrrsi (d : Reg) (u : BitVec 5) (csr : BitVec 12) (s : State) : Host.Outcome State Fault Refusal :=
  s.csrAct (wordOf (.csrrsi d u csr)) d csr (fun old => if u = 0#5 then none else some (old ||| u.setWidth 64))

/-- CSRRCI (R62). -/
def execCsrrci (d : Reg) (u : BitVec 5) (csr : BitVec 12) (s : State) : Host.Outcome State Fault Refusal :=
  s.csrAct (wordOf (.csrrci d u csr)) d csr (fun old => if u = 0#5 then none else some (old &&& ~~~ (u.setWidth 64)))

end Sys2Proof.Machine
end

