-- ==== Sys2Proof/Machine/Trace.lean ====
section
/-! DEFINITION. Dependence recording and dirty marking (R345–R354). -/

namespace Sys2Proof.Machine

/-- The tiles `n` bytes at a place touch; sync space has none (R345). -/
def tiles (p : Place) (n : Nat) : Option Range :=
  let first := p.off / 4096
  let last := (p.off + (if n = 0 then 1 else n) - 1) / 4096
  match p.space with
  | .dram => some ⟨0, p.owner, first, last - first⟩
  | .scratch => some ⟨1, p.owner, first, last - first⟩
  | .cluster => some ⟨2, p.owner, first, last - first⟩
  | .die => some ⟨3, p.owner, first, last - first⟩
  | .sync => none

/-- Two ranges of one space and owner that overlap (R355). -/
def Range.meets (a b : Range) : Bool :=
  a.space == b.space && a.owner == b.owner && decide (a.first ≤ b.first + b.cnt) && decide (b.first ≤ a.first + a.cnt)

/-- Overlapping or adjoining ranges (R348). -/
def Range.joins (a b : Range) : Bool :=
  a.space == b.space && a.owner == b.owner && decide (a.first ≤ b.first + b.cnt + 1)
  && decide (b.first ≤ a.first + a.cnt + 1)

/-- The union of two ranges that join. -/
def Range.join (a b : Range) : Range :=
  let lo := if a.first < b.first then a.first else b.first
  let ha := a.first + a.cnt
  let hb := b.first + b.cnt
  { a with first := lo, cnt := (if ha < hb then hb else ha) - lo }

/-- `a` lies within `b`. -/
def Range.within (a b : Range) : Bool :=
  a.space == b.space && a.owner == b.owner && decide (b.first ≤ a.first) && decide (a.first + a.cnt ≤ b.first + b.cnt)

/-- A range entry's 8 bytes (R346). -/
def Range.word (r : Range) : Word := w64 (r.space * 2 ^ 61 + r.owner * 2 ^ 40 + r.first * 2 ^ 27 + r.cnt * 2 ^ 14)

/-- The range an entry names (R346). -/
def Range.ofNat (x : Nat) : Range := ⟨bits x 63 61, bits x 60 40, bits x 39 27, bits x 26 14⟩

def State.setTrace (s : State) (n : Nat) (t : Trace) : State := s.setCore n { s.core n with trace := t }

/-- A block that records saturates (R351). -/
def State.saturateNow (s : State) (n reason : Nat) : State :=
  let t := (s.core n).trace
  if t.recording && !t.sat then s.setTrace n { t with sat := true, reason } else s

/-- One entry goes to the trace store; a set of 4,096 entries saturates the block instead (R347, R348). -/
def State.storeEntry (s : State) (n : Nat) (write : Bool) (r : Range) : State :=
  let c := s.core n
  let t := c.trace
  let cnt := if write then t.wcnt else t.rcnt
  if cnt ≥ 4096 then s.saturateNow n (if write then 2 else 1)
  else
    let off := 0x3E_0000 + (if write then 0x8000 else 0) + 8 * cnt
    let s1 := s.putRegion c.region off [r.word]
    s1.setTrace n (if write then { t with wcnt := cnt + 1 } else { t with rcnt := cnt + 1 })

/-- First buffer entry the range extends. -/
def bufFind : FMap BufEntry → Bool → Range → Option (Nat × BufEntry)
  | [], _, _ => none
  | (i, e) :: t, w, r => if e.write = w && e.range.joins r then some (i, e) else bufFind t w r

/-- Lowest free entry of the 16. -/
def bufFree (b : FMap BufEntry) : Option Nat := ((List.range 16).filter fun i => (b.look i).isNone).head?

/-- Entry least recently extended. -/
def bufOldest : FMap BufEntry → Option (Nat × BufEntry) → Option (Nat × BufEntry)
  | [], o => o
  | (i, e) :: t, none => bufOldest t (some (i, e))
  | (i, e) :: t, some (j, f) => bufOldest t (if e.used < f.used then some (i, e) else some (j, f))

/-- A range enters the coalescing buffer (R348). -/
def State.bufferRange (s : State) (n : Nat) (write : Bool) (r : Range) : State :=
  let t := (s.core n).trace
  if !t.recording || t.sat then s
  else
    match bufFind t.buf write r with
    | some (i, e) =>
      (s.setTrace n { t with buf := t.buf.put i { e with range := e.range.join r, used := s.fresh } }).tick
    | none =>
      match bufFree t.buf with
      | some i => (s.setTrace n { t with buf := t.buf.put i ⟨write, r, s.fresh⟩ }).tick
      | none =>
        match bufOldest t.buf none with
        | none => s
        | some (i, e) =>
          let s1 := s.storeEntry n e.write e.range
          let t1 := (s1.core n).trace
          (s1.setTrace n { t1 with buf := t1.buf.put i ⟨write, r, s.fresh⟩ }).tick

/-- The tied senders of completed marker sets are recorded (R350). -/
def State.recordTies (s : State) (n : Nat) : State :=
  let t := (s.core n).trace
  match t.ties with
  | [] => s
  | l => l.foldl (fun u p => u.bufferRange n false ⟨4, p, 0, 0⟩) (s.setTrace n { t with ties := [] })

/-- A range is recorded, after what was due before it (R348–R350). -/
def State.recordRange (s : State) (n : Nat) (write : Bool) (r : Range) : State := (s.recordTies n).bufferRange n write r

/-- The block saturates, after what was due before it (R351). -/
def State.saturate (s : State) (n reason : Nat) : State := (s.recordTies n).saturateNow n reason

/-- Every entry of the buffer is written, in ascending entry order (R348, R360). -/
def State.flushTrace (s0 : State) (n : Nat) : State :=
  let s := s0.recordTies n
  let t := (s.core n).trace
  let s1 := t.buf.foldl (fun u p => u.storeEntry n p.2.write p.2.range) s
  s1.setTrace n { (s1.core n).trace with buf := [] }

/-- Record an access of a core's block (R349): not of own-scratchpad reads, NOTRACE pages or sync space; an access to
another module saturates the block. -/
def State.record (s : State) (n : Nat) (l : Loc) (size : Nat) (rd wr : Bool) : State :=
  let c := s.core n
  if !c.trace.recording || c.trace.sat then s
  else if l.mod != s.moduleId then s.saturate n 4
  else if l.notrace then s
  else
    match tiles l.place size with
    | none => s
    | some r =>
      let ownScratch := l.place.space == .scratch && l.place.owner == c.site
      let s1 := if rd && !ownScratch then s.recordRange n false r else s
      if wr then s1.recordRange n true r else s1

/-! ### Dirty marking (R353) -/

/-- Add a range unless it is covered. -/
def addRange (l : List Range) (r : Range) : List Range := if l.any fun q => r.within q then l else l ++ [r]

/-- The mode of the launch that has been taken: of its default launch command, until it has been checked, where it asks for that; 0
with none (R337, R353). -/
def State.runMode (s : State) : Nat :=
  match s.running with
  | none => 0
  | some u =>
    if u.cmd.kind ≠ 2 then 0
    else if u.cmd.dflt ∧ u.phase = 0 then (match s.image with
      | some i => bits (leNat (i.dflt.take 8)) 11 8
      | none => 0)
    else u.cmd.mode

/-- A write performed at a home marks its tiles (R353). `writer` is the writing core, none for the host. -/
def State.markWrite (s : State) (p : Place) (n : Nat) (writer : Option Nat) (tracked : Bool) : State :=
  match tiles p n with
  | none => s
  | some r =>
    let own := p.space == .scratch && (match writer with
      | some w => (s.core w).site == p.owner
      | none => false)
    let marks := !own && (p.space == .scratch || p.space == .cluster || tracked)
    if !marks then s
    else
      let late := writer.isNone && s.runMode != 0
      { s with coppice := { s.coppice with
          dirty := addRange s.coppice.dirty r
          late := if late then addRange s.coppice.late r else s.coppice.late } }

end Sys2Proof.Machine
end

