-- ==== Sys2Proof/Machine/Access.lean ====
section
/-! DEFINITION. Accesses from issue to completion: checks, translation and route at issue (R64), counts (R75), order of one
core's accesses to a unit (R272), the step at the home (R269, R291–R294), and what a reply writes (R65–R67). -/

namespace Sys2Proof.Machine

/-! ### Counts (R75) -/

def classCap : CountClass → Nat
  | .ld => 16 | .st => 32 | .cp => 32 | .mx => 16 | .sy => 16

def Ctx.count (x : Ctx) : CountClass → Nat
  | .ld => x.ld | .st => x.st | .sy => x.sy | .cp => 0 | .mx => 0

/-- The count of a class as RDCNT and WAITC see it (R75–R77). -/
def countOf (c : Core) (x : Ctx) : CountClass → Nat
  | .ld => x.ld | .st => x.st | .sy => x.sy | .cp => c.cp | .mx => c.mx

def Ctx.addCount (x : Ctx) (k : CountClass) (n : Nat) : Ctx :=
  match k with
  | .ld => { x with ld := x.ld + n }
  | .st => { x with st := x.st + n }
  | .sy => { x with sy := x.sy + n }
  | .cp => x
  | .mx => x

/-! ### Requests -/

def ownerCore : Owner → Option Nat
  | .ctx c _ _ => some c
  | .stream c _ _ => some c
  | .engine c _ _ => some c
  | .host _ => none

/-- The place and size a request acts on. -/
def Target.extent : Target → Place × Nat
  | .mem _ p n _ _ => (p, n)
  | .sync p op => match op with
    | .amo _ _ _ _ => (p, 8)
    | _ => (p, 32)
  | .pair _ _ p _ _ _ => (p, 32)

def Req.pending (r : Req) : Bool :=
  match r.stage with
  | .release => true | .queued => true | .going => true | .held _ => true
  | .performed _ _ _ => false | .back _ _ => false | .answered _ => false | .popped _ _ _ => false

def Req.waiting (r : Req) : Bool :=
  match r.stage with
  | .release => true | .queued => true
  | .held _ => false | .going => false | .performed _ _ _ => false | .back _ _ => false | .answered _ => false | .popped _ _ _ => false

/-- Module of the memory a request acts on: its own memory lies in this module, `home` (R397). -/
def Req.module (home : Nat) (r : Req) : Nat :=
  match r.route with
  | some (f, _) => f.dmod
  | none => home

/-- A request acts on a byte of a run of memory of a module. -/
def Req.touches (home : Nat) (r : Req) (m : Nat) (p : Place) (n : Nat) : Bool :=
  r.module home == m && r.target.extent.1.overlaps r.target.extent.2 p n

def Req.overlaps (home : Nat) (r q : Req) : Bool := r.touches home (q.module home) q.target.extent.1 q.target.extent.2

def Req.isHeld (r : Req) : Bool :=
  match r.stage with
  | .held _ => true
  | .release | .queued | .going | .performed _ _ _ | .back _ _ | .answered _ | .popped _ _ _ => false

def Owner.isCtx : Owner → Bool
  | .ctx _ _ _ => true
  | .stream _ _ _ => false
  | .engine _ _ _ => false
  | .host _ => false

def Target.isPair : Target → Bool
  | .pair _ _ _ _ _ _ => true
  | .mem _ _ _ _ _ => false
  | .sync _ _ => false

def isStore : Target → Bool
  | .mem .store _ _ _ _ => true
  | _ => false

/-- Stores to one home that travel on one route: they are performed in issue order (R237, R272). -/
def Req.storesOneWay (r q : Req) : Bool :=
  isStore r.target && isStore q.target && r.route == q.route && r.target.extent.1.sameHome q.target.extent.1

/-- `q` is ordered behind `r` and cannot yet leave: an earlier access of the core's contexts to its unit that has not left
or leaves by another way, or an earlier store on its route that waits behind such an access (R237, R272). A release holds
back accesses to its own unit only (R295). Accesses on one route stay in order by themselves once they have left; pairing
requests on different routes are not ordered, and one on the route of a waiting one waits as well (R250). -/
def Req.holdsBack (home : Nat) (r q : Req) : Bool :=
  decide (r.id < q.id) && r.pending && r.owner.isCtx && q.owner.isCtx && ownerCore r.owner == ownerCore q.owner
  && ((r.overlaps home q && (if r.target.isPair ∧ q.target.isPair then r.waiting && r.route == q.route
        else r.waiting || r.route != q.route))
      || (r.stage == .queued && r.storesOneWay q))

/-- The object of an injected PUSH that is still to be performed: it travels, or waits at its object (R243, R252). -/
def State.pushPlace (s : State) (id : Nat) : Option Place :=
  match s.net.findSome? fun f => match f.pkt.body with
    | .pairReq n .push _ p _ _ _ _ _ => if n = id then some p else none
    | _ => none with
  | some p => some p
  | none => s.dies.findSome? fun d => (d.2.waits.find? fun w => w.id == id && w.push.isSome).map fun w => ⟨.sync, d.1, w.base⟩

/-- An injected PUSH is still to be performed. -/
def State.pushOut (s : State) (id : Nat) : Bool := (s.pushPlace id).isSome

/-- An earlier PUSH of the core to the unit a request acts on has been injected and is still to be performed; no pairing request
waits for it (R250, R272). -/
def State.behindPush (s : State) (q : Req) : Bool :=
  !q.target.isPair && q.owner.isCtx && q.module s.moduleId == s.moduleId && (match ownerCore q.owner with
    | some n => (List.range 4).any fun k => (s.ctx n k).pushes.any fun id => decide (id < q.id) && (match s.pushPlace id with
      | some p => q.target.extent.1.overlaps q.target.extent.2 p 32
      | none => false)
    | none => false)

def State.heldBack (s : State) (q : Req) : Bool := (s.reqs.any fun r => r.holdsBack s.moduleId q) || s.behindPush q

/-- Acceptance number of the command an engine's access belongs to: it follows every own store issued before (R110). -/
def Owner.since : Owner → Nat
  | .engine _ _ n => n
  | .ctx _ _ _ => 0
  | .stream _ _ _ => 0
  | .host _ => 0

/-- One owner, or two contexts of a core. -/
def Owner.together (r q : Owner) : Bool := r == q || (r.isCtx && q.isCtx)

/-- An access to own memory may be performed: earlier accesses of the core to its unit are, and earlier stores of its
contexts, or of the same engine or stream, to one home are performed in issue order (R171, R237, R272). The held part of an
element waits for the other part, which it does not hold back (R270). -/
def State.ownReady (s : State) (q : Req) : Bool :=
  !(s.reqs.any fun r =>
      decide (r.id < q.id) && r.pending && !(r.isHeld && r.group == q.group) && r.route.isNone && ownerCore r.owner == ownerCore q.owner &&
      ((r.overlaps s.moduleId q && r.owner.together q.owner) ||
       (r.overlaps s.moduleId q && r.owner.isCtx && decide (r.id < q.owner.since)) ||
       (r.owner.together q.owner && r.storesOneWay q && r.stage != .release)))

/-- A store of the core to its own scratchpad that issued before acceptance number `n` is still to be performed: the
command accepted then is ordered behind it (R110, R280). -/
def State.ownStoreBefore (s : State) (core n : Nat) : Bool :=
  s.reqs.any fun r =>
    decide (r.id < n) && r.pending && r.owner.isCtx && ownerCore r.owner == some core && isStore r.target
    && r.target.extent.1.space == .scratch && r.target.extent.1.owner == (s.core core).site

def State.setReq (s : State) (r : Req) : State :=
  { s with reqs := s.reqs.map fun q => if q.id = r.id then r else q }

/-- The packet of a routed request (R220, R221, R245). -/
def State.reqPacket (s : State) (core : Nat) (r : Req) (fwd : Route) (ret : List Run) : Packet :=
  let site := (s.core core).site
  let port := homePort r.target.extent.1
  let runs := fwd.runs
  match r.target with
  | .mem op p n data cmp =>
    ⟨s.mkHeader .memReq port core site { fwd with runs := runs.map fun x => { x with pair := false } },
     .memReq r.id op p n data cmp ret false r.tracked⟩
  | .sync p op =>
    ⟨s.mkHeader .syncReq 3 core site { fwd with runs := runs.map fun x => { x with pair := false } },
     .syncReq r.id p op ret⟩
  | .pair op win p wide np v =>
    ⟨s.mkHeader .pairReq 3 core site fwd, .pairReq r.id op win p wide np v ret site⟩

/-- The activation that made an access, while it runs. -/
def State.senderOf (s : State) : Owner → Option Sender
  | .ctx core ctx epoch =>
    let x := s.ctx core ctx
    if x.epoch = epoch then x.act.map fun a => ⟨ctx, epoch, a⟩ else none
  | .stream _ _ _ => none
  | .engine _ _ _ => none
  | .host _ => none

/-- A request sets out: over its route, or to the core's own memory (R65). -/
def State.depart (s : State) (r : Req) : State :=
  let s1 := s.setReq { r with stage := .going }
  match r.route, ownerCore r.owner with
  | some (fwd, ret), some core => s1.emit core (s1.senderOf r.owner) (s1.reqPacket core r fwd ret)
  | _, _ => s1

/-- A request enters the list of outstanding accesses, and sets out unless it must wait. -/
def State.post (s : State) (r0 : Req) : State :=
  let r := { r0 with id := s.fresh, group := if r0.group = 0 then s.fresh + 1 else r0.group }
  let s1 := { s with fresh := s.fresh + 1 }
  if r.stage = .release then { s1 with reqs := s1.reqs ++ [r] }
  else if s1.heldBack r then { s1 with reqs := s1.reqs ++ [{ r with stage := .queued }] }
  else State.depart { s1 with reqs := s1.reqs ++ [r] } r

/-- Waiting requests of a core that nothing holds back any more set out, in issue order (R272). -/
def State.pump (s : State) (core : Nat) : State :=
  (s.reqs.filter fun r => r.stage == .queued && ownerCore r.owner == some core).foldl
    (fun t r => if t.heldBack r then t else t.depart r) s

/-- Every waiting request that nothing holds back any more sets out, in issue order (R250, R272). -/
def State.pumpAll (s : State) : State :=
  (s.reqs.filter fun r => r.stage == .queued).foldl (fun t r => if t.heldBack r then t else t.depart r) s

/-- A request's fields before it is posted. -/
def Req.blank : Req :=
  { id := 0, group := 0, owner := .host 0, cls := none, va := 0, pc := 0, target := .mem .load ⟨.dram, 0, 0⟩ 0 [] 0,
    dest := .none, holds := false, route := none, stage := .going, tracked := false, sealed := false }

/-- The owner of accesses of the context in focus. -/
def State.meOwner (s : State) : Owner := .ctx s.focus.core s.focus.ctx s.me.epoch

/-! ### Issue (R64) -/

def State.meWho (s : State) : Requester := .context s.focus.core s.focus.ctx

/-- Translate, record and route an access of `n` bytes of the context in focus, then go on. Faults carry the address (R64,
R231, R349). -/
def State.withAccess (s : State) (a : Acc) (va n : Nat) (needReply : Bool) (tv : Word)
    (k : State → Loc → Option (Route × List Run) → Act) : Act :=
  match s.translate s.meWho s.me.mode a va with
  | .wait t => .stall t
  | .fault t cause => .trap t cause tv
  | .ok t0 l near own =>
    let t := t0.record t0.focus.core l n a.r a.w
    match t.reach t.focus.core l near own needReply with
    | .miss v => .trap t cRouteMiss (w64 v)
    | .own => k t l none
    | .routed f r u => k u l (some (f, r))

/-- How the checks of an instruction's parts end (R10, R146). -/
inductive Checked where
  | ok (s : State) (l : List ElemAcc)
  | stop (a : Act)

/-- The context in focus keeps the parts checked so far, in descending order, or forgets them. -/
def State.keepChecks (s : State) (k : Option Checks) : State := s.setMe { s.me with checks := k }

/-- Check parts of `n` bytes in ascending order; the first that fails ends the instruction (R64, R146). What has been
checked is kept while a later part waits. -/
def State.checkFrom (s : State) (a : Acc) (n : Nat) (needReply : Bool) : List (Nat × Word) → List ElemAcc → Checked
  | [], acc => .ok (s.keepChecks none) acc.reverse
  | (i, ea) :: rest, acc =>
    if ea.toNat % n ≠ 0 then .stop (.trap s cMisaligned ea)
    else if ea.toNat ≥ 2 ^ 48 then .stop (.trap s cAccess ea)
    else match s.translate s.meWho s.me.mode a ea.toNat with
      | .wait t => .stop (.stall (t.keepChecks (some ⟨t.me.pc, acc⟩)))
      | .fault t cause => .stop (.trap t cause ea)
      | .ok t0 l near own =>
        let t := t0.record t0.focus.core l n a.r a.w
        match t.reach t.focus.core l near own needReply with
        | .miss v => .stop (.trap t cRouteMiss (w64 v))
        | .own => State.checkFrom t a n needReply rest (⟨i, ea.toNat, l, none⟩ :: acc)
        | .routed f r u => State.checkFrom u a n needReply rest (⟨i, ea.toNat, l, some (f, r)⟩ :: acc)

/-- The parts of the instruction at the program counter that have passed their checks. -/
def Ctx.checked (x : Ctx) : List ElemAcc :=
  match x.checks with
  | some k => if k.pc = x.pc then k.done else []
  | none => []

/-- Check the parts of an instruction that are still to be checked (R146). -/
def State.checkElems (s : State) (a : Acc) (n : Nat) (needReply : Bool) (l : List (Nat × Word)) : Checked :=
  s.checkFrom a n needReply (l.drop s.me.checked.length) s.me.checked

/-- Charge the context in focus one operation of a class. -/
def State.charge (s : State) (k : CountClass) (n : Nat) : State := s.setMe (s.me.addCount k n)

/-- The class has no room for `n` more operations of the context in focus (R75). -/
def State.full (s : State) (k : CountClass) (n : Nat) : Bool := decide (s.me.count k + n > classCap k)

/-- Where a scalar result of `n` bytes goes, in the window current at issue (R67). -/
def Ctx.dest (x : Ctx) (d : Reg) (n : Nat) (sx : Bool) : Dest :=
  if d.toNat = 0 then .none
  else if d.toNat < 8 then .glob d.toNat n sx
  else .win (winIdx x.depth d.toNat) n sx

/-- A load of the context in focus (R64, R65, R295). -/
def State.loadAct (s : State) (va : Word) (n : Nat) (dest : Dest) (holds : Bool) : Act :=
  if s.full .ld 1 then .stall s
  else s.withAccess accLoad va.toNat n true va fun t l route =>
    let t2 := t.post { Req.blank with
      owner := t.meOwner, cls := some .ld, va := va.toNat, pc := t.me.pc, target := .mem .load l.place n [] 0,
      dest, holds, route, tracked := l.tracked }
    .go ((t2.charge .ld 1).pass)

/-- The mask of a whole store of up to 32 bytes. -/
def allBytes : Word := 0xFFFF_FFFF

/-- The waiting release a store to a module's memory may be merged into: of the same activation, address and width, with no access
of the core to that unit between them and no wait begun behind it (R275, R397). -/
def State.mergeTarget (s : State) (m : Nat) (p : Place) (n : Nat) : Option Req :=
  match s.reqs.find? fun r => r.stage == .release && r.owner == s.meOwner && r.module s.moduleId == m && r.target.extent == (p, n)
    && !r.sealed with
  | none => none
  | some r =>
    if s.reqs.any fun q => decide (r.id < q.id) && ownerCore q.owner == some s.focus.core && r.overlaps s.moduleId q then none
    else some r

/-- A wait of the context in focus begins: its waiting releases absorb no later store (R275). -/
def State.beginWait (s : State) : State :=
  { s with reqs := s.reqs.map fun r =>
      if r.stage = .release ∧ r.owner = s.meOwner then { r with sealed := true } else r }

/-- A release absorbs the value of a later store (R275). -/
def Req.absorb (r : Req) (data : List Byte) : Req :=
  match r.target with
  | .mem op p n _ cmp => { r with target := .mem op p n data cmp }
  | .sync _ _ => r
  | .pair _ _ _ _ _ _ => r

/-- A store of the context in focus; `rel` places it in the store queue as a release (R65, R275, R295). -/
def State.storeAct (s : State) (va : Word) (data : List Byte) (rel : Bool) : Act :=
  if s.full .st 1 then .stall s
  else s.withAccess accStore va.toNat data.length false va fun t l route =>
    match (if !rel && t.focus.merge then t.mergeTarget l.mod l.place data.length else none) with
    | some r => .go ((t.setReq (r.absorb data)).pass)
    | none =>
    let t2 := t.post { Req.blank with
      owner := t.meOwner, cls := some .st, va := va.toNat, pc := t.me.pc,
      target := .mem .store l.place data.length data allBytes, route,
      stage := if rel then .release else .going, tracked := l.tracked }
    .go ((t2.charge .st 1).pass)

/-- A release waits for every earlier access of the context to leave its count (R291, R298, R301). -/
def State.drained (s : State) : Bool := s.me.ld == 0 && s.me.st == 0 && s.me.sy == 0

/-- The body of an AMO or CAS after its address is known (R291, R293, R294): translation, route, the stall of a release,
then the request. -/
def State.amoAct (s : State) (va : Word) (op : MemOp) (wide : Bool) (v cmp : Word) (dest : Dest) (aq rl : Bool) : Act :=
  let n := if wide then 8 else 4
  s.withAccess accAmo va.toNat n true va fun t l route =>
    if (rl && !t.drained) || t.full .sy 1 then .stall s
    else
      let target : Target :=
        if l.place.space = .sync then .sync l.place (.amo op wide v cmp)
        else .mem op l.place n (natLE n v.toNat) cmp
      let t2 := t.post { Req.blank with
        owner := t.meOwner, cls := some .sy, va := va.toNat, pc := t.me.pc, target, dest, holds := aq, route,
        tracked := l.tracked }
      .go ((t2.charge .sy 1).pass)

/-! ### The step at the home (R269, R291–R294) -/

def sx (x n : Nat) : Int := sextNat x n

/-- The new value of an AMO or CAS on an n-byte word (R291–R293); other operations leave it. -/
def amoNew (op : MemOp) (n old v cmp : Nat) : Nat :=
  let w := 8 * n
  match op with
  | .amoAdd => (old + v) % 2 ^ w
  | .amoAnd => old &&& v
  | .amoOr => old ||| v
  | .amoXor => old ^^^ v
  | .amoMin => if sx v w < sx old w then v else old
  | .amoMax => if sx v w > sx old w then v else old
  | .amoMinu => if v < old then v else old
  | .amoMaxu => if v > old then v else old
  | .amoSwap => v
  | .amoFadd => (fmtF32.add .rne old v).code
  | .cas => if old = cmp then v else old
  | .load => old
  | .store => v
  | .decz => old

/-- Write the bytes a mask selects; bytes past the mask's 32 are always written. -/
def maskBytes (mask : Nat) (old new : List Byte) : List Byte :=
  (List.range new.length).map fun i => if i ≥ 32 ∨ bit mask i then new.getD i 0 else old.getD i 0

/-- One unit is performed at its home: the bytes read and whether they were in error (R66, R269). -/
def State.performMem (s : State) (op : MemOp) (p : Place) (n : Nat) (data : List Byte) (cmp : Word)
    (writer : Option Nat) (tracked : Bool) : State × List Byte × Bool :=
  match op with
  | .load => (s, s.readPlace p n, s.poisoned p n)
  | .store =>
    let new := if cmp = allBytes then data else maskBytes cmp.toNat (s.readPlace p n) data
    ((s.writePlace p new).markWrite p n writer tracked, [], false)
  | .decz => (s, [], false)
  | .amoAdd | .amoAnd | .amoOr | .amoXor | .amoMin | .amoMax | .amoMinu | .amoMaxu | .amoSwap | .amoFadd | .cas =>
    let old := s.readPlace p n
    if s.poisoned p n then (s, old, true)
    else
      let want := cmp.toNat % 2 ^ (8 * n)
      if op = .cas ∧ leNat old ≠ want then (s, old, false)
      else ((s.writePlace p (natLE n (amoNew op n (leNat old) (leNat data) want))).markWrite p n writer tracked, old, false)

/-! ### Completion -/

/-- The value a reply of `n` bytes writes to a scalar register. -/
def replyValue (data : List Byte) (n : Nat) (sxt : Bool) : Word :=
  let x := leNat (data.take n)
  if sxt then BitVec.ofInt 64 (sextNat x (8 * n)) else w64 x

/-- Write a scalar result into a window that is resident, or into its spilled image (R67): frame `w` of the place is
resident when it lies in windows d − 5 to d + 1. -/
def State.writeWin (s : State) (core ctx i : Nat) (v : Word) : State :=
  let x := s.ctx core ctx
  let frame := i / 16
  if frame > x.depth + 1 then s
  else if frame = x.depth + 1 ∧ i % 16 ≥ 8 then s
  else
    let s1 := s.setCtx core ctx { x with win := x.win.put i v }
    if frame + 5 < x.depth then
      let c := s.core core
      let off := c.spillBase + 512 * ctx + 128 * frame + 8 * (i % 16)
      s1.post { Req.blank with
        owner := .ctx core ctx x.epoch, va := off, target := .mem .store ⟨.scratch, c.site, off⟩ 8 (natLE 8 v.toNat) allBytes }
    else s1

/-- Write bytes lo.. of a vector register. -/
def Ctx.writeVBytes (x : Ctx) (r lo : Nat) (bs : List Byte) : Ctx :=
  let old := vecBytes (x.readV r)
  x.writeV r (bytesVec ((List.range 32).map fun i =>
    if lo ≤ i ∧ i < lo + bs.length then bs.getD (i - lo) 0 else old.getD i 0))

/-- What a reply writes in its context (R65, R67, R75). -/
def State.deliver (s : State) (core ctx : Nat) (d : Dest) (data : List Byte) : State :=
  let x := s.ctx core ctx
  match d with
  | .none => s
  | .glob r n sxt => s.setCtx core ctx { x with glob := x.glob.put r (replyValue data n sxt) }
  | .win i n sxt => s.writeWin core ctx i (replyValue data n sxt)
  | .vec r lo n => s.setCtx core ctx (x.writeVBytes r lo (data.take n))
  | .block r mask => s.setCtx core ctx (x.writeV r (bytesVec (maskBytes mask (vecBytes (x.readV r)) (data.take 32))))
  | .gather i =>
    match x.gather with
    | some g =>
      let got := (List.range (data.length / 8)).foldl
        (fun m j => m.put (i + j) (w64 (leNat (slice data (8 * j) 8)))) g.got
      s.setCtx core ctx { x with gather := some { g with got } }
    | none => s
  | .fetch b =>
    let ws := (List.range 8).map fun i => BitVec.ofNat 32 (leNat (slice data (4 * i) 4))
    s.setCtx core ctx { x with blocks := x.blocks.map fun k =>
      if k.base = b then { k with ready := true, words := ws } else k }
  | .barrier _ => s
  | .element => s
  | .engine => s

def Req.returned (r : Req) : Option (List Byte × Bool) :=
  match r.stage with
  | .back data p => some (data, p)
  | .performed data p _ => some (data, p)
  | .release => none | .queued => none | .going => none | .held _ => none | .answered _ => none | .popped _ _ _ => none

/-- The access returned an uncorrectable error. -/
def Req.inError (r : Req) : Bool :=
  match r.returned with
  | some (_, p) => p
  | none => false

/-- All accesses of one instruction have returned: its registers are written or its error is taken, and it leaves its
count (R65, R66, R150). A reply after the activation's end writes nothing (R73). -/
def State.finishGroup (s : State) (g : Nat) : State :=
  let mine := s.reqs.filter fun r => r.group == g
  match mine with
  | [] => s
  | r0 :: _ =>
    let s0 := { s with reqs := s.reqs.filter fun r => r.group != g }
    match r0.owner with
    | .ctx core ctx epoch =>
      let s1 := match r0.cls with
        | some k => s0.setCtx core ctx ((s0.ctx core ctx).subCount k)
        | none => s0
      if (s1.ctx core ctx).epoch != epoch then s1
      else
        match mine.find? Req.inError with
        | some bad => s1.trap core ctx cUncorrectable (w64 bad.va) bad.pc
        | none => mine.foldl (fun t r => match r.returned with
            | some (data, _) => t.deliver core ctx r.dest data
            | none => t) s1
    | .stream _ _ _ => s0
    | .engine _ _ _ => s0
    | .host _ => s0

/-- The reply of an access has arrived: mark it, and finish its instruction when it was the last (R65, R150). -/
def State.complete (s : State) (r : Req) (data : List Byte) (poisoned : Bool) : State :=
  let s1 := s.setReq { r with stage := .back data poisoned }
  let open' := s1.reqs.any fun q => q.group == r.group && (match q.stage with
    | .back _ _ => false
    | _ => true)
  if open' then s1 else s1.finishGroup r.group

end Sys2Proof.Machine
end

