-- ==== Sys2Proof/Machine/Ports.lean ====
section
/-! DEFINITION. Stream registers as their ports show them (R102–R107). -/

namespace Sys2Proof.Machine

/-- TRAPVAL of a stream fault (R105). -/
def streamVal (reason q va : Nat) : Word := w64 (reason * 2 ^ 52 + q % 8 * 2 ^ 48 + va % 2 ^ 48)

/-- The stream an address is a port of (R96). -/
def portOf (va : Nat) : Option Nat := if 0x8000 ≤ va ∧ va < 0x8100 then some ((va - 0x8000) / 32) else none

def Core.stream (c : Core) (q : Nat) : Stream := c.streams.at q .blank
def Core.setStream (c : Core) (q : Nat) (st : Stream) : Core := { c with streams := c.streams.put q st }

/-- The stream is bound by the activation of a context (R103). -/
def Stream.mine (st : Stream) (ctx epoch : Nat) : Bool := st.bound && st.ctx == ctx && st.epoch == epoch

/-- The checks of a port access, in order: binding, direction, width with predicate, count (R103). -/
def Stream.check (st : Stream) (ctx epoch size : Nat) (store whole : Bool) : Option Nat :=
  if !st.mine ctx epoch then some 1
  else if st.outb != store then some 2
  else if st.esize != size || !whole then some 3
  else if st.used ≥ st.count then some 4
  else none

/-- How a port access ends. -/
inductive PortRes where
  | fault (val : Word)
  | stall
  | data (bs : List Byte) (c : Core)

/-- A load from the port of q (R103, R104). -/
def State.portLoad (s : State) (q size : Nat) (whole : Bool) : PortRes :=
  let c := s.myCore
  let st := c.stream q
  match st.check s.focus.ctx s.me.epoch size false whole with
  | some r => .fault (streamVal r q 0)
  | none =>
    match st.arrived with
    | e :: t => .data e (c.setStream q { st with arrived := t, used := st.used + 1 })
    | [] =>
      match st.fault with
      | some (r, va, k) => if k ≤ st.used then .fault (streamVal r q va) else .stall
      | none => .stall

/-- A store to the port of q (R103, R104). A failing check goes before a held fault (DESIGN CHOICE, log entry 87). -/
def State.portStore (s : State) (q size : Nat) (whole : Bool) (bs : List Byte) : PortRes :=
  let c := s.myCore
  let st := c.stream q
  match st.check s.focus.ctx s.me.epoch size true whole with
  | some r => .fault (streamVal r q 0)
  | none =>
    match st.fault with
    | some (r, va, _) => .fault (streamVal r q va)
    | none =>
      if st.pushed.length ≥ 8 then .stall
      else .data [] (c.setStream q { st with pushed := st.pushed ++ [bs], used := st.used + 1 })

end Sys2Proof.Machine
end

