-- ==== Sys2Proof/Machine/Memory.lean ====
section
/-! DEFINITION. Scalar loads, stores and fences (R64, R65, R68), the peer forms LDP and STP (R315, R316) and STREL and
LDACQ (R285, R295). -/

namespace Sys2Proof.Machine

/-- A scalar load of `n` bytes: alignment, range, then a stream port or translation (R64, R103). -/
def State.load (s : State) (d a : Reg) (imm : BitVec 12) (n : Nat) (sxt : Bool) : Act :=
  let ea := s.x a + imm12 imm
  if ea.toNat % n ≠ 0 then .trap s cMisaligned ea
  else if ea.toNat ≥ 2 ^ 48 then .trap s cAccess ea
  else match portOf ea.toNat with
    | some q => match s.portLoad q n true with
      | .fault v => .trap s cStream v
      | .stall => .stall s
      | .data bs c => .go ((s.setMyCore c).putX d (replyValue bs n sxt))
    | none => s.loadAct ea n (s.me.dest d n sxt) false

/-- A scalar store of `n` bytes (R64, R65, R103). -/
def State.store (s : State) (b a : Reg) (imm : BitVec 12) (n : Nat) : Act :=
  let ea := s.x a + imm12 imm
  let bs := natLE n (s.x b).toNat
  if ea.toNat % n ≠ 0 then .trap s cMisaligned ea
  else if ea.toNat ≥ 2 ^ 48 then .trap s cAccess ea
  else match portOf ea.toNat with
    | some q => match s.portStore q n true bs with
      | .fault v => .trap s cStream v
      | .stall => .stall s
      | .data _ c => .go (s.setMyCore c).pass
    | none => s.storeAct ea bs false

/-- LB (R64). -/
def execLb (d a : Reg) (imm : BitVec 12) (s : State) : Host.Outcome State Fault Refusal :=
  (s.load d a imm 1 true).out

/-- LH (R64). -/
def execLh (d a : Reg) (imm : BitVec 12) (s : State) : Host.Outcome State Fault Refusal :=
  (s.load d a imm 2 true).out

/-- LW (R64). -/
def execLw (d a : Reg) (imm : BitVec 12) (s : State) : Host.Outcome State Fault Refusal :=
  (s.load d a imm 4 true).out

/-- LD (R64). -/
def execLd (d a : Reg) (imm : BitVec 12) (s : State) : Host.Outcome State Fault Refusal :=
  (s.load d a imm 8 true).out

/-- LBU (R64). -/
def execLbu (d a : Reg) (imm : BitVec 12) (s : State) : Host.Outcome State Fault Refusal :=
  (s.load d a imm 1 false).out

/-- LHU (R64). -/
def execLhu (d a : Reg) (imm : BitVec 12) (s : State) : Host.Outcome State Fault Refusal :=
  (s.load d a imm 2 false).out

/-- LWU (R64). -/
def execLwu (d a : Reg) (imm : BitVec 12) (s : State) : Host.Outcome State Fault Refusal :=
  (s.load d a imm 4 false).out

/-- SB (R64). -/
def execSb (b a : Reg) (imm : BitVec 12) (s : State) : Host.Outcome State Fault Refusal :=
  (s.store b a imm 1).out

/-- SH (R64). -/
def execSh (b a : Reg) (imm : BitVec 12) (s : State) : Host.Outcome State Fault Refusal :=
  (s.store b a imm 2).out

/-- SW (R64). -/
def execSw (b a : Reg) (imm : BitVec 12) (s : State) : Host.Outcome State Fault Refusal :=
  (s.store b a imm 4).out

/-- SD (R64). -/
def execSd (b a : Reg) (imm : BitVec 12) (s : State) : Host.Outcome State Fault Refusal :=
  (s.store b a imm 8).out

/-- The wait of FENCE: every earlier load has written its register, every earlier store is performed (R68). -/
def State.fenceReady (s : State) : Bool := s.me.ld == 0 && s.me.st == 0

/-- FENCE: fm, pred and succ do not change the effect (R68). -/
def execFence (_fm _pred _succ : BitVec 4) (s : State) : Host.Outcome State Fault Refusal :=
  let t := s.beginWait
  if s.fenceReady then .next t.pass else .next t

/-- A block number no fetch asks for: the reply of a forgotten fetch goes there. -/
def noBlock : Nat := 2 ^ 64

/-- A fetch is forgotten. -/
def Dest.forget (k : Dest) : Dest :=
  match k with
  | .fetch _ => .fetch noBlock
  | .none | .glob _ _ _ | .win _ _ _ | .vec _ _ _ | .block _ _ | .gather _ | .barrier _ | .element | .engine => k

/-- Blocks on their way to the context in focus are forgotten (R35). -/
def State.dropFetches (s : State) : State :=
  { s with reqs := s.reqs.map fun r => if r.owner = s.meOwner then { r with dest := r.dest.forget } else r }

/-- FENCE.I: the wait of FENCE, then every prefetched word is discarded (R35, R68). -/
def execFenceI (s : State) : Host.Outcome State Fault Refusal :=
  let t := s.beginWait
  if s.fenceReady then .next (t.dropFetches.setMe { t.me with blocks := [] }).pass else .next t

/-! ### Peer addresses (R315) -/

/-- The virtual address of offset `o` at the core a peer register names; none where R315 raises the access fault. -/
def State.peerVa (s : State) (o : Nat) (peer : Word) : Option Nat :=
  if peer.toNat ≥ 2 ^ 19 ∨ (s.siteOf peer.toNat).isNone then none
  else if o ≤ 0x7FFF then some (winBase peer.toNat + o)
  else if 0x4000_0000 ≤ o ∧ o ≤ 0x403F_FFFF then some (winBase peer.toNat + 0x40_0000 + (o - 0x4000_0000))
  else none

/-- The byte offset of LDP and STP (R316). -/
def peerOff (imm : BitVec 6) : Word := (imm.signExtend 64) <<< 3

/-- LDP (R316). -/
def execLdp (d a p : Reg) (imm : BitVec 6) (s : State) : Host.Outcome State Fault Refusal :=
  let o := s.x a + peerOff imm
  if o.toNat % 8 ≠ 0 then s.trapOut cMisaligned o
  else match s.peerVa o.toNat (s.x p) with
    | none => s.trapOut cAccess o
    | some va => (s.loadAct (w64 va) 8 (s.me.dest d 8 true) false).out

/-- STP: the value register is d (R316). -/
def execStp (d a p : Reg) (imm : BitVec 6) (s : State) : Host.Outcome State Fault Refusal :=
  let o := s.x a + peerOff imm
  if o.toNat % 8 ≠ 0 then s.trapOut cMisaligned o
  else match s.peerVa o.toNat (s.x p) with
    | none => s.trapOut cAccess o
    | some va => (s.storeAct (w64 va) (natLE 8 (s.x d).toNat) false).out

/-! ### Release and acquire (R285, R295) -/

/-- A valid slot of GRP holds the group, or it is group 0 (R90, R285). -/
def groupHeld (grp : Word) (g : Nat) : Bool :=
  g == 0 || ((List.range 4).any fun j => bit grp.toNat (32 + j) && bits grp.toNat (8 * j + 7) (8 * j) == g)

/-- LDACQ: no later instruction of the context issues before the register is written (R295). -/
def execLdacq (d a : Reg) (w : Bool) (g : BitVec 8) (s : State) : Host.Outcome State Fault Refusal :=
  let n := if w then 4 else 8
  let ea := s.x a
  if !groupHeld s.myCore.grp g.toNat then s.trapOut cGroup (w64 g.toNat)
  else if ea.toNat % n ≠ 0 then s.trapOut cMisaligned ea
  else if ea.toNat ≥ 2 ^ 48 then s.trapOut cAccess ea
  else (s.loadAct ea n (s.me.dest d n true) true).out

/-- STREL: a posted store that waits for every earlier access of the context (R295). -/
def execStrel (d a : Reg) (w : Bool) (g : BitVec 8) (s : State) : Host.Outcome State Fault Refusal :=
  let n := if w then 4 else 8
  let ea := s.x a
  if !groupHeld s.myCore.grp g.toNat then s.trapOut cGroup (w64 g.toNat)
  else if ea.toNat % n ≠ 0 then s.trapOut cMisaligned ea
  else if ea.toNat ≥ 2 ^ 48 then s.trapOut cAccess ea
  else (s.storeAct ea (natLE n (s.x d).toNat) true).out

end Sys2Proof.Machine
end

