-- ==== Sys2Proof/Machine/Custom.lean ====
section
/-! DEFINITION. Custom-0: windows (R16, R17, R69, R70), messages (R18–R20, R71–R73), tags (R74), waits and queries
(R75–R77), engine queues (R78), trap return (R79), streams (R106, R107) and TRCTL (R360, R361). -/

namespace Sys2Proof.Machine

/-! ### Windows -/

/-- i0–i7 and l0–l7 of window `w` as the 128 bytes a spill stores (R17). -/
def Ctx.windowBytes (x : Ctx) (w : Nat) : List Byte :=
  (List.range 16).flatMap fun i => natLE 8 (x.win.at (16 * w + i) 0).toNat

/-- Offset of a window's image in the scratchpad (R14, R17). -/
def spillOff (c : Core) (ctx w : Nat) : Nat := c.spillBase + 512 * ctx + 128 * w

/-- Clear windowed places lo to lo + n − 1. -/
def clearWin (m : FMap Word) (lo : Nat) : Nat → FMap Word
  | 0 => m
  | n + 1 => clearWin (m.cut (lo + n)) lo n

/-- The new window of a call: locals and outputs 0, l7 the return address (R16, R69). -/
def Ctx.pushWindow (x : Ctx) (target : Word) : Ctx :=
  let d := x.depth + 1
  let m := clearWin (clearWin x.win (16 * d + 8) 8) (16 * (d + 1)) 8
  { x with depth := d, win := m.put (16 * d + 15) (x.pc + 4), pc := target }

/-- WCALL and WCALLR (R67, R69). -/
def State.wcall (s : State) (target : Word) : Act :=
  let x := s.me
  if x.ld ≠ 0 then .stall s
  else if x.depth = 9 then .trap s cWinovf 9
  else if target.toNat % 4 ≠ 0 then .trap s cMisaligned target
  else if x.depth < 5 then .go (s.setMe (x.pushWindow target))
  else if s.full .st 1 then .stall s
  else
    let c := s.myCore
    let w := x.depth - 5
    let p : Place := ⟨.scratch, c.site, spillOff c s.focus.ctx w⟩
    let t := (s.record s.focus.core (s.nearLoc p) 128 false true).post { Req.blank with
      owner := s.meOwner, cls := some .st, va := p.off, pc := x.pc,
      target := .mem .store p 128 (x.windowBytes w) allBytes }
    let u := t.charge .st 1
    .go (u.setMe (u.me.pushWindow target))

/-- WCALL (R69). -/
def execWcall (off : BitVec 22) (s : State) : Host.Outcome State Fault Refusal :=
  (s.wcall (s.me.pc + ((off.signExtend 64) <<< 2))).out

/-- WCALLR: x[a] is read in the caller's window (R69). -/
def execWcallr (a : Reg) (s : State) : Host.Outcome State Fault Refusal := (s.wcall (s.x a)).out

/-- Place the image of window `w` back in the registers (R17). -/
def Ctx.fillWindow (x : Ctx) (w : Nat) (bs : List Byte) : Ctx :=
  { x with win := (List.range 16).foldl (fun m i => m.put (16 * w + i) (w64 (leNat (slice bs (8 * i) 8)))) x.win }

/-- A reply to an l or o register of the window returned from is discarded (R67). -/
def Dest.leave (d : Nat) (k : Dest) : Dest :=
  match k with
  | .win i n sxt => if (i / 16 = d ∧ i % 16 ≥ 8) ∨ i / 16 > d then .none else .win i n sxt
  | .none | .glob _ _ _ | .vec _ _ _ | .block _ _ | .gather _ | .fetch _ | .barrier _ | .element | .engine => k

/-- The outstanding accesses of the context in focus forget the window of depth `d`. -/
def State.leaveWindow (s : State) (d : Nat) : State :=
  { s with reqs := s.reqs.map fun r => if r.owner = s.meOwner then { r with dest := r.dest.leave d } else r }

/-- WRET (R16, R67, R70). A fill waits for the stores to the image that are still to be performed (R17). No rule says what
it does with an image that holds an uncorrectable error: it takes the bytes as they stand, with no trap (DESIGN CHOICE, log entry
114). -/
def State.wret (s : State) : Act :=
  let x := s.me
  if x.ld ≠ 0 then .stall s
  else if x.depth = 0 then .trap s cIllegal (wordOf .wret)
  else
    let target := x.win.at (16 * x.depth + 15) 0
    if target.toNat % 4 ≠ 0 then .trap s cMisaligned target
    else
      let d := x.depth - 1
      let s := s.leaveWindow x.depth
      if d < 5 then .go (s.setMe { x with depth := d, pc := target })
      else
        let c := s.myCore
        let p : Place := ⟨.scratch, c.site, spillOff c s.focus.ctx (d - 5)⟩
        if s.reqs.any fun r => r.pending && ownerCore r.owner == some s.focus.core &&
            r.touches s.moduleId s.moduleId p 128 then .stall s
        else .go (s.setMe { x.fillWindow (d - 5) (s.readPlace p 128) with depth := d, pc := target })

/-- WRET (R70). -/
def execWret (s : State) : Host.Outcome State Fault Refusal := s.wret.out

/-! ### Messages -/

/-- A committed message of a LOGGED channel is appended to the sender's log; a full log saturates the sender (R350). -/
def State.logMessage (s0 : State) (n : Nat) (h : Header) (payload : List Word) : State :=
  let s := s0.recordTies n
  let c := s.core n
  let t := c.trace
  if !h.logged || !t.recording || t.sat then s
  else if 128 * (t.logn + 1) > c.clogSize then s.saturate n 3
  else
    let ws := hdrDwords h ++ (List.range 8).map (fun i => payload.getD i 0) ++ [0, 0, 0, 0]
    (s.putRegion c.region (c.clogBase + 128 * t.logn) ws).setTrace n { t with logn := t.logn + 1 }

def Core.slot (c : Core) (n : Nat) : Slot := c.slots.at n .blank

/-- Commit one message: it takes the slot's round number, a marker advances it, and it is queued for injection (R20,
R72). -/
def State.commit (s : State) (m : OutMsg) : State :=
  let c := s.core m.core
  let sl := c.slot m.slot
  let m' := { m with hdr := { m.hdr with round := sl.round } }
  let sl' := if m.hdr.kind = .marker then { sl with round := (sl.round + 1) % 65536 } else sl
  let s1 := s.setCore m.core { c with slots := c.slots.put m.slot sl', outq := c.outq ++ [m'] }
  s1.logMessage m.core m'.hdr m.payload

/-- Header of a message on a slot (R71, R220). -/
def State.msgHeader (s : State) (core slot tag : Nat) (kind : PktKind) (sl : Slot) (r : Route) : Header :=
  { s.mkHeader kind 0 core (s.core core).site r with
    tag, sch := slot, rch := sl.rch, fmt := sl.fmt, gen := sl.gen, logged := sl.logged, tied := sl.tied }

/-- The payload of SEND and SENDI: o0–o7, or an even pair of vector registers (R71). -/
def Ctx.payload (x : Ctx) (pl : BitVec 5) : List Word :=
  if pl.toNat < 16 then (List.range 8).map fun j => x.win.at (16 * (x.depth + 1) + j) 0
  else
    let n := 2 * (pl.toNat - 16)
    dwords4 (x.readV n).toNat ++ dwords4 (x.readV (n + 1)).toNat

/-- Committed messages of a context not yet injected, in its 16 places or in its SENDI place (R19). -/
def Core.unsent (c : Core) (ctx : Nat) (sendi : Bool) : Nat :=
  (c.outq.filter fun m => m.ctx == ctx && m.sendiPlace == sendi).length

/-- Which of SEND, SENDI, SENDM. -/
inductive SendOp where
  | send | sendi | sendm
  deriving DecidableEq, Repr

/-- SEND, SENDI and SENDM: checks in the order written, then a place (R19, R71). -/
def State.sendAct (s : State) (op : SendOp) (word : Word) (ch tag : Nat) (payload : List Word) : Act :=
  let x := s.me
  let c := s.myCore
  if x.mode == .system && op != .sendi then .trap s cIllegal word
  else
    let sl := c.slot ch
    match sl.route with
    | none => .trap s cRouteMiss (w64 (2 ^ 63 + ch))
    | some r =>
      if op != .sendi && x.send.length == 16 then .trap s cSendovf 16
      else
        let room := decide (x.send.length + c.unsent s.focus.ctx false < 16)
        let kind : PktKind := if op = .sendm then .marker else .data
        let m : OutMsg :=
          { core := s.focus.core, ctx := s.focus.ctx, slot := ch,
            hdr := s.msgHeader s.focus.core ch (if op = .sendm then 0 else tag) kind sl r, payload,
            sendiPlace := !room, sendi := op == .sendi, sender := s.senderOf s.meOwner }
        if op = .sendi then
          if room || c.unsent s.focus.ctx true == 0 then .go (s.pass.commit m) else .stall s
        else if room then .go (s.setMe { x.next with send := x.send ++ [m] })
        else .stall s

/-- SEND (R71). -/
def execSend (tag ch : BitVec 6) (pl : BitVec 5) (s : State) : Host.Outcome State Fault Refusal :=
  (s.sendAct .send (wordOf (.send tag ch pl)) ch.toNat tag.toNat (s.me.payload pl)).out

/-- SENDI (R20, R71). -/
def execSendi (tag ch : BitVec 6) (pl : BitVec 5) (s : State) : Host.Outcome State Fault Refusal :=
  (s.sendAct .sendi (wordOf (.sendi tag ch pl)) ch.toNat tag.toNat (s.me.payload pl)).out

/-- SENDM: a marker with a payload of zeros (R71, R72). -/
def execSendm (ch : BitVec 6) (s : State) : Host.Outcome State Fault Refusal :=
  (s.sendAct .sendm (wordOf (.sendm ch)) ch.toNat 0 (List.replicate 8 0)).out

/-- The activation of a context ends: its streams are unbound, a close does its step, the context is free from the next
cycle on (R22, R23, R197). -/
def State.endActivation (s : State) (core ctx : Nat) : State :=
  match (s.ctx core ctx).act with
  | none => s
  | some a =>
    let c := (s.core core).unbindAll ctx
    let c' := match a.origin, a.tag with
      | .close _, some t => c.closeStep t
      | _, _ => c
    (s.setCore core c').setCtx core ctx ((s.ctx core ctx).leave s.now)

/-- DONE (R20, R22, R73). -/
def execDone (s : State) : Host.Outcome State Fault Refusal :=
  let x := s.me
  if x.mode = .system then s.trapOut cIllegal (wordOf .done)
  else if x.ld ≠ 0 then .next s
  else .next ((x.send.foldl State.commit s).endActivation s.focus.core s.focus.ctx)

/-- TRET (R39, R79). -/
def State.tret (s : State) (word : Word) (replay : Bool) : Host.Outcome State Fault Refusal :=
  if s.me.mode ≠ .system then s.trapOut cIllegal word
  else .next ((s.trapReturn s.focus.core s.focus.ctx replay).afterTrap s.focus.core s.focus.ctx s.me.epoch)

/-- TRET replay (R79). -/
def execTretReplay (s : State) : Host.Outcome State Fault Refusal := s.tret (wordOf .tretReplay) true

/-- TRET discard (R79). -/
def execTretDiscard (s : State) : Host.Outcome State Fault Refusal := s.tret (wordOf .tretDiscard) false

/-! ### Tags (R74) -/

/-- The first TAGOP of a cycle notes the enable and pending bits: the scheduler sees a change on the next cycle (R74). -/
def Core.noteTags (c : Core) (now : Nat) : Core :=
  match c.tagSeen with
  | some (t, _, _) => if t = now then c else { c with tagSeen := some (now, c.tagen, c.tagpend) }
  | none => { c with tagSeen := some (now, c.tagen, c.tagpend) }

/-- TAGOP on the enable bits: the old value goes to x[d]. -/
def State.tagEn (s : State) (d : Reg) (f : Word → Word) : Host.Outcome State Fault Refusal :=
  let c := s.myCore
  .next ((s.setMyCore { c.noteTags s.now with tagen := f c.tagen }).putX d c.tagen)

/-- TAGOP on the pending bits. -/
def State.tagPd (s : State) (d : Reg) (f : Word → Word) : Host.Outcome State Fault Refusal :=
  let c := s.myCore
  .next ((s.setMyCore { c.noteTags s.now with tagpend := f c.tagpend }).putX d c.tagpend)

/-- TAGOP en.set, tag form (R74). -/
def execTagopEnSet (d : Reg) (tag : BitVec 6) (s : State) : Host.Outcome State Fault Refusal :=
  let m : Word := 1#64 <<< tag.toNat
  s.tagEn d fun w => w ||| m

/-- TAGOP en.clr, tag form (R74). -/
def execTagopEnClr (d : Reg) (tag : BitVec 6) (s : State) : Host.Outcome State Fault Refusal :=
  let m : Word := 1#64 <<< tag.toNat
  s.tagEn d fun w => w &&& ~~~ m

/-- TAGOP pd.set, tag form (R74). -/
def execTagopPdSet (d : Reg) (tag : BitVec 6) (s : State) : Host.Outcome State Fault Refusal :=
  let m : Word := 1#64 <<< tag.toNat
  s.tagPd d fun w => w ||| m

/-- TAGOP pd.clr, tag form (R74). -/
def execTagopPdClr (d : Reg) (tag : BitVec 6) (s : State) : Host.Outcome State Fault Refusal :=
  let m : Word := 1#64 <<< tag.toNat
  s.tagPd d fun w => w &&& ~~~ m

/-- TAGOP en.set, mask form (R74). -/
def execTagopEnSetMask (d a : Reg) (s : State) : Host.Outcome State Fault Refusal :=
  let m : Word := s.x a
  s.tagEn d fun w => w ||| m

/-- TAGOP en.clr, mask form (R74). -/
def execTagopEnClrMask (d a : Reg) (s : State) : Host.Outcome State Fault Refusal :=
  let m : Word := s.x a
  s.tagEn d fun w => w &&& ~~~ m

/-- TAGOP pd.set, mask form (R74). -/
def execTagopPdSetMask (d a : Reg) (s : State) : Host.Outcome State Fault Refusal :=
  let m : Word := s.x a
  s.tagPd d fun w => w ||| m

/-- TAGOP pd.clr, mask form (R74). -/
def execTagopPdClrMask (d a : Reg) (s : State) : Host.Outcome State Fault Refusal :=
  let m : Word := s.x a
  s.tagPd d fun w => w &&& ~~~ m

/-! ### Waits and queries (R76, R77) -/

def queueNo : EngineQ → Nat
  | .mxq => 0 | .cpq0 => 1 | .cpq1 => 2

/-- A limit of 15 waits for nothing (R76). -/
def within (count : Nat) (limit : BitVec 4) : Bool := limit.toNat == 15 || decide (count ≤ limit.toNat)

/-- A command of the queue that has faulted still has a write to be performed: it has not left its class count (R75, R110,
log entry 80). -/
def State.lingers (s : State) (core : Nat) (q : EngineQ) : Nat :=
  let live := (s.core core).jobs.look (queueNo q)
  b2n (s.reqs.any fun r => r.pending && isStore r.target && (match r.owner with
    | .engine n p stamp => n == core && p == q && (live.map fun j => j.cmd.stamp) != some stamp
    | .ctx _ _ _ | .stream _ _ _ | .host _ => false))

/-- The count of a class as WAITC and RDCNT of the context in focus see it (R75–R77). -/
def State.classCount (s : State) (k : CountClass) : Nat :=
  countOf s.myCore s.me k + (match k with
    | .mx => s.lingers s.focus.core .mxq
    | .cp => s.lingers s.focus.core .cpq0 + s.lingers s.focus.core .cpq1
    | .ld | .st | .sy => 0)

/-- Every count is within its limit. -/
def State.waitReady (s : State) (sy mx cp st ld : BitVec 4) : Bool :=
  within (s.classCount .ld) ld && within (s.classCount .st) st && within (s.classCount .cp) cp
  && within (s.classCount .mx) mx && within (s.classCount .sy) sy

/-- WAITC (R76). Any wait ends the merging of later stores into earlier releases (R275). -/
def execWaitc (sy mx cp st ld : BitVec 4) (s : State) : Host.Outcome State Fault Refusal :=
  let t := s.beginWait
  if s.waitReady sy mx cp st ld then .next t.pass else .next t

/-- RDCNT (R77). -/
def execRdcnt (d : Reg) (c : CountClass) (s : State) : Host.Outcome State Fault Refusal :=
  .next (s.putX d (w64 (s.classCount c)))

/-- Places of a queue in use: waiting commands and the one being performed (R75, R108). -/
def Core.queued (c : Core) (q : EngineQ) : Nat :=
  (c.cmds.at (queueNo q) []).length + (match c.jobs.look (queueNo q) with
    | some _ => 1
    | none => 0)

/-- RDQF: free places (R77). -/
def execRdqf (d : Reg) (q : EngineQ) (s : State) : Host.Outcome State Fault Refusal :=
  .next (s.putX d (w64 (16 - s.myCore.queued q)))

/-- The word of RDSTRM (R77). -/
def Stream.status (st : Stream) : Word :=
  if st.bound then
    w64 ((if st.outb then st.pushed.length else 0) * 2 ^ 16 + (if st.outb then 0 else st.arrived.length) * 2 ^ 8
      + b2n st.fault.isSome * 4 + b2n st.xlate * 2 + 1)
  else 0

/-- RDSTRM (R77). -/
def execRdstrm (d : Reg) (n : BitVec 3) (s : State) : Host.Outcome State Fault Refusal :=
  .next (s.putX d (s.myCore.stream n.toNat).status)

/-- RDID (R77). -/
def execRdid (d : Reg) (item : IdItem) (s : State) : Host.Outcome State Fault Refusal :=
  .next (s.putX d (w64 (match item with
    | .core => s.focus.core
    | .site => s.myCore.site
    | .module => s.moduleId
    | .context => s.focus.ctx)))

/-! ### Multi-read instructions (R75, R78, R106) -/

/-- Progress of the reads of ENQM, SBIND, RTSET or RTBIND: all dwords read, or not yet. -/
inductive GatherRes where
  | got (words : List Word) (s : State)
  | act (a : Act)

/-- The context's gathering as far as the instruction at its pc has come. -/
def Ctx.gathered (x : Ctx) : Gather :=
  match x.gather with
  | some g => if g.pc = x.pc then g else ⟨x.pc, [], []⟩
  | none => ⟨x.pc, [], []⟩

/-- Start or continue reads of `size` bytes at the dwords `want` from `va`, and the context issues nothing else until all
have returned (R75, R78, R233, R235). The instruction makes at most `most` reads, and the first waits until all of them
fit class LD (R75). The result lists every dword, in the order of `want`. -/
def State.gatherAct (s : State) (va : Word) (size most : Nat) (want : List Nat) : GatherRes :=
  let g := s.me.gathered
  let missing := want.filter fun i => !g.asked.contains i
  if missing.isEmpty then
    let ws := want.flatMap fun i => (List.range (size / 8)).map fun j => g.got.look (i + j)
    if ws.all Option.isSome then .got (ws.map fun w => w.getD 0) s else .act (.stall s)
  else if g.asked.isEmpty && s.full .ld most then .act (.stall s)
  else match s.checkElems accLoad size true (missing.map fun i => (i, va + w64 (8 * i))) with
    | .stop a => .act a
    | .ok t l =>
      let t1 := l.foldl (fun u e => u.post { Req.blank with
        owner := u.meOwner, cls := some .ld, va := e.va, pc := u.me.pc, target := .mem .load e.loc.place size [] 0,
        dest := .gather e.i, route := e.route, tracked := e.loc.tracked }) t
      let t2 := t1.charge .ld missing.length
      .act (.stall (t2.setMe { t2.me with gather := some { g with asked := g.asked ++ missing } }))

/-- The queue is poisoned (R158, R179). -/
def Core.isPoisoned (c : Core) (q : EngineQ) : Bool := bit c.qstat.toNat (queueNo q)

/-- A command is accepted into a queue with a free place and enters its class count; a poisoned queue discards it on
acceptance (R78, R179). -/
def State.accept (s : State) (q : EngineQ) (cmd : Vec) : Act :=
  let c := s.myCore
  if c.isPoisoned q then .go (s.setMe { s.me.next with gather := none })
  else if c.queued q ≥ 16 then .stall s
  else
    let k : QCmd := ⟨cmd, s.me.mode, s.fresh⟩
    let c1 := { c with cmds := c.cmds.put (queueNo q) (c.cmds.at (queueNo q) [] ++ [k]) }
    let c2 := match q with
      | .mxq => { c1 with mx := c1.mx + 1 }
      | .cpq0 => { c1 with cp := c1.cp + 1 }
      | .cpq1 => { c1 with cp := c1.cp + 1 }
    .go ((s.tick.setMyCore c2).setMe { s.me.next with gather := none })

/-- ENQ (R78). In sapling mode mxq does not exist (R371). -/
def execEnq (a : Reg) (q : EngineQ) (s : State) : Host.Outcome State Fault Refusal :=
  if s.bringup.sapling && q == .mxq then s.trapOut cIllegal (wordOf (.enq a q))
  else (s.accept q (s.me.readV a.toNat)).out

/-- Dwords as a 256-bit value, lowest first. -/
def wordsVec (ws : List Word) : Vec := vecOf 64 (ws.map BitVec.toNat)

/-- Some earlier access of the context in focus is still to be performed, whichever of its activations made it (R52). -/
def State.accessPending (s : State) : Bool :=
  (s.reqs.any fun r => r.pending && r.cls.isSome && (match r.owner with
    | .ctx core ctx _ => core == s.focus.core && ctx == s.focus.ctx
    | .stream _ _ _ | .engine _ _ _ | .host _ => false)) ||
  s.me.pushes.any s.pushOut

/-- Dwords 0 to 3 as ENQM and SBIND read them: each read is made when those before it have returned, and the first when the
context's earlier accesses are performed (R52, R106). -/
def State.enqmReads (s : State) : List Nat :=
  let got := s.me.gathered.got.length
  List.range (if got < 4 then got + 1 else 4)

/-- ENQM: its four reads fix the command before it waits for a place (R52, R78). -/
def execEnqm (a : Reg) (q : EngineQ) (s : State) : Host.Outcome State Fault Refusal :=
  let ea := s.x a
  if s.bringup.sapling && q == .mxq then s.trapOut cIllegal (wordOf (.enqm a q))
  else if ea.toNat % 32 ≠ 0 then s.trapOut cMisaligned ea
  else if ea.toNat ≥ 2 ^ 48 then s.trapOut cAccess ea
  else if s.me.gathered.asked.isEmpty && s.accessPending then .next s
  else match s.gatherAct ea 8 4 s.enqmReads with
    | .act r => r.out
    | .got ws t => (t.accept q (wordsVec ws)).out

/-! ### Loop records and streams (R100–R107) -/

/-- A format tag is reserved (R125). -/
def tagReserved (t : Nat) : Bool := (decide (1 ≤ t) && decide (t ≤ 15)) || (decide (0x1E ≤ t) && decide (t ≤ 0x7F))

/-- The loop record of an index, none when the index or the record is invalid (R100, R101). -/
def State.readLoop (s : State) (core idx : Nat) : Option LoopRec :=
  let c := s.core core
  if idx ≥ c.loopsN then none
  else
    let bs := s.readPlace ⟨.scratch, c.site, c.loopsBase + 32 * idx⟩ 32
    let d0 := leNat (bs.take 8)
    let nd := bits d0 2 0
    let bounds := (List.range nd).map fun j => leNat (slice bs (8 + 2 * j) 2)
    if nd = 0 ∨ nd > 4 ∨ bounds.any (· == 0) ∨ tagReserved (bits d0 15 8) then none
    else some ⟨bits d0 15 8, bounds, (List.range nd).map fun j => sextNat (leNat (slice bs (16 + 4 * j) 4)) 32⟩

/-- Tuples of a record's sequence (R101). -/
def LoopRec.size (r : LoopRec) : Nat := r.bounds.foldl (· * ·) 1

/-- Offset of the `k`-th tuple, dimension 0 innermost; the sequence starts again after its last tuple (R101, R102). -/
def loopOff : List Nat → List Int → Nat → Int
  | b :: bs, st :: ss, k => ((k % b : Nat) : Int) * st + loopOff bs ss (k / b)
  | _, _, _ => 0

/-- The offset of access `k`. That the sequence starts again holds of MXLOADB and MXOUT too (DESIGN CHOICE, log entry 91). -/
def LoopRec.off (r : LoopRec) (k : Nat) : Int := loopOff r.bounds r.strides (k % r.size)

/-- A store of the core to a scratchpad run is still to be performed. -/
def State.storePending (s : State) (core : Nat) (p : Place) (n before : Nat) : Bool :=
  s.reqs.any fun r => r.pending && ownerCore r.owner == some core && r.owner.isCtx && decide (r.id < before)
    && isStore r.target && r.touches s.moduleId s.moduleId p n

/-- The stream a descriptor asks for, none when the descriptor or its loop record is invalid (R102, R106). -/
def State.mkStream (s : State) (ws : List Word) : Option Stream :=
  let d0 := (ws.getD 0 0).toNat
  let d1 := (ws.getD 1 0).toNat
  let d2 := (ws.getD 2 0).toNat
  let es := bits d0 59 58
  let dir := bits d0 57 56
  let size := if es = 0 then 8 else 32
  let base := bits d0 47 0
  let count := bits d2 31 0
  let idx := bits d1 7 0
  if es ≥ 2 ∨ dir ≥ 2 ∨ base % size ≠ 0 ∨ count = 0 then none
  else
    let st : Stream :=
      { Stream.blank with
        bound := true, ctx := s.focus.ctx, epoch := s.me.epoch, mode := s.me.mode, eng := bits d0 60 60, esize := size,
        outb := dir == 1, base, count, serial := s.myCore.serial + 1 }
    if idx = 255 then some st
    else match s.readLoop s.focus.core idx with
      | none => none
      | some r => some { st with loop := some r }

/-- SBIND (R106). A loop record is read after the core's earlier stores to it; an uncorrectable error in it is not looked at (log
entry 84). -/
def execSbind (n : BitVec 3) (a : Reg) (s : State) : Host.Outcome State Fault Refusal :=
  let ea := s.x a
  let q := n.toNat
  if ea.toNat % 32 ≠ 0 then s.trapOut cMisaligned ea
  else if ea.toNat ≥ 2 ^ 48 then s.trapOut cAccess ea
  else if s.me.gathered.asked.isEmpty && s.accessPending then .next s
  else match s.gatherAct ea 8 4 s.enqmReads with
    | .act r => r.out
    | .got ws t =>
      let c := t.myCore
      let idx := (ws.getD 1 0).toNat % 256
      let rec' : Place := ⟨.scratch, c.site, c.loopsBase + 32 * idx⟩
      if (c.stream q).bound then t.trapOut cStream (streamVal 7 q 0)
      else if idx ≠ 255 ∧ t.storePending t.focus.core rec' 32 t.fresh then .next t
      else match t.mkStream ws with
        | none => t.trapOut cStream (streamVal 8 q 0)
        | some st =>
          .next ((t.setMyCore { c.setStream q st with serial := c.serial + 1 }).setMe { t.me.next with gather := none })

/-- SUNBIND: waits until every pushed element is performed or has failed, then reports a held fault or unbinds (R107). -/
def execSunbind (n : BitVec 3) (s : State) : Host.Outcome State Fault Refusal :=
  let q := n.toNat
  let c := s.myCore
  let st := c.stream q
  if !st.mine s.focus.ctx s.me.epoch then s.trapOut cStream (streamVal 1 q 0)
  else
    match st.fault with
    | some (r, va, _) =>
      if st.outb && !st.inflight.isEmpty then .next s else s.trapOut cStream (streamVal r q va)
    | none =>
      if st.outb && (!st.pushed.isEmpty || !st.inflight.isEmpty) then .next s
      else .next (s.setMyCore (c.setStream q .blank)).pass

/-! ### Trace control (R360, R361) -/

/-- The word of TRCTL.status (R361). -/
def Trace.status (t : Trace) : Word :=
  w64 (b2n t.valid * 2 ^ 63 + b2n t.sat * 2 ^ 62 + b2n t.isOpen * 2 ^ 61 + b2n t.recording * 2 ^ 60
    + (if t.sat then t.reason else 0) * 2 ^ 57 + t.wcnt * 2 ^ 32 + t.rcnt * 2 ^ 16
    + (if t.logn > 65535 then 65535 else t.logn))

/-- TRCTL.status (R360). -/
def execTrctlStatus (d : Reg) (s : State) : Host.Outcome State Fault Refusal :=
  let t := s.recordTies s.focus.core
  .next (t.putX d t.myCore.trace.status)

/-- TRCTL.markr and markw: the checks of R64 steps 2 and 3 and no access; the tile is recorded whatever the exclusions
say (R360). -/
def State.markAct (s : State) (ea : Word) (wr : Bool) : Act :=
  if ea.toNat ≥ 2 ^ 48 then .trap s cAccess ea
  else match s.translate s.meWho s.me.mode (if wr then accStore else accLoad) ea.toNat with
    | .wait t => .stall t
    | .fault t cause => .trap t cause ea
    | .ok t l _ _ => match tiles l.place 1 with
      | none => .go t.pass
      | some r => if l.mod ≠ t.moduleId then .go (t.saturate t.focus.core 4).pass else .go (t.recordRange t.focus.core wr r).pass

/-- TRCTL.markr (R360). -/
def execTrctlMarkr (a : Reg) (s : State) : Host.Outcome State Fault Refusal := (s.markAct (s.x a) false).out

/-- TRCTL.markw (R360). -/
def execTrctlMarkw (a : Reg) (s : State) : Host.Outcome State Fault Refusal := (s.markAct (s.x a) true).out

/-- TRCTL.sat (R351, R360). -/
def execTrctlSat (s : State) : Host.Outcome State Fault Refusal := .next (s.saturate s.focus.core 5).pass

/-- TRCTL.flush (R348, R360). -/
def execTrctlFlush (s : State) : Host.Outcome State Fault Refusal :=
  .next (if s.myCore.trace.recording then (s.flushTrace s.focus.core).pass else s.pass)

end Sys2Proof.Machine
end

