-- ==== Sys2Proof/Machine/Engine.lean ====
section
/-! DEFINITION. Engines: the head command of a queue, its accesses one at a time, engine faults and poison, and replies
(R108–R110, R159, R160, R171, R178, R179). -/

namespace Sys2Proof.Machine

/-! ### Replies (R65, R108) -/

/-- A reply at hand for an access of a core: the data, whether it is in error, and whether the home performed it. -/
structure Reply where
  data     : List Byte
  poisoned : Bool
  ok       : Bool

/-- The reply of a memory access: of an access to own memory once it is performed, else a reply packet in the ejection
buffer of the core's site, which is consumed. -/
def State.takeReply (s : State) (core : Nat) (r : Req) : Option (Reply × State) :=
  match r.stage with
  | .performed data p ok => some (⟨data, p, ok⟩, s)
  | .release | .queued | .going | .held _ | .back _ _ | .answered _ | .popped _ _ _ =>
    let mine := s.net.find? fun f => f.site == (s.core core).site && f.spot == .eject 0 && s.ejectHead f && (match f.pkt.body with
      | .memRep id _ _ _ => id == r.id
      | _ => false)
    match mine with
    | none => none
    | some f => match f.pkt.body with
      | .memRep _ data p ok => some (⟨data, p, ok⟩, s.consume f.id)
      | _ => none

/-- The request leaves the list of outstanding accesses. -/
def State.dropReq (s : State) (id : Nat) : State := { s with reqs := s.reqs.filter fun r => r.id != id }

/-- The reply has returned and been taken. -/
def Req.isBack (r : Req) : Bool :=
  match r.stage with
  | .back _ _ => true
  | .release | .queued | .going | .held _ | .performed _ _ _ | .answered _ | .popped _ _ _ => false

/-- The reply of a read that no one awaits any more (its command has faulted, its stream is unbound or stopped) is taken and
discarded, also one that came before its other part (R104, R107, R179). -/
def State.takeOrphan (s : State) (core : Nat) (orphan : Req → Bool) : Option State :=
  match s.reqs.find? fun r => orphan r && !isStore r.target && (r.isBack || (s.takeReply core r).isSome) with
  | none => none
  | some r => if r.isBack then some (s.dropReq r.id) else (s.takeReply core r).map fun q => q.2.dropReq r.id

/-! ### Engine faults (R178, R179) -/

def Core.job (c : Core) (q : EngineQ) : Option Job := c.jobs.look (queueNo q)
def Core.setJob (c : Core) (q : EngineQ) (j : Job) : Core := { c with jobs := c.jobs.put (queueNo q) j }

/-- `n` commands of a queue leave its class count (R75). -/
def Core.leaveCount (c : Core) (q : EngineQ) (n : Nat) : Core :=
  match q with
  | .mxq => { c with mx := c.mx - n }
  | .cpq0 => { c with cp := c.cp - n }
  | .cpq1 => { c with cp := c.cp - n }

/-- A QERR record takes a fault unless it holds one (R158). -/
def qerrTake (old : Word) (reason cmd addr : Nat) : Word :=
  if bit old.toNat 63 then old else w64 (2 ^ 63 + reason % 16 * 2 ^ 56 + cmd % 256 * 2 ^ 48 + addr % 2 ^ 48)

/-- Record and poison: QERR, QSTAT, and every held command discarded (R179). -/
def Core.poison (c : Core) (q : EngineQ) (reason cmd addr held : Nat) : Core :=
  let c1 := { c.leaveCount q held with
    qstat := setBit c.qstat (queueNo q), cmds := c.cmds.put (queueNo q) [], jobs := c.jobs.cut (queueNo q) }
  match q with
  | .mxq => { c1 with qerrm := qerrTake c.qerrm reason cmd addr }
  | .cpq0 => { c1 with qerrc0 := qerrTake c.qerrc0 reason cmd addr }
  | .cpq1 => { c1 with qerrc1 := qerrTake c.qerrc1 reason cmd addr }

/-- An engine fault of the command `w` at the head of a queue (R178, R179). The event's detail word is the record that
QERR would take. -/
def State.engineFault (s : State) (core : Nat) (q : EngineQ) (w : Vec) (reason addr : Nat) : State :=
  let c := s.core core
  let cmd := w.toNat % 256
  let s1 := s.setCore core (c.poison q reason cmd addr (c.queued q))
  s1.logCore core evEngineFault (qerrTake 0 reason cmd addr) []

/-! ### The command in focus -/

def State.myJob (s : State) : Option Job := s.myCore.job s.focus.queue
def State.setMyJob (s : State) (j : Job) : State := s.setMyCore (s.myCore.setJob s.focus.queue j)

/-- The engine fault of the command in focus. -/
def State.cmdFault (s : State) (w : Vec) (reason addr : Nat) : State :=
  s.engineFault s.focus.core s.focus.queue w reason addr

/-- Owner of the accesses of a command. -/
def State.jobOwner (s : State) (j : Job) : Owner := .engine s.focus.core s.focus.queue j.cmd.stamp

/-- A read of the command is outstanding; a synchronisation operation counts as one. -/
def State.reading (s : State) (j : Job) : Bool :=
  s.reqs.any fun r => r.owner == s.jobOwner j && !isStore r.target

/-- An access of the command is outstanding. -/
def State.accessing (s : State) (j : Job) : Bool := s.reqs.any fun r => r.owner == s.jobOwner j

/-- Where an engine's translation and route of an access lead (R171, R178). -/
inductive EngLoc where
  | ok (s : State) (l : Loc) (route : Option (Route × List Run))
  | wait (s : State)
  | fault (s : State) (reason addr : Nat)

/-- Bytes from an address to the end of its 32-byte unit, at most `n`. -/
def unitLen (va : Int) (n : Nat) : Nat :=
  let k := 32 - (va % 32).toNat
  if k < n then k else n

/-- Translate, record and route an access of the command in focus of up to `n` bytes, not past a 32-byte boundary. A
translation failure and a missing route are reason 5 (R178, R349, log entry 13). -/
def State.engLoc (s : State) (j : Job) (a : Acc) (dst needReply : Bool) (m : Nat) (va : Int) : EngLoc :=
  let n := s.focus.core
  let q := s.focus.queue
  if va < 0 ∨ va ≥ (2 : Int) ^ 48 then .fault s 5 (wrapInt va 48)
  else
    match s.translate (if dst then .engineDst n q else .engineSrc n q) j.cmd.mode a va.toNat with
    | .wait t => .wait t
    | .fault t _ => .fault t 5 va.toNat
    | .ok t0 l near own =>
      let t := t0.record n l (unitLen va m) a.r a.w
      match t.reach n l near own needReply with
      | .miss _ => .fault t 5 va.toNat
      | .own => .ok t l none
      | .routed f r u => .ok u l (some (f, r))

/-- The command has an access to make: a copy's next, the one operation of a QSIGNAL, the read of a QWAIT (R171, R176, R177). -/
def Job.wants (j : Job) (now : Nat) : Bool :=
  !j.done && (match j.instr with
    | .cpy _ _ _ _ | .cpyg _ _ _ | .cpys _ _ _ | .cpyfill _ _ _ _ => true
    | .qsignalAdd _ _ | .qsignalDecz _ | .qsignalBararr _ => j.cursor == 0
    | .qwait _ _ _ => (match j.polled with
      | some t => decide (t + 16 ≤ now)
      | none => decide (j.buf.length < 8))
    | _ => false)

/-- Agents of a copy engine that have an access to make: its command, which awaits no read, and the streams bound to it that
may access and wait for no translation (R171). -/
def Core.agents (c : Core) (q : EngineQ) (e now : Nat) (cmdReads : Bool) (streamMay : Nat → Bool) : List Nat :=
  (match c.job q with
   | some j => if !cmdReads && j.wants now then [0] else []
   | none => []) ++
  ((List.range 8).filter fun k =>
    let st := c.streams.at k .blank
    st.bound && st.eng == e && !st.xlate && streamMay k).map (· + 1)

/-- Places from the agent that came last to another, in the order of the turns. -/
def turnDist (last a : Nat) : Nat := (a + 19 - last) % 10

/-- Agent `a` may make the next access of engine `e`: no agent with an access to make comes before it (R171). -/
def Core.turnOf (c : Core) (e a : Nat) (ready : List Nat) : Bool :=
  let last := c.turns.at e 0
  !(ready.any fun b => decide (turnDist last b < turnDist last a))

/-- Agent `a` has made an access of engine `e`. -/
def Core.tookTurn (c : Core) (e a : Nat) : Core := { c with turns := c.turns.put e a }

/-- A request of a group is still to be performed at its home. -/
def State.unperformed (s : State) (groups : List Nat) : Bool :=
  s.reqs.any fun r => groups.contains r.group && r.pending

/-- The stream of register `q` has an access to make: an inbound element at most 8 ahead of the loads, an outbound one
after the elements before it are performed (R103). -/
def State.streamMay (s : State) (core q : Nat) : Bool :=
  let st := (s.core core).streams.at q .blank
  st.bound && st.fault.isNone &&
    (if st.outb then !st.pushed.isEmpty && !s.unperformed st.inflight
     else decide (st.next < st.count) && decide (st.next < st.used + 8))

/-- Copy engine behind a queue. -/
def engineOf (q : EngineQ) : Option Nat :=
  match q with
  | .mxq => none
  | .cpq0 => some 0
  | .cpq1 => some 1

def queueOf (e : Nat) : EngineQ := if e = 0 then .cpq0 else .cpq1

/-- Agents of copy engine `e` of a core with an access to make. -/
def State.ready (s : State) (core e : Nat) : List Nat :=
  let c := s.core core
  let reads := match c.job (queueOf e) with
    | some j => s.reqs.any fun r => r.owner == .engine core (queueOf e) j.cmd.stamp && !isStore r.target
    | none => false
  c.agents (queueOf e) e s.now reads (s.streamMay core) ++
    (if e = 0 ∧ !(s.coppice.replays.at core []).isEmpty then [9] else [])

/-- The command in focus may make its next access (R171). -/
def State.myTurn (s : State) : Bool :=
  match engineOf s.focus.queue with
  | none => true
  | some e => s.myCore.turnOf e 0 (s.ready s.focus.core e)

/-- The command in focus has made an access. -/
def State.took (s : State) : State :=
  match engineOf s.focus.queue with
  | none => s
  | some e => s.setMyCore (s.myCore.tookTurn e 0)

/-- The command in focus issues a read of up to `n` bytes, not past a 32-byte boundary. -/
def State.engRead (s : State) (j : Job) (va : Int) (n : Nat) : State :=
  if !s.myTurn then s else
  match s.engLoc j accLoad false true n va with
  | .wait t => t
  | .fault t r addr => t.cmdFault j.cmd.word r addr
  | .ok t l route =>
    let k := unitLen va n
    (t.took).post { Req.blank with
      owner := t.jobOwner j, va := va.toNat, target := .mem .load l.place k [] 0, dest := .engine, route, tracked := l.tracked }

/-- The command in focus writes the first bytes of a run, up to a 32-byte boundary; `k` takes the number written (R171). -/
def State.engWrite (s : State) (j : Job) (va : Int) (bs : List Byte) (k : Nat → State → State) : State :=
  if !s.myTurn then s else
  match s.engLoc j accStore true false bs.length va with
  | .wait t => t
  | .fault t r addr => t.cmdFault j.cmd.word r addr
  | .ok t l route =>
    let n := unitLen va bs.length
    k n ((t.took).post { Req.blank with
      owner := t.jobOwner j, va := va.toNat, target := .mem .store l.place n (bs.take n) allBytes, dest := .engine, route,
      tracked := l.tracked })

/-! ### Starting (R108, R159, R160) -/

/-- The formats and register scales a command that starts now uses: those of the CSRs before any write of this cycle, or
the latch's (R159). -/
def State.sampled (s : State) (sel : BitVec 2) : Latch :=
  let c := s.myCore
  if sel.getLsbD 0 then c.latch
  else if c.mxOld.1 = s.now then c.mxOld.2
  else ⟨c.mxfmta.toNat, c.mxfmtb.toNat, c.mxsca.toNat, c.mxscb.toNat⟩

/-- How the loop record of a command is found at its start (R101, R160). -/
inductive LoopAt where
  | none
  | some (r : LoopRec)
  | bad (reason addr : Nat)

/-- Sample the loop record of an index; the command has waited for every own-scratchpad store that issued before it was
accepted (R101, R110). `fmt` is the format tag the record must name if it names one. -/
def State.loopAt (s : State) (core : Nat) (idx : BitVec 8) (fmt : Nat) : LoopAt :=
  if idx = 255#8 then .none
  else
    let c := s.core core
    let p : Place := ⟨.scratch, c.site, c.loopsBase + 32 * idx.toNat⟩
    if decide (idx.toNat < c.loopsN) && s.poisoned p 32 then .bad 6 p.off
    else match s.readLoop core idx.toNat with
      | .none => .bad 4 0
      | .some r => if fmt ≠ 0 ∧ r.fmt ≠ 0 ∧ r.fmt ≠ fmt then .bad 4 0 else .some r

/-- The command at the head of the queue in focus. -/
def State.headCmd (s : State) : Option QCmd := (s.myCore.cmds.at (queueNo s.focus.queue) []).head?

/-- The head command starts: it leaves the waiting list and becomes the engine's job. -/
def State.startJob (s : State) (h : QCmd) (i : Instr) (cfg : Latch) (loop : Option LoopRec) (done : Bool) : State :=
  let c := s.myCore
  let q := queueNo s.focus.queue
  s.setMyCore { c with
    cmds := c.cmds.put q ((c.cmds.at q []).drop 1)
    jobs := c.jobs.put q { cmd := h, instr := i, cfg, loop, cursor := 0, pos := 0, buf := [], hdr := none, idx := none,
                           done, polled := none } }

/-- One step of a command of the queue in focus: its start when it waits at the head and every store to the own scratchpad
that issued before it was accepted is performed (R110, R280), else its next access. -/
def State.cmdStep (s : State) (i : Instr) (start : QCmd → State) (go : Job → State) :
    Host.Outcome State Fault Refusal :=
  match s.myJob with
  | some j => if j.instr ≠ i ∨ j.done then .next s else .next (go j)
  | none => match s.headCmd with
    | some h => if s.ownStoreBefore s.focus.core h.stamp then .next s else .next (start h)
    | none => .next s

/-- Start with a loop record. -/
def State.startLoop (s : State) (h : QCmd) (i : Instr) (cfg : Latch) (idx : BitVec 8) (fmt : Nat) (k : State → State) :
    State :=
  match s.loopAt s.focus.core idx fmt with
  | .bad r a => s.cmdFault h.word r a
  | .none => k (s.startJob h i cfg none false)
  | .some r => k (s.startJob h i cfg (some r) false)

/-- Byte offset of tuple `k`, 0 without a loop record. -/
def Job.off (j : Job) (k : Nat) : Int :=
  match j.loop with
  | some r => r.off k
  | none => 0

/-- Tuples of the command. -/
def Job.tuples (j : Job) : Nat :=
  match j.loop with
  | some r => r.size
  | none => 1

/-- The part of a list of runs that follows the first `n` bytes, with how many of its first run are left. -/
def runAt : List (Int × Nat) → Nat → Option (Int × Nat)
  | [], _ => none
  | (a, k) :: t, n => if n < k then some (a + n, k - n) else runAt t (n - k)

/-- Read a list of runs, one unit at a time, then finish with their bytes. -/
def State.readRuns (s : State) (j : Job) (runs : List (Int × Nat)) (finish : State → List Byte → State) : State :=
  match runAt runs j.buf.length with
  | none => finish s j.buf
  | some (a, n) => if s.reading j then s else s.engRead j a n

/-- The job has nothing more to access. -/
def State.jobDone (s : State) (j : Job) : State := s.setMyJob { j with done := true, buf := [] }

end Sys2Proof.Machine
end

