-- ==== Sys2Proof/Machine/Fetch.lean ====
section
/-! DEFINITION. Instruction fetch: words of the own scratchpad, 32-byte blocks of the own DRAM range and their prefetch, the
faults of a fetch and illegal words (R31, R32, R35, R59, R97). -/

namespace Sys2Proof.Machine

/-- How a fetch ends. -/
inductive Fetched where
  | word (s : State) (w : BitVec 32)
  | wait (s : State)
  | trap (s : State) (cause : Nat) (val : Word)

/-- The aligned 32-byte block of an address (R59). -/
def blockOf (va : Nat) : Nat := va / 32 * 32

/-- A block a context holds, with its words: one whose page was checked in the mode that asks (R59, log entry 14). -/
def findBlock (l : List FetchBlock) (m : Mode) (b : Nat) : Option FetchBlock :=
  l.find? fun k => k.base == b && k.mode == m && k.ready

/-- A request of the current activation for the block is outstanding. -/
def State.fetching (s : State) (core ctx base : Nat) : Bool :=
  s.reqs.any fun r => r.owner == .ctx core ctx (s.ctx core ctx).epoch && r.dest == .fetch base

/-- Request a block; the context keeps it beside the one it used last (log entry 14). -/
def State.askBlock (s : State) (core ctx base : Nat) (l : Loc) (route : Option (Route × List Run)) : State :=
  let x := s.ctx core ctx
  let blocks := (⟨base, x.mode, [], false⟩ :: x.blocks.filter fun k => k.base != base).take 2
  (s.setCtx core ctx { x with blocks }).post { Req.blank with
    owner := .ctx core ctx x.epoch, va := base, target := .mem .load l.place 32 [] 0, dest := .fetch base, route }

/-- While a block of the own DRAM range issues, the next sequential one is requested (R59). A prefetch that meets a miss or
a fault is left to the fetch that needs it. -/
def State.prefetch (s : State) (core ctx base : Nat) : State :=
  let next := base + 32
  let x := s.ctx core ctx
  if base < 0x8000 ∨ (findBlock x.blocks x.mode next).isSome ∨ s.fetching core ctx next then s
  else match s.translate (.fetch core ctx) x.mode accFetch next with
    | .ok t l near own => match t.reach core l near own true with
      | .own => t.askBlock core ctx next l none
      | .routed f r u => u.askBlock core ctx next l (some (f, r))
      | .miss _ => s
    | .wait _ => s
    | .fault _ _ => s

/-- Fetch the word at the program counter of a context (R59, R97). -/
def State.fetch (s : State) (core ctx : Nat) : Fetched :=
  let x := s.ctx core ctx
  let va := x.pc.toNat
  let base := blockOf va
  match findBlock x.blocks x.mode base with
  | some k => .word (s.prefetch core ctx base) (k.words.getD (va % 32 / 4) 0)
  | none =>
    match s.translate (.fetch core ctx) x.mode accFetch va with
    | .wait t => .wait t
    | .fault t cause => .trap t cause x.pc
    | .ok t l near own =>
      if va < 0x8000 then
        if t.poisoned l.place 4 then .trap t cUncorrectable x.pc
        else .word t (BitVec.ofNat 32 (leNat (t.readPlace l.place 4)))
      else if t.fetching core ctx base then .wait t
      else
        let l' := { l with place := { l.place with off := l.place.off - va % 32 } }
        match t.reach core l near own true with
        | .own => .wait (t.askBlock core ctx base l' none)
        | .routed f r u => .wait (u.askBlock core ctx base l' (some (f, r)))
        | .miss v => .trap t cRouteMiss (w64 v)

/-- ILLEGAL_ENCODING: the illegal-instruction trap with the word in TRAPVAL (R31, R32). -/
def execIllegalEncoding (w : Word32) (s : State) : Host.Outcome State Fault Refusal := s.trapOut cIllegal (w.setWidth 64)

def Dest.block? (k : Dest) : Option Nat :=
  match k with
  | .fetch b => some b
  | .none | .glob _ _ _ | .win _ _ _ | .vec _ _ _ | .block _ _ | .gather _ | .barrier _ | .element | .engine => Option.none

/-- A block of the own scratchpad is read ahead: until FENCE.I the context may fetch its words as they are now (R35). -/
def State.readAhead (s : State) (core ctx : Nat) : State :=
  let x := s.ctx core ctx
  let base := blockOf x.pc.toNat
  if x.act.isNone ∨ x.pc.toNat ≥ 0x8000 then s
  else
    let p : Place := ⟨.scratch, (s.core core).site, base⟩
    if s.poisoned p 32 then s
    else
      let ws := (List.range 8).map fun i => BitVec.ofNat 32 (leNat (s.readPlace { p with off := base + 4 * i } 4))
      s.setCtx core ctx { x with blocks := (⟨base, x.mode, ws, true⟩ :: x.blocks.filter fun k => k.base != base).take 2 }

/-- FETCH_BLOCK_RETURN: a requested block arrives; an uncorrectable error is raised where the context stands at an
instruction of the block (R59). With no block on its way the own scratchpad is read ahead (R35). -/
def execFetchBlockReturn (core ctx : Nat) (poisoned : Bool) (s : State) : Host.Outcome State Fault Refusal :=
  let mine := s.reqs.find? fun r => r.dest.block?.isSome && (s.takeReply core r).isSome && (match r.owner with
    | .ctx n c _ => n == core && c == ctx
    | .stream _ _ _ | .engine _ _ _ | .host _ => false)
  match mine with
  | none => .next (s.readAhead core ctx)
  | some r => match s.takeReply core r, r.dest.block? with
    | some (rep, t), some b =>
      let u := t.dropReq r.id
      let x := u.ctx core ctx
      if r.owner ≠ .ctx core ctx x.epoch then .next u
      else if poisoned || rep.poisoned then
        let v := u.setCtx core ctx { x with blocks := x.blocks.filter fun k => k.base != b }
        if blockOf x.pc.toNat = b then .next (v.trap core ctx cUncorrectable x.pc x.pc) else .next v
      else .next (u.deliver core ctx r.dest rep.data)
    | _, _ => .next s

end Sys2Proof.Machine
end

