-- ==== Sys2Proof/Machine/Inbox.lean ====
section
/-! DEFINITION. The inbox: arrival, drops, generations, queues and overflow sub-rings, round and fence markers (R186–R189,
R194–R196, R236, R350, R358). -/

namespace Sys2Proof.Machine

open Sys2Proof

/-- The core whose packets of port 0 end at a site: the core it carries, or the core it shadows (R189, R204). -/
def State.coreAt (s : State) (site : Nat) : Option Nat :=
  match (s.site site).core with
  | some c => some c
  | none => (s.site site).shadowOf

/-- Words of a packet's payload: a marker's is eight zeros (R221). -/
def packetWords (p : Packet) : List Word :=
  match p.body with
  | .message w => w
  | .mgmt w => w
  | .empty | .memReq _ _ _ _ _ _ _ _ _ | .memRep _ _ _ _ | .syncReq _ _ _ _ | .syncRep _ _ | .pairReq _ _ _ _ _ _ _ _ _
  | .pairRep _ _ _ _ _ _ _ | .migrate _ _ _ | .phase _ _ _ => List.replicate 8 0

/-- CHDROP after one more drop of channel `ch` (R93, R189). -/
def chdropWord (old : Word) (ch : Nat) : Word :=
  let n := old.toNat % 2 ^ 32
  w64 (ch % 64 * 2 ^ 32 + if n = 2 ^ 32 - 1 then n else n + 1)

/-- A packet takes the next arrival number (R186). -/
def State.countArrival (s : State) (core : Nat) : State :=
  let c := s.core core
  s.setCore core { c with arrivals := c.arrivals + 1 }

/-- The inbox drops a packet of channel `ch` (R189). -/
def State.dropAt (s : State) (core ch code : Nat) (bytes : List Word) : State :=
  let c := s.core core
  (s.setCore core { c with chdrop := chdropWord c.chdrop ch }).logCore core code 0 bytes

/-- The device's own contents of a sub-ring slot just written: 128 bytes (R187, log entry 8). -/
def State.writeSlot (s : State) (core q : Nat) : State :=
  let c := s.core core
  let i := c.ringAt.at q 0
  let ws := (List.range 16).map fun j => Config.freeWord (s.fresh + j)
  let t := s.setCore core { c with ringAt := c.ringAt.put q ((i + 1) % 64) }
  { t.putRegion c.region (0x3F_0000 + 8192 * q + 128 * i) ws with fresh := s.fresh + 16 }

/-- A message enters its queue, or the sub-ring behind it; none when the ring is full, or in sapling mode, which has
none (R186–R188, R371). -/
def State.enqueue (s : State) (core : Nat) (m : Msg) : Option State :=
  let c := s.core core
  let q := c.queues.at m.queue []
  let ring := c.rings.at m.queue []
  if ring.isEmpty && decide (q.length < 16) then some (s.setCore core { c with queues := c.queues.put m.queue (q ++ [m]) })
  else if s.bringup.sapling || decide (ring.length ≥ 64) then none
  else some ((s.setCore core { c with rings := c.rings.put m.queue (ring ++ [{ m with ovf := true }]) }).writeSlot core m.queue)

/-- A message or marker that passed the drop checks is recorded by its channel's flags (R350). -/
def State.recordArrival (s : State) (core : Nat) (h : Header) : State :=
  let s1 := if h.logged then s.recordRange core false ⟨5, h.score, 0, 0⟩ else s
  if h.logged || h.tied then s1
  else
    let t := (s1.core core).trace
    s1.setTrace core { t with isOpen := true }

/-- A message as the inbox holds it. -/
def mkMsg (p : Packet) (seq queue : Nat) : Msg :=
  { hdr := p.hdr, payload := packetWords p, seq, ovf := false, replayed := false, queue, post := none, lock := none }

/-- A data message of the current generation (R186, R188). -/
def State.takeData (s : State) (core : Nat) (p : Packet) (seq : Nat) : Option State :=
  s.enqueue core (mkMsg p seq ((s.core core).table.at p.hdr.tag .blank).queue)

/-! ### Markers (R196) -/

/-- Gated tags whose join set holds a channel, ascending. -/
def Core.joinsOn (c : Core) (ch : Nat) : List Nat :=
  c.table.filterMap fun e => if e.2.valid && e.2.gated && e.2.join.getLsbD ch then some e.1 else none

/-- How far a round lies ahead of a tag's current round. -/
def Core.ahead (c : Core) (g round : Nat) : Nat := (round + 65536 - (c.rounds.at g .blank).cur) % 65536

/-- The marker acts on one gated tag (R196, R350). -/
def State.markTag (s : State) (core : Nat) (h : Header) (seq g : Nat) : State :=
  let c := s.core core
  let d := c.ahead g h.round
  let tie := if h.tied then some h.score else none
  if d ≤ 1 then s.setCore core (c.markSet g h.rch d seq tie)
  else if d < 32768 then s.setCore core { c with hold := c.hold ++ [.marker g h.rch h.round seq tie] }
  else s.logCore core evRoundLate 0 []

/-- A round marker of the current generation; none while the hold buffer has no room for its copies (R195, R196). -/
def State.takeMarker (s : State) (core : Nat) (p : Packet) (seq : Nat) : Option State :=
  let c := s.core core
  let gs := c.joinsOn p.hdr.rch
  let early := (gs.filter fun g => let d := c.ahead g p.hdr.round; decide (1 < d) && decide (d < 32768)).length
  if c.hold.length + early > 32 then none
  else some (gs.foldl (fun t g => t.markTag core p.hdr seq g) s)

/-- A fence of the current generation advances the expected generation (R236). -/
def State.takeFence (s : State) (core ch : Nat) : State :=
  let c := s.core core
  s.setCore core { c with gexp := c.gexp.put ch ((c.gexp.at ch 0 + 1) % 4) }

/-- A packet of kinds 0 to 2 of the current generation. -/
def State.takeNow (s : State) (core : Nat) (p : Packet) (seq : Nat) : Option State :=
  match p.hdr.kind with
  | .data => s.takeData core p seq
  | .marker => s.takeMarker core p seq
  | .fence => some (s.takeFence core p.hdr.rch)
  | .memReq | .memRep | .syncReq | .syncRep | .pairReq | .pairRep | .mgmt | .migrate | .reserved _ => none

/-! ### Generations (R236) -/

/-- The oldest held packet of a channel. -/
def firstHeld : List (Packet × Nat) → Nat → Option (Packet × Nat)
  | [], _ => none
  | (p, n) :: t, ch => if p.hdr.rch = ch then some (p, n) else firstHeld t ch

/-- The oldest held packet of a channel that is of the expected generation. -/
def currentHeld (l : List (Packet × Nat)) (ch g : Nat) : Option (Packet × Nat) :=
  firstHeld (l.filter fun e => e.1.hdr.gen == g) ch

/-- Held packets of a channel whose generation has become current return in arrival order, while they can be taken
(R236). -/
def State.releaseGen (s : State) (core ch : Nat) : Nat → State
  | 0 => s
  | fuel + 1 =>
    let c := s.core core
    match currentHeld c.genHold ch (c.gexp.at ch 0) with
    | none => s
    | some (p, n) =>
      match (s.setCore core { c with genHold := c.genHold.filter fun e => e.2 != n }).takeNow core p n with
      | none => s
      | some t => State.releaseGen t core ch fuel

/-- Every packet of the generation hold that can be taken is taken (R236). -/
def State.releaseAll (s : State) (core : Nat) : State :=
  ((s.core core).genHold.map fun e => e.1.hdr.rch).eraseDups.foldl (fun u ch => u.releaseGen core ch 16) s

/-- A block is diverged (R358). -/
def State.diverge (s : State) (block : Nat) : State :=
  { s with running := s.running.map fun r =>
      { r with diverged := if r.diverged.contains block then r.diverged else r.diverged ++ [block] } }

/-- A skipped block drops what another core sends it, and is diverged (R358). -/
def State.coppiceDrop (s : State) (core : Nat) (h : Header) : State :=
  (s.logCore core evCoppiceDrop 0 (hdrDwords h)).diverge core

/-- A packet of kinds 0 to 2 at the inbox; none when it is refused and stays where it is (R186–R189, R236, R358). A
packet of the current generation that comes behind held packets of that generation which cannot be taken yet goes into the generation
hold behind them (DESIGN CHOICE, log entry 118). -/
def State.takePacket (s : State) (core : Nat) (p : Packet) : Option State :=
  let c := s.core core
  let h := p.hdr
  let n := c.arrivals
  let t := s.countArrival core
  let isData := h.kind == .data
  if !c.bound.getLsbD h.rch then
    some (t.dropAt core h.rch (if isData then evChanDrop else evMarkerDrop) (hdrDwords h))
  else if isData && !(c.table.at h.tag .blank).valid then some (t.dropAt core h.rch evChanDrop (hdrDwords h))
  else if s.coppice.skippedSet.contains core && h.kind != .fence && (h.score != core || h.smod != s.moduleId) then some (t.coppiceDrop core h)
  else
    let g := c.gexp.at h.rch 0
    let t := if h.kind == .fence then t else t.recordArrival core h
    if h.gen ≠ g ∨ (currentHeld c.genHold h.rch g).isSome then
      if c.genHold.length < 16 then
        let c' := t.core core
        some (t.setCore core { c' with genHold := c'.genHold ++ [(p, n)] })
      else none
    else (t.takeNow core p n).map fun u => u.releaseGen core h.rch 16

/-- A codelet post to the core's own queue 7; none while its sub-ring is full (R189, R194). A post has no header: CHAN_DROP records
zeros for a dropped one (DESIGN CHOICE, log entry 115). -/
def State.postCodelet (s : State) (core addr counter tag : Nat) : Option State :=
  let c := s.core core
  let n := c.arrivals
  let t := s.countArrival core
  if !(c.table.at tag .blank).valid then some (t.dropAt core 63 evChanDrop [])
  else t.enqueue core { hdr := { hdrBlank with tag }, payload := [w64 addr, w64 counter, 0, 0, 0, 0, 0, 0], seq := n,
                        ovf := false, replayed := false, queue := 7, post := some (addr, counter), lock := none }

/-! ### Events -/

/-- The packet `id` of one of these kinds, at the head of its lane in the ejection buffer of the core's site. -/
def State.atInbox (s : State) (core id : Nat) (k : PktKind) : Option Flight :=
  match s.ejected id 0 with
  | none => none
  | some f => if s.coreAt f.site = some core ∧ f.pkt.hdr.kind = k then some f else none

/-- The inbox takes the packet, or refuses it and it stays where it is (R188). -/
def State.acceptFlight (s : State) (core : Nat) (f : Flight) : State :=
  match s.takePacket core f.pkt with
  | some t => t.consume f.id
  | none => s.setFlight { f with treated := true }

/-- MESSAGE_ARRIVAL (R186–R189). -/
def execMessageArrival (core flight : Nat) (s : State) : Host.Outcome State Fault Refusal :=
  match s.atInbox core flight .data with
  | none => .next s
  | some f => if f.treated then .next s else .next (s.acceptFlight core f)

/-- HELD_MESSAGE_ACCEPT: what was refused is taken once there is room: packets of the generation hold whose generation is current,
then the message at the inbox (R188, R236). -/
def execHeldMessageAccept (core flight : Nat) (s0 : State) : Host.Outcome State Fault Refusal :=
  let s := s0.releaseAll core
  match s.atInbox core flight .data with
  | none => .next s
  | some f => if f.treated then .next (s.acceptFlight core f) else .next s

/-- ROUND_MARKER_ARRIVAL (R196). -/
def execRoundMarkerArrival (core flight : Nat) (s : State) : Host.Outcome State Fault Refusal :=
  match s.atInbox core flight .marker with
  | none => .next s
  | some f => .next (s.acceptFlight core f)

/-- FENCE_MARKER_ARRIVAL (R236). -/
def execFenceMarkerArrival (core flight : Nat) (s : State) : Host.Outcome State Fault Refusal :=
  match s.atInbox core flight .fence with
  | none => .next s
  | some f => .next (s.acceptFlight core f)

/-- SUBRING_REFILL: the oldest message of the ring moves to the tail of its queue (R187). A packet of the generation hold
that waited for the ring may follow. -/
def execSubringRefill (core queue : Nat) (s : State) : Host.Outcome State Fault Refusal :=
  let c := s.core core
  let q := c.queues.at queue []
  match c.rings.at queue [] with
  | [] => .next s
  | m :: rest =>
    if q.length ≥ 16 then .next s
    else
      let t := s.setCore core { c with queues := c.queues.put queue (q ++ [m]), rings := c.rings.put queue rest }
      .next (t.releaseAll core)

end Sys2Proof.Machine
end

