-- ==== Sys2Proof/Machine/Schedule.lean ====
section
/-! DEFINITION. What starts on a core and in what state: eligibility and choice (R12, R191, R192), starts (R13, R194, R197,
R200, R202), classification (R195), argument updates (R198), the time limit (R28), injection (R20). -/

namespace Sys2Proof.Machine

open Sys2Proof

/-! ### Eligibility (R12, R191, R195, R197) -/

/-- The tag of what a context holds; what DONE or TRET ends counts until the next cycle (R12, R22, R79). -/
def Ctx.heldTag (x : Ctx) (now : Nat) : Option Nat :=
  match x.act, x.left with
  | some a, _ => a.tag
  | none, some (t, g) => if t = now then g else none
  | none, none => none

/-- A context holds an activation, or a trap context of an activation, of a tag (R12). -/
def State.tagRuns (s : State) (core t : Nat) : Bool :=
  (List.range 4).any fun c => (s.ctx core c).heldTag s.now == some t

/-- An activation of a serial tag is running (R191). -/
def State.serialRuns (s : State) (core : Nat) : Bool :=
  (List.range 4).any fun c => match (s.ctx core c).heldTag s.now with
    | some t => ((s.core core).table.at t .blank).serial
    | none => false

/-- The context holds nothing, and no DONE or TRET has ended it in this cycle (R22, R79). -/
def Ctx.free (x : Ctx) (now : Nat) : Bool := x.act.isNone && x.left.all fun l => l.1 != now

/-- The lowest-numbered free context. -/
def State.freeCtx (s : State) (core : Nat) : Option Nat := (List.range 4).find? fun c => (s.ctx core c).free s.now

/-- The enable bits the scheduler sees in a cycle (R74). -/
def Core.tagenSeen (c : Core) (now : Nat) : Word :=
  match c.tagSeen with
  | some (t, e, _) => if t = now then e else c.tagen
  | none => c.tagen

/-- The pending bits the scheduler sees in a cycle (R74). -/
def Core.tagpendSeen (c : Core) (now : Nat) : Word :=
  match c.tagSeen with
  | some (t, _, p) => if t = now then p else c.tagpend
  | none => c.tagpend

/-- A pending start clears its bit, in what the scheduler sees too (R191). -/
def Core.clearPending (c : Core) (t : Nat) : Core :=
  { c with tagpend := clrBit c.tagpend t, tagSeen := c.tagSeen.map fun p => (p.1, p.2.1, clrBit p.2.2 t) }

/-- Application activations may start: a launch is in a round, the cluster has its four power stages, and neither a
migration nor a skipped block holds them (R207, R265, R341, R358). -/
def State.startsOpen (s : State) (core : Nat) : Bool :=
  (match s.running with
   | some r => r.phase == 2
   | none => false) && decide ((s.cluster (siteCluster (s.core core).site)).stages = 4) && !(s.core core).muted && (s.core core).mig.isNone && !s.coppice.skippedSet.contains core

/-- R12 and the enable bit permit an activation of a tag. -/
def State.tagMay (s : State) (core t : Nat) : Bool :=
  ((s.core core).tagenSeen s.now).getLsbD t && ((s.core core).table.at t .blank).valid && !s.tagRuns core t && s.startsOpen core
  && (s.freeCtx core).isSome

/-- The serial rule permits an activation of a tag (R191). -/
def State.serialMay (s : State) (core t : Nat) : Bool :=
  !(((s.core core).table.at t .blank).serial && s.serialRuns core)

/-- The message at the head of a queue, unless a trap context holds it (R25). -/
def State.headMsg (s : State) (core q : Nat) : Option Msg :=
  match (s.core core).queues.at q [] with
  | [] => none
  | m :: _ => if m.lock.isNone then some m else none

/-- A message is classified: it belongs to a gated tag and is no codelet post (R194, R195). -/
def Core.gatedMsg (c : Core) (m : Msg) : Bool := m.post.isNone && (c.table.at m.hdr.tag .blank).gated

/-- The close of a gated tag is due (R197). -/
def State.closeDue (s : State) (core g : Nat) : Bool :=
  let c := s.core core
  let e := c.table.at g .blank
  let rs := c.rounds.at g .blank
  let mine : Msg → Bool := fun m => m.post.isNone && m.hdr.tag == g && m.hdr.round == rs.cur
  e.valid && e.gated && (c.tagenSeen s.now).getLsbD g && rs.setCur == e.join && !s.tagRuns core g
  && !(c.queues.any fun q => q.2.any mine) && !(c.rings.any fun q => q.2.any mine)

/-- Candidates of R192 by number: a queue, 8 + 2t for a pending start, 9 + 2t for a close, 200 + i for the i-th system start
that waits. -/
def sysKey : Nat := 200

/-- A launch is being ended: nothing starts (R341). -/
def State.aborting (s : State) : Bool :=
  match s.running with
  | some r => r.phase == 3
  | none => false

/-- The core is carried by a site whose cluster has its power stages: one that is retired, or dark, starts nothing (R260, R264,
R265). -/
def State.siteRuns (s : State) (c : Core) : Bool := !c.absent && decide ((s.cluster (siteCluster c.site)).stages = 4)

/-- A candidate is eligible (R192). -/
def State.eligible (s : State) (core k : Nat) : Bool :=
  let c := s.core core
  if sysKey ≤ k then decide (k < sysKey + c.sysq.length) && (s.freeCtx core).isSome && c.mig.isNone && !s.aborting && s.siteRuns c
  else if k < 8 then
    match s.headMsg core k with
    | some m => s.tagMay core m.hdr.tag && s.serialMay core m.hdr.tag
        && (!c.gatedMsg m || c.ahead m.hdr.tag m.hdr.round == 0)
    | none => false
  else
    let t := (k - 8) / 2
    s.tagMay core t && s.serialMay core t
      && (if k % 2 = 0 then (c.tagpendSeen s.now).getLsbD t else s.closeDue core t || c.reclose.any fun e => e.1 == t)

/-- Candidates that may be eligible at all. -/
def Core.candidateKeys (c : Core) (now : Nat) : List Nat :=
  (c.queues.map fun q => q.1) ++
  ((List.range 64).flatMap fun t =>
    (if c.tagpend.getLsbD t || (c.tagpendSeen now).getLsbD t then [8 + 2 * t] else []) ++ (if (c.rounds.look t).isSome then [9 + 2 * t] else [])) ++
  (List.range c.sysq.length).map fun i => sysKey + i

/-- Note since when each eligible candidate of a core has been eligible; one that the next cycle makes eligible is noted with
that cycle (R22, R74, R79). -/
def State.noted (s : State) (core : Nat) (c : Core) : Core :=
  let next : State := { s with now := s.now + 1 }
  { c with elig := (c.candidateKeys s.now).filterMap fun k =>
      if s.eligible core k then some (k, c.elig.at k s.now)
      else if next.eligible core k then some (k, s.now + 1) else none }

/-- Where an eligible candidate stands: aged, role, since when eligible, number; the least starts (R192). -/
def State.startKey (s : State) (core k : Nat) : List Nat :=
  let c := s.core core
  let since := c.elig.at k s.now
  let aged := decide (c.ageb.toNat - 3 ≤ s.now - since)
  let role :=
    if sysKey ≤ k then 0
    else
      let t := if k < 8 then (match s.headMsg core k with
        | some m => m.hdr.tag
        | none => 0) else (k - 8) / 2
      1 + (c.table.at t .blank).role
  [if aged then 0 else 1, role, since, k]

/-- The candidate the core starts: one in a cycle (R192). -/
def State.winner (s : State) (core : Nat) : Option Nat :=
  if (s.core core).startedAt = some s.now then none
  else leastBy (fun j k => lexBefore (s.startKey core j) (s.startKey core k))
    (((s.core core).candidateKeys s.now).filter fun k => s.eligible core k)

/-! ### Starts (R13, R200) -/

/-- What a start delivers in the read-only CSRs and the window (R84–R88). -/
structure StartInfo where
  pc      : Nat
  payload : List Word
  msg     : Word
  fmt     : Nat
  round   : Nat
  chan    : Word
  src     : Word

/-- ACTTAG (R85). -/
def acttagWord (e : TagEntry) (t fmt : Nat) : Word := w64 (b2n e.serial * 2 ^ 16 + fmt % 256 * 256 + e.role % 4 * 64 + t % 64)

/-- ACTCHAN and ACTSRC (R87, R88). -/
def actchanWord (h : Header) : Word := w64 (h.gen % 4 * 64 + h.sch % 64)
def actsrcWord (h : Header) : Word := w64 (h.smod % 1024 * 2 ^ 40 + h.ssite * 2 ^ 19 + h.score)

/-- The state a context takes at the start of an activation (R13). -/
def Ctx.beginApp (x : Ctx) (c : Core) (ctx t now : Nat) (o : Origin) (i : StartInfo) : Ctx :=
  let e := c.table.at t .blank
  { x with
    act := some ⟨.app, some t, o, e.role, now + 8, false⟩, epoch := x.epoch + 1, pc := w64 i.pc,
    glob := [(2, c.stackTop ctx), (3, e.const.setWidth 64)],
    win := (List.range 8).map fun j => (j, i.payload.getD j 0),
    depth := 0, v := [], k := [], vrm := 0, vflags := 0, actmsg := i.msg, acttag := acttagWord e t i.fmt,
    actround := w64 i.round, actchan := i.chan, actsrc := i.src, send := [], gather := none, checks := none, phaseAt := none, barrier := none,
    waits := 0 }

/-- A staged update of a tag takes effect on a core with no valid gated tag, while no activation of the tag runs (R198). -/
def State.updateEffect (s : State) (core tag : Nat) : State :=
  let c := s.core core
  match c.staged.look tag with
  | none => s
  | some v =>
    if (c.table.any fun e => e.2.valid && e.2.gated) || s.tagRuns core tag then s
    else s.setCore core { c with
      table := c.table.put tag { c.table.at tag .blank with const := v }, staged := c.staged.cut tag }

/-- The core has started an activation in a cycle; one that replays another after a pair mismatch is known as a replay (R192,
R205). -/
def Core.noteStart (c : Core) (now t : Nat) (o : Origin) (ctx epoch : Nat) : Core :=
  { c with
    startedAt := some now
    pair := c.pair.map fun p =>
      if p.again.contains (t, o) then { p with again := p.again.erase (t, o), replays := p.replays ++ [(ctx, epoch)] } else p }

/-- An activation of a tag starts in the lowest-numbered free context; an update that could take effect has done so. -/
def State.startApp (s0 : State) (core t : Nat) (o : Origin) (i : StartInfo) : State :=
  let s := s0.updateEffect core t
  match s.freeCtx core with
  | none => s
  | some ctx =>
    let x := (s.ctx core ctx).beginApp (s.core core) ctx t s.now o i
    (s.setCore core ((s.core core).noteStart s.now t o ctx x.epoch)).setCtx core ctx x

/-- A system context starts without a trap (R200, R202). The five ACT registers keep what the last activation of the
context left (DESIGN CHOICE, log entry 82). -/
def State.startSystem (s : State) (core cause : Nat) (val : Word) : State :=
  match s.freeCtx core with
  | none => s
  | some ctx => (s.setCore core { s.core core with startedAt := some s.now }).setCtx core ctx
      ((s.ctx core ctx).enterSystem (s.core core) ctx (causeWord ctx cause false) val 0 0
        ⟨.system, none, .system, 0, s.now + 8, false⟩)

/-- What a message delivers. A codelet post has no header: its format is given as 0 (DESIGN CHOICE, log entry 81). -/
def msgInfo (e : TagEntry) (m : Msg) : StartInfo :=
  match m.post with
  | some (addr, _) => ⟨addr, m.payload, actmsgWord m, 0, 0, 0, 0⟩
  | none => ⟨e.handler, m.payload, actmsgWord m, m.hdr.fmt, m.hdr.round, actchanWord m.hdr, actsrcWord m.hdr⟩

/-- The head of a queue leaves it; how long its successor has been eligible counts from now (R192). -/
def Core.popQueue (c : Core) (q : Nat) : Core :=
  { c with queues := c.queues.put q ((c.queues.at q []).drop 1), elig := c.elig.cut q }

/-- The message at the head of a queue starts its activation; a tied one names its sender in the read set (R13, R350). -/
def State.startMsg (s : State) (core q : Nat) (m : Msg) : State :=
  let c := s.core core
  let t := (s.setCore core (c.popQueue q)).startApp core m.hdr.tag (.message m) (msgInfo (c.table.at m.hdr.tag .blank) m)
  if m.hdr.tied then t.recordRange core false ⟨4, m.hdr.score, 0, 0⟩ else t

/-- An early message moves to the hold buffer if it has room; a late one is dropped (R195). -/
def State.classify (s : State) (core q d : Nat) (m : Msg) : State :=
  let c := s.core core
  if d < 32768 then
    if c.hold.length < 32 then s.setCore core { c.popQueue q with hold := c.hold ++ [.data m] } else s
  else (s.setCore core (c.popQueue q)).logCore core evRoundLate 0 []

/-- ACTIVATION_START (R12, R13, R192, R195). -/
def execActivationStart (core queue : Nat) (s : State) : Host.Outcome State Fault Refusal :=
  let c := s.core core
  match s.headMsg core queue with
  | none => .next s
  | some m =>
    let d := c.ahead m.hdr.tag m.hdr.round
    if queue ≥ 7 ∨ s.tagMay core m.hdr.tag = false then .next s
    else if c.gatedMsg m && d != 0 then .next (s.classify core queue d m)
    else if s.winner core = some queue then .next (s.startMsg core queue m)
    else .next s

/-- CODELET_START (R194). -/
def execCodeletStart (core : Nat) (s : State) : Host.Outcome State Fault Refusal :=
  match s.headMsg core 7 with
  | none => .next s
  | some m => if s.winner core = some 7 then .next (s.startMsg core 7 m) else .next s

/-- PENDING_START: the pending bit clears (R191). ACTTAG.fmt is 0, as for a close (DESIGN CHOICE, log entry 81). -/
def execPendingStart (core tag : Nat) (s : State) : Host.Outcome State Fault Refusal :=
  if s.winner core ≠ some (8 + 2 * tag) then .next s
  else
    let c := s.core core
    let e := c.table.at tag .blank
    let round := if e.gated then (c.rounds.at tag .blank).cur else 0
    .next ((s.setCore core (c.clearPending tag)).startApp core tag .pending
      ⟨e.handler, [], 0, 0, round, 0, 0⟩)

/-- What a close delivers: its round, and the number of the marker that completed it (R84, R197). The other fields of ACTMSG,
queue and ovf, are 0 (DESIGN CHOICE, log entry 52). -/
def closeInfo (e : TagEntry) (again : Bool) (seq round : Nat) : StartInfo :=
  ⟨e.close, [], w64 (b2n again * 2 ^ 40 + seq % 2 ^ 32), 0, round, 0, 0⟩

/-- CLOSE_START: a close that TRET has released is a replay (R79, R84, R197). One that had ended and met a pair mismatch starts
again with its own round (R205, log entry 83). -/
def execCloseStart (core tag : Nat) (s : State) : Host.Outcome State Fault Refusal :=
  if s.winner core ≠ some (9 + 2 * tag) then .next s
  else
    let c := s.core core
    let e := c.table.at tag .blank
    match c.reclose.find? fun k => k.1 == tag with
    | some (t, seq, round) =>
      .next ((s.setCore core { c with reclose := c.reclose.erase (t, seq, round) }).startApp core tag (.closed seq round)
        (closeInfo e true seq round))
    | none =>
      let rs := c.rounds.at tag .blank
      .next (s.startApp core tag (.close rs.seqCur) (closeInfo e rs.again rs.seqCur rs.cur))

/-! ### System starts (R202, R210) -/

/-- The first waiting system start, when it is the one the core starts. -/
def State.sysHead (s : State) (core : Nat) : Option SysStart :=
  if s.winner core = some sysKey then (s.core core).sysq.head? else none

def State.addSys (s : State) (core : Nat) (x : SysStart) : State :=
  let c := s.core core
  s.setCore core { c with sysq := c.sysq ++ [x] }

/-- The first system start leaves the list; those behind it keep the time since when they have been eligible (R192). -/
def State.dropSys (s : State) (core : Nat) : State :=
  let c := s.core core
  s.setCore core { c with
    sysq := c.sysq.drop 1
    elig := (c.elig.cut sysKey).map fun e => if sysKey < e.1 then (e.1 - 1, e.2) else e }

/-- A management message in the ejection buffer of the core's site. -/
def State.mgmtAt (s : State) (core : Nat) : Option Flight :=
  s.net.find? fun f => f.spot == .eject 0 && f.pkt.hdr.kind == .mgmt && s.ejectHead f && s.coreAt f.site == some core

/-- The trap context of a second mismatch whose replay has ended: it holds what had started the replay (R205, log entry 83). -/
def State.startPairFault (s : State) (core : Nat) (a : Activation) : State :=
  match s.freeCtx core with
  | none => s
  | some ctx =>
    let c := (s.core core).giveBack ctx a.origin a.tag
    let msg : Word := match a.origin with
      | .message m => actmsgWord m
      | .pending | .close _ | .closed _ _ | .system => 0
    let x := (s.ctx core ctx).enterSystem c ctx (causeWord ctx cPair false) 2 0 msg
      { a with mode := .system, begun := s.now + 8, issued := false }
    let pair := c.pair.map fun p => { p with broken := some (ctx, x.epoch) }
    (s.setCore core { c with startedAt := some s.now, pair }).setCtx core ctx x

/-- MANAGEMENT_START: a management message arrives, or starts a system context with cause 0x20 (R202). So starts, too, the trap
context of a pair fault that found its activation ended (R205). -/
def execManagementStart (core : Nat) (s : State) : Host.Outcome State Fault Refusal :=
  match s.mgmtAt core with
  | some f => .next ((s.addSys core (.management (packetWords f.pkt))).consume f.id)
  | none => match s.sysHead core with
    | some (.management ws) => .next ((s.dropSys core).startSystem core cManagement (ws.getD 0 0))
    | some (.pairFault a) => .next ((s.dropSys core).startPairFault core a)
    | _ => .next s

/-- MOVED_NOTICE: a system context with cause 0x21 at the sender (R210). -/
def execMovedNotice (core : Nat) (frame : Option ReportFrame) (s : State) : Host.Outcome State Fault Refusal :=
  match frame with
  | some r => match r.ingress.getLast? with
    | some q =>
      let x := s.port q
      .next (s.setPort q { x with sent := x.sent ++ [.report { r with ingress := r.ingress.dropLast } core true] })
    | none => .next (s.addSys core (.moved r.val))
  | none => match s.sysHead core with
    | some (.moved val) => .next ((s.dropSys core).startSystem core cMoved val)
    | _ => .next s

/-! ### Time limit, updates, injection -/

/-- Address of the instruction of a context that has not completed: one whose reply it awaits with nothing issued behind it
(PHASE, BARWAIT, LDACQ, an AMO with aq), else the one at its program counter (R28). -/
def State.unfinished (s : State) (core ctx : Nat) : Word :=
  let x := s.ctx core ctx
  match s.reqs.find? fun r => r.holds && r.owner == .ctx core ctx x.epoch with
  | some r => r.pc
  | none => x.pc

/-- An activation is aborted with cause ACTTIME and no trap context, and what started it is kept: a trap writes all four
registers (R24, R92, R207). A system context that still runs at the limit of a move ends in the same way, with TRAPCAUSE.sys = 1, its
message kept for a replay, and no CORE_FAULT (DESIGN CHOICE, log entry 116). -/
def State.endKept (s : State) (core ctx : Nat) : State :=
  let x := s.ctx core ctx
  match x.act with
  | none => s
  | some a =>
    let c := ((s.core core).unbindAll ctx).standPhase ctx x
    let c' := if a.mode = .app then c.giveBack ctx a.origin a.tag else c
    (s.setCore core (c'.release ctx a)).setCtx core ctx
      { x.freed with
        trapcause := causeWord ctx 0x10 (a.mode == .system), trapval := s.unfinished core ctx, trappc := s.unfinished core ctx
        trapmsg := if a.mode = .app then x.actmsg else 0 }

/-- The clock from which ACTLIM governs: the cycle after its last write (R28). -/
def Core.limitFrom (c : Core) : Nat :=
  match c.actlimAt with
  | some t => t + 1
  | none => 0

/-- ACTTIME (R28). -/
def execActtime (core ctx : Nat) (s : State) : Host.Outcome State Fault Refusal :=
  let x := s.ctx core ctx
  let lim := (s.core core).actlim.toNat
  match x.act with
  | none => .next s
  | some a =>
    if a.mode = .app ∧ a.issued = true ∧ lim ≠ 0 ∧ a.begun + lim ≤ s.now ∧ (s.core core).limitFrom ≤ s.now then
      .next (s.trap core ctx cActtime (s.unfinished core ctx) (s.unfinished core ctx))
    else .next s

/-- ARGUMENT_UPDATE_EFFECT: on a core with no valid gated tag, while no activation of the tag runs (R198). -/
def execArgumentUpdateEffect (core tag : Nat) (s : State) : Host.Outcome State Fault Refusal := .next (s.updateEffect core tag)

/-- MESSAGE_INJECTION: the oldest committed message enters the router (R20, R72). -/
def execMessageInjection (core : Nat) (s : State) : Host.Outcome State Fault Refusal :=
  let c := s.core core
  match c.outq with
  | [] => .next s
  | m :: rest =>
    let body : Body := if m.hdr.kind = .data then .message m.payload else .empty
    .next ((s.setCore core { c with outq := rest }).emit core m.sender ⟨m.hdr, body⟩)

end Sys2Proof.Machine
end

