-- ==== Sys2Proof/Machine/Streams.lean ====
section
/-! DEFINITION. The address generators of the stream registers: element reads and writes, arrival, held faults, and what is
left of a stream after its activation (R102–R105, R23). -/

namespace Sys2Proof.Machine

/-- Address of element `k` (R102). -/
def Stream.addr (st : Stream) (k : Nat) : Int :=
  match st.loop with
  | none => ((st.base + k * st.esize : Nat) : Int)
  | some r => (st.base : Int) + r.off k

/-- Number of the element in flight whose requests form a group. -/
def Stream.elementOf (st : Stream) (g : Nat) : Nat := st.next - st.inflight.length + (st.inflight.takeWhile fun h => h != g).length

/-- The parts of an element on the two sides of a multiple of 32 KiB: no range of the core-local map and no page ends
elsewhere but the ports, which no element may reach (R96, R309). -/
def pageParts (va n : Nat) : List (Nat × Nat) :=
  let k := 0x8000 - va % 0x8000
  if n ≤ k then [(va, n)] else [(va, k), (va + k, n - k)]

/-- Where the parts of an element lie. -/
inductive PartLocs where
  | ok (s : State) (l : List (Nat × Nat × Loc × Option (Route × List Run)))
  | wait (s : State)
  | fault (s : State)

/-- Translate, record and route each part of an element for an address generator (R349). A missing route stops
the stream as a translation failure does (log entry 13). -/
def State.streamParts (s : State) (core : Nat) (who : Requester) (mode : Mode) (a : Acc) (needReply : Bool) :
    List (Nat × Nat) → List (Nat × Nat × Loc × Option (Route × List Run)) → PartLocs
  | [], acc => .ok s acc.reverse
  | (va, n) :: rest, acc =>
    match s.translate who mode a va with
    | .wait t => .wait t
    | .fault t _ => .fault t
    | .ok t0 l near own =>
      let t := t0.record core l n a.r a.w
      match t.reach core l near own needReply with
      | .miss _ => .fault t
      | .own => State.streamParts t core who mode a needReply rest ((va, n, l, none) :: acc)
      | .routed f r u => State.streamParts u core who mode a needReply rest ((va, n, l, some (f, r)) :: acc)

/-- An element's address is usable: every part lies below 2^48. -/
def elementParts (va : Int) (n : Nat) : Option (List (Nat × Nat)) :=
  if va < 0 ∨ va + (n : Int) > (2 : Int) ^ 48 then none else some (pageParts va.toNat n)

/-- Post one element's parts as one group; `bytes` is what an outbound element holds. -/
def State.postElement (s : State) (core q : Nat) (st : Stream) (bytes : List Byte)
    (l : List (Nat × Nat × Loc × Option (Route × List Run))) : State :=
  let g := s.fresh + 1
  let r := l.foldl (fun (t : State × Nat) x =>
    let (va, n, loc, route) := x
    let target : Target :=
      if st.outb then .mem .store loc.place n ((bytes.drop t.2).take n) allBytes else .mem .load loc.place n [] 0
    (t.1.post { Req.blank with
      group := g, owner := .stream core q st.serial, va, target, dest := .element, route, tracked := loc.tracked },
     t.2 + n)) (s, 0)
  r.1

/-- What a bound stream does after an element's access: the element is in flight. -/
def Stream.sent (st : Stream) (g : Nat) : Stream :=
  { st with next := st.next + 1, inflight := st.inflight ++ [g], pushed := st.pushed.drop 1 }

/-- A fault stops the stream at an element; of two, the fault of the earlier element stands (R104). -/
def Stream.stop (st : Stream) (reason va k : Nat) : Stream :=
  match st.fault with
  | some (r, a, j) => { st with fault := some (if k < j then (reason, va % 2 ^ 48, k) else (r, a, j)) }
  | none => { st with fault := some (reason, va % 2 ^ 48, k), xlate := false }

/-- The next access of the stream bound to `q`, if it may make one in its turn (R103, R171). -/
def State.boundAccess (s : State) (core q : Nat) : Option State :=
  let st := (s.core core).stream q
  if !s.streamMay core q || !(s.core core).turnOf st.eng (q + 1) (s.ready core st.eng) then none
  else
    let va := st.addr st.next
    let stop : State → State := fun t =>
      let c := t.core core
      t.setCore core (c.setStream q ((c.stream q).stop 5 (wrapInt va 48) st.next))
    match elementParts va st.esize with
    | none => some (stop s)
    | some parts =>
      match s.streamParts core (.stream core q st.serial) st.mode (if st.outb then accStore else accLoad) (!st.outb) parts [] with
      | .wait t => some t
      | .fault t => some (stop t)
      | .ok t l =>
        let g := t.fresh + 1
        let c := (t.core core).tookTurn st.eng (q + 1)
        some ((t.setCore core (c.setStream q ((c.stream q).sent g))).postElement core q st (st.pushed.headD []) l)

/-- An unbound stream that met a fault loses the failed element and all later ones (R104). No rule gives the detail word of
STREAM_LATE: it holds the reason, the number and the element's address as TRAPVAL would under R105 (DESIGN CHOICE, log entry
95). -/
def State.drainFault (s : State) (core q serial reason va : Nat) : State :=
  let c := s.core core
  let s1 := s.setCore core { c with drains := c.drains.filter fun d => d.serial != serial }
  s1.logCore core evStreamLate (streamVal reason q va) []

/-- The next access of the unbound stream of number `q`, modulo their number, of those that still send (R23). Its address
generator keeps its own entry, whatever its register is bound to by then (R104). -/
def State.drainAccess (s : State) (core q : Nat) : State :=
  let c := s.core core
  match c.drains[q % c.drains.length]? with
  | none => s
  | some d =>
    let others := c.drains.filter fun e => e.serial != d.serial
    if d.pushed.isEmpty then
      if d.inflight.isEmpty then s.setCore core { c with drains := others } else s
    else if s.unperformed d.inflight then s
    else
      let va := d.addr d.next
      match elementParts va d.esize with
      | none => s.drainFault core q d.serial 5 (wrapInt va 48)
      | some parts => match s.streamParts core (.drain core d.serial) d.mode accStore false parts [] with
        | .wait t => t
        | .fault t => t.drainFault core q d.serial 5 (wrapInt va 48)
        | .ok t l =>
          let g := t.fresh + 1
          let c' := t.core core
          let drains := c'.drains.map fun e => if e.serial = d.serial then d.sent g else e
          (t.setCore core { c' with drains }).postElement core q d (d.pushed.headD []) l

/-- STREAM_ELEMENT_ACCESS: the address generator accesses the next element; a register with nothing to access lets an
unbound stream send (R103, R23). -/
def execStreamElementAccess (core q : Nat) (s : State) : Host.Outcome State Fault Refusal :=
  match s.boundAccess core q with
  | some t => .next t
  | none => .next (s.drainAccess core q)

/-- Take the replies at hand for the requests of a group. -/
def State.takeGroup (s : State) (core : Nat) : List Req → State
  | [] => s
  | r :: rest =>
    let t := match s.takeReply core r with
      | some (rep, u) => u.setReq { r with stage := .back rep.data rep.poisoned }
      | none => s
    State.takeGroup t core rest

/-- A request of stream register `q` that the register no longer awaits: of an earlier binding, or of an element behind the
one at which the stream stopped (R104, R107). -/
def Core.strayReq (c : Core) (core q : Nat) (r : Req) : Bool :=
  let st := c.stream q
  match r.owner with
  | .stream n p serial => n == core && p == q && (!st.bound || st.serial != serial || !st.inflight.contains r.group)
  | .ctx _ _ _ | .engine _ _ _ | .host _ => false

/-- STREAM_ELEMENT_ARRIVAL: the oldest element in flight has returned whole: it arrives, or an uncorrectable error stops the
stream at it, and the elements behind it are discarded (R103–R105). The data of an element that no binding awaits is
discarded (R107). -/
def execStreamElementArrival (core q : Nat) (poisoned : Bool) (s : State) : Host.Outcome State Fault Refusal :=
  let st := (s.core core).stream q
  match s.takeOrphan core ((s.core core).strayReq core q) with
  | some t => .next t
  | none =>
  match st.inflight with
  | [] => .next s
  | g :: more =>
    if !st.bound || st.outb then .next s
    else
      let t := s.takeGroup core (s.reqs.filter fun r => r.group == g)
      let mine := t.reqs.filter fun r => r.group == g
      let back := mine.all fun r => r.returned.isSome
      if !back || mine.isEmpty then .next t
      else
        let c := t.core core
        let cur := c.stream q
        let k := cur.elementOf g
        let bytes := mine.flatMap fun r => match r.returned with
          | some (d, _) => d
          | none => []
        let u := { t with reqs := t.reqs.filter fun r => r.group != g }
        let bad := poisoned || mine.any Req.inError
        let st' := if bad then { cur.stop 6 (wrapInt (cur.addr k) 48) k with inflight := [], next := k }
                   else { cur with inflight := more, arrived := cur.arrived ++ [bytes] }
        .next (u.setCore core (c.setStream q st'))

/-- The element of a dropped request will not be performed: its other part is taken back wherever it stands (R226, R270). -/
def State.recall (s : State) (r : Req) : State :=
  let mine := s.reqs.filter fun q => q.group == r.group
  let out := s.net.filter fun f => f.pkt.hdr.kind == .memReq && f.pkt.hdr.smod == s.moduleId && (match f.pkt.body with
    | .memReq id _ _ _ _ _ _ _ _ => mine.any fun q => q.id == id
    | _ => false)
  out.foldl (fun t f => t.consume f.id) { s with reqs := s.reqs.filter fun q => q.group != r.group }

/-- A stream's request or its reply was dropped by a route check: the stream stops at that element (R104, R226). -/
def State.streamDropped (s : State) (core q serial : Nat) (r : Req) : State :=
  let c := s.core core
  let st := c.stream q
  let k := st.elementOf r.group
  if st.bound && st.serial == serial then
    let st' := if st.inflight.contains r.group then
        { st.stop 5 (wrapInt (st.addr k) 48) k with inflight := st.inflight.takeWhile fun g => g != r.group, next := k } else st
    s.setCore core (c.setStream q st')
  else match c.drains.find? fun d => d.serial == serial with
    | some d => s.drainFault core q serial 5 (wrapInt (d.addr (d.elementOf r.group)) 48)
    | none => s

/-- An outbound element has been performed at its home and acknowledged (R103). -/
def State.elementDone (s : State) (core q serial g : Nat) : State :=
  if s.reqs.any fun r => r.group == g then s
  else
    let c := s.core core
    let st := c.stream q
    let drop : Stream → Stream := fun x => { x with inflight := x.inflight.filter fun h => h != g }
    let c' := if st.bound && st.serial == serial then c.setStream q (drop st) else c
    s.setCore core { c' with drains := c'.drains.map drop }

end Sys2Proof.Machine
end

