-- ==== Sys2Proof/Machine/Sync.lean ====
section
/-! DEFINITION. Synchronisation as a core issues it: AMO and CAS (R291–R294, R317), PUSH, POP, POPW and OBJINIT (R244,
R252), barriers (R297–R299), DECZ (R304) and PHASE (R301). -/

namespace Sys2Proof.Machine

/-! ### AMO and CAS -/

/-- AMO (R291): the value register is b. -/
def State.amo (s : State) (op : MemOp) (d a b : Reg) (w aq rl : Bool) : Act :=
  let n := if w then 4 else 8
  let ea := s.x a
  if ea.toNat % n ≠ 0 then .trap s cMisaligned ea
  else if ea.toNat ≥ 2 ^ 48 then .trap s cAccess ea
  else s.amoAct ea op (!w) (s.x b) 0 (s.me.dest d n true) aq rl

/-- Peer AMO (R317): the value is in d, the old value goes back to d. -/
def State.amoPeer (s : State) (op : MemOp) (d a p : Reg) (w aq rl : Bool) : Act :=
  let n := if w then 4 else 8
  let o := s.x a
  if o.toNat % n ≠ 0 then .trap s cMisaligned o
  else match s.peerVa o.toNat (s.x p) with
    | none => .trap s cAccess o
    | some va => s.amoAct (w64 va) op (!w) (s.x d) 0 (s.me.dest d n true) aq rl

/-- AMO.add (R291). -/
def execAmoAdd (d a b : Reg) (w aq rl : Bool) (s : State) : Host.Outcome State Fault Refusal :=
  (s.amo .amoAdd d a b w aq rl).out

/-- AMO.and (R291). -/
def execAmoAnd (d a b : Reg) (w aq rl : Bool) (s : State) : Host.Outcome State Fault Refusal :=
  (s.amo .amoAnd d a b w aq rl).out

/-- AMO.or (R291). -/
def execAmoOr (d a b : Reg) (w aq rl : Bool) (s : State) : Host.Outcome State Fault Refusal :=
  (s.amo .amoOr d a b w aq rl).out

/-- AMO.xor (R291). -/
def execAmoXor (d a b : Reg) (w aq rl : Bool) (s : State) : Host.Outcome State Fault Refusal :=
  (s.amo .amoXor d a b w aq rl).out

/-- AMO.min (R291). -/
def execAmoMin (d a b : Reg) (w aq rl : Bool) (s : State) : Host.Outcome State Fault Refusal :=
  (s.amo .amoMin d a b w aq rl).out

/-- AMO.max (R291). -/
def execAmoMax (d a b : Reg) (w aq rl : Bool) (s : State) : Host.Outcome State Fault Refusal :=
  (s.amo .amoMax d a b w aq rl).out

/-- AMO.minu (R291). -/
def execAmoMinu (d a b : Reg) (w aq rl : Bool) (s : State) : Host.Outcome State Fault Refusal :=
  (s.amo .amoMinu d a b w aq rl).out

/-- AMO.maxu (R291). -/
def execAmoMaxu (d a b : Reg) (w aq rl : Bool) (s : State) : Host.Outcome State Fault Refusal :=
  (s.amo .amoMaxu d a b w aq rl).out

/-- AMO.swap (R291). -/
def execAmoSwap (d a b : Reg) (w aq rl : Bool) (s : State) : Host.Outcome State Fault Refusal :=
  (s.amo .amoSwap d a b w aq rl).out

/-- AMO.fadd.w (R291, R292). -/
def execAmoFadd (d a b : Reg) (aq rl : Bool) (s : State) : Host.Outcome State Fault Refusal :=
  (s.amo .amoFadd d a b true aq rl).out

/-- AMO.add, peer form (R317). -/
def execAmoAddPeer (d a p : Reg) (w aq rl : Bool) (s : State) : Host.Outcome State Fault Refusal :=
  (s.amoPeer .amoAdd d a p w aq rl).out

/-- AMO.and, peer form (R317). -/
def execAmoAndPeer (d a p : Reg) (w aq rl : Bool) (s : State) : Host.Outcome State Fault Refusal :=
  (s.amoPeer .amoAnd d a p w aq rl).out

/-- AMO.or, peer form (R317). -/
def execAmoOrPeer (d a p : Reg) (w aq rl : Bool) (s : State) : Host.Outcome State Fault Refusal :=
  (s.amoPeer .amoOr d a p w aq rl).out

/-- AMO.xor, peer form (R317). -/
def execAmoXorPeer (d a p : Reg) (w aq rl : Bool) (s : State) : Host.Outcome State Fault Refusal :=
  (s.amoPeer .amoXor d a p w aq rl).out

/-- AMO.min, peer form (R317). -/
def execAmoMinPeer (d a p : Reg) (w aq rl : Bool) (s : State) : Host.Outcome State Fault Refusal :=
  (s.amoPeer .amoMin d a p w aq rl).out

/-- AMO.max, peer form (R317). -/
def execAmoMaxPeer (d a p : Reg) (w aq rl : Bool) (s : State) : Host.Outcome State Fault Refusal :=
  (s.amoPeer .amoMax d a p w aq rl).out

/-- AMO.minu, peer form (R317). -/
def execAmoMinuPeer (d a p : Reg) (w aq rl : Bool) (s : State) : Host.Outcome State Fault Refusal :=
  (s.amoPeer .amoMinu d a p w aq rl).out

/-- AMO.maxu, peer form (R317). -/
def execAmoMaxuPeer (d a p : Reg) (w aq rl : Bool) (s : State) : Host.Outcome State Fault Refusal :=
  (s.amoPeer .amoMaxu d a p w aq rl).out

/-- AMO.swap, peer form (R317). -/
def execAmoSwapPeer (d a p : Reg) (w aq rl : Bool) (s : State) : Host.Outcome State Fault Refusal :=
  (s.amoPeer .amoSwap d a p w aq rl).out

/-- AMO.fadd.w, peer form (R292, R317). -/
def execAmoFaddPeer (d a p : Reg) (aq rl : Bool) (s : State) : Host.Outcome State Fault Refusal :=
  (s.amoPeer .amoFadd d a p true aq rl).out

/-- CAS: d holds the compare value at issue and receives the old value (R293). -/
def execCas (d a b : Reg) (w aq rl : Bool) (s : State) : Host.Outcome State Fault Refusal :=
  let n := if w then 4 else 8
  let ea := s.x a
  if ea.toNat % n ≠ 0 then s.trapOut cMisaligned ea
  else if ea.toNat ≥ 2 ^ 48 then s.trapOut cAccess ea
  else (s.amoAct ea .cas (!w) (s.x b) (s.x d) (s.me.dest d n true) aq rl).out

/-! ### Operations on a synchronisation engine -/

/-- The address checks every instruction of the sync group makes: 32-byte alignment, then R64 steps 2 and 3 with sync
space of the own module required, then the route (R244, R252, R297). -/
def State.withSync (s : State) (ea : Word) (needReply : Bool)
    (k : State → Loc → Option (Route × List Run) → Act) : Act :=
  if ea.toNat % 32 ≠ 0 then .trap s cMisaligned ea
  else if ea.toNat ≥ 2 ^ 48 then .trap s cAccess ea
  else s.withAccess accSync ea.toNat 32 needReply ea k

/-- Send an operation to the engine, holding one place of class SY. -/
def State.syncPost (s : State) (ea : Word) (l : Loc) (route : Option (Route × List Run)) (op : SyncOp) (dest : Dest)
    (holds : Bool) : Act :=
  if s.full .sy 1 then .stall s
  else
    let t := s.post { Req.blank with
      owner := s.meOwner, cls := some .sy, va := ea.toNat, pc := s.me.pc, target := .sync l.place op, dest, holds, route }
    .go ((t.charge .sy 1).pass)

/-- A reserved field or value in an object descriptor (R242). -/
def descBad (v : Nat) : Bool := bits v 31 24 != 0 || bit v 3 || bits v 23 4 == 0 || bits v 1 0 == 3

/-- Bytes of the object a descriptor describes (R240). -/
def objSize (v : Nat) : Nat := 32 + bits v 23 4 * (if bit v 2 then 32 else 8)

/-- The page the context's translation of an address came from. -/
def State.pageOf (s : State) (va : Nat) : Option Page := (s.core s.focus.core).held s.meWho va

/-- The checks of OBJINIT on its descriptor, in order (R244). -/
def State.objOk (s : State) (ea : Nat) (l : Loc) (v : Nat) : Bool :=
  !descBad v && ((bits v 1 0 == 2) == l.fifo) &&
  (match s.pageOf ea with
   | some p => decide (ea + objSize v ≤ p.base + p.size)
   | none => false)

/-- OBJINIT (R244): its route is taken after the checks on the descriptor. -/
def State.objInit (s : State) (ea v : Word) : Act :=
  if ea.toNat % 32 ≠ 0 then .trap s cMisaligned ea
  else if ea.toNat ≥ 2 ^ 48 then .trap s cAccess ea
  else match s.translate s.meWho s.me.mode accSync ea.toNat with
    | .wait t => .stall t
    | .fault t cause => .trap t cause ea
    | .ok t l near own =>
      if !t.objOk ea.toNat l v.toNat then .trap t cSync ea
      else match t.reach t.focus.core l near own true with
        | .miss m => .trap t cRouteMiss (w64 m)
        | .own => t.syncPost ea l none (.objInit v) .none false
        | .routed f r u => u.syncPost ea l (some (f, r)) (.objInit v) .none false

/-- OBJINIT (R244). -/
def execObjinit (a b : Reg) (s : State) : Host.Outcome State Fault Refusal := (s.objInit (s.x a) (s.x b)).out

/-- PUSH, POP and POPW (R241, R245, R252). -/
def State.pairAct (s : State) (op : PairOp) (ea : Word) (wide : Bool) (win : Nat) (value : Vec) (dest : Dest) : Act :=
  s.withSync ea (op != .push) fun t l route =>
    if t.full .sy 1 then .stall t
    else
      let t1 := (t.charge .sy 1).post { Req.blank with
        owner := t.meOwner, cls := some .sy, va := ea.toNat, pc := t.me.pc,
        target := .pair op win l.place wide l.fifo value, dest, route }
      .go t1.pass

/-- Where an element goes: an x register, or the v register of the .v forms. -/
def Ctx.elemDest (x : Ctx) (d : Reg) (v : Bool) : Dest := if v then .vec d.toNat 0 32 else x.dest d 8 false

/-- PUSH: the value register is d (R252). -/
def execPush (d a : Reg) (v : Bool) (win : BitVec 8) (s : State) : Host.Outcome State Fault Refusal :=
  (s.pairAct .push (s.x a) v win.toNat (if v then s.me.readV d.toNat else (s.x d).setWidth 256) .none).out

/-- POP (R252). -/
def execPop (d a : Reg) (v : Bool) (win : BitVec 8) (s : State) : Host.Outcome State Fault Refusal :=
  (s.pairAct .pop (s.x a) v win.toNat 0 (s.me.elemDest d v)).out

/-- POPW (R252). -/
def execPopw (d a : Reg) (v : Bool) (win : BitVec 8) (s : State) : Host.Outcome State Fault Refusal :=
  (s.pairAct .popw (s.x a) v win.toNat 0 (s.me.elemDest d v)).out

/-- BARINIT (R297): the count is checked after the address and before the route. -/
def State.barInit (s : State) (ea n : Word) : Act :=
  if ea.toNat % 32 ≠ 0 then .trap s cMisaligned ea
  else if ea.toNat ≥ 2 ^ 48 then .trap s cAccess ea
  else match s.translate s.meWho s.me.mode accSync ea.toNat with
    | .wait t => .stall t
    | .fault t cause => .trap t cause ea
    | .ok t l near own =>
      if n.toNat < 1 ∨ n.toNat > 1048575 then .trap t cSync ea
      else match t.reach t.focus.core l near own true with
        | .miss m => .trap t cRouteMiss (w64 m)
        | .own => t.syncPost ea l none (.barInit n.toNat) .none false
        | .routed f r u => u.syncPost ea l (some (f, r)) (.barInit n.toNat) .none false

/-- BARINIT (R297). -/
def execBarinit (a b : Reg) (s : State) : Host.Outcome State Fault Refusal := (s.barInit (s.x a) (s.x b)).out

/-- BARARR: a release; the reply writes the barrier record (R298). -/
def execBararr (a : Reg) (s : State) : Host.Outcome State Fault Refusal :=
  let ea := s.x a
  (s.withSync ea true fun t l route =>
    if !t.drained then .stall t else t.syncPost ea l route .barArr (.barrier ea.toNat) false).out

/-- A BARARR of the context to an address, of this activation or an earlier one, has no reply yet (R299). -/
def State.arrPending (s : State) (ea : Nat) : Bool :=
  s.reqs.any fun r => r.dest == .barrier ea && (match r.owner with
    | .ctx core ctx _ => core == s.focus.core && ctx == s.focus.ctx
    | .stream _ _ _ | .engine _ _ _ | .host _ => false)

/-- BARWAIT: it waits for the replies of earlier BARARRs to the address, then holds the context (R299). -/
def execBarwait (d a : Reg) (s : State) : Host.Outcome State Fault Refusal :=
  let ea := s.x a
  (s.withSync ea true fun t l route =>
    if t.arrPending ea.toNat then .stall t
    else
      let g := match t.me.barrier with
        | some (b, g) => if b = ea.toNat then some g else none
        | none => none
      t.syncPost ea l route (.barWait g) (t.me.dest d 8 false) true).out

/-- DECZ: a release at a counter record in a peer's scratchpad (R304, R315). -/
def execDecz (a b : Reg) (s : State) : Host.Outcome State Fault Refusal :=
  let o := s.x a
  if o.toNat % 16 ≠ 0 then s.trapOut cMisaligned o
  else if o.toNat > 0x7FF0 then s.trapOut cAccess o
  else match s.peerVa o.toNat (s.x b) with
    | none => s.trapOut cAccess o
    | some va => (s.withAccess accDecz va 16 true (w64 va) fun t l route =>
        if l.place.space ≠ .scratch then .trap t cAccess o
        else if !t.drained || t.full .sy 1 then .stall t
        else
          let t2 := t.post { Req.blank with
            owner := t.meOwner, cls := some .sy, va, pc := t.me.pc, target := .mem .decz l.place 16 [] 0, route,
            tracked := l.tracked }
          .go ((t2.charge .sy 1).pass)).out

/-! ### PHASE (R276, R285, R301, R302) -/

/-- Place that stands for the phase state of a group at a die's engine: past sync space, so no access overlaps it. -/
def phasePlace (die g : Nat) : Place := ⟨.sync, die, 0x400_0000 + 32 * g⟩

/-- A command accepted into queue `y` before the stamp is still to be performed. -/
def Core.before (c : Core) (y : EngineQ) (stamp : Nat) : Bool :=
  (c.cmds.at (queueNo y) []).any (fun k => decide (k.stamp < stamp)) ||
  (match c.jobs.look (queueNo y) with
   | some j => decide (j.cmd.stamp < stamp)
   | none => false)

/-- An access of a command accepted into queue `y` before the stamp is still to be performed, though the command has faulted
(R276). -/
def State.behindFault (s : State) (core : Nat) (y : EngineQ) (stamp : Nat) : Bool :=
  s.reqs.any fun r => r.pending && (match r.owner with
    | .engine n q k => n == core && q == y && decide (k < stamp)
    | .ctx _ _ _ | .stream _ _ _ | .host _ => false)

/-- Every command accepted into a queue of the mask before acceptance number `stamp` is performed, and every access a faulted one
has made (R276, R301). -/
def State.masked (s : State) (core : Nat) (mask : BitVec 3) (stamp : Nat) : Bool :=
  [EngineQ.mxq, .cpq0, .cpq1].all fun y =>
    !mask.getLsbD (queueNo y) || (!(s.core core).before y stamp && !s.behindFault core y stamp)

/-- Acceptance number from which commands come after the issue of the PHASE at the program counter: it has issued when it
first stalls (R301). -/
def State.phaseStamp (s : State) : Nat :=
  match s.me.phaseNow with
  | some (n, _) => n
  | none => s.fresh

/-- A PHASE of the group issued before acceptance number `stamp`, in a context other than `ctx` or of an activation since aborted,
has still to make its arrival (R276, R277). -/
def State.phaseBefore (s : State) (core ctx g stamp : Nat) : Bool :=
  ((List.range 4).any fun k => k != ctx && (match (s.ctx core k).phaseNow with
    | some (n, h, _) => h == g && decide (n < stamp)
    | none => false)) ||
  (s.core core).standing.any fun e => e.group == g && decide (e.stamp < stamp)

/-- A PHASE of the group has issued before this one and has still to make its arrival (R276). -/
def State.phaseAhead (s : State) (g : Nat) : Bool := s.phaseBefore s.focus.core s.focus.ctx g s.phaseStamp

/-- The PHASE at the program counter stalls; at its first stall it has issued (R276, R301). -/
def State.phaseWaits (s : State) (g : Nat) (mask : BitVec 3) : State :=
  match s.me.phaseNow with
  | some _ => s
  | none => (s.setMe { s.me with phaseAt := some (s.me.pc, s.fresh, g, mask) }).tick

/-- The arrival of a core's PHASE is sent to the engine of its die on a route (R301). -/
def State.postArrival (s : State) (core ctx epoch g : Nat) (pc : Word) (holds : Bool) (fwd : Route) (ret : List Run) : State :=
  let c := s.core core
  let t := (s.setCore core { c with phases := c.phases ++ [g] }).post { Req.blank with
    owner := .ctx core ctx epoch, cls := some .sy, pc, target := .sync (phasePlace (coreDie core) g) (.phase g), holds,
    route := some (fwd, ret) }
  t.setCtx core ctx ((t.ctx core ctx).addCount .sy 1)

/-- PHASE (R301). -/
def execPhase (mask : BitVec 3) (g : BitVec 8) (s : State) : Host.Outcome State Fault Refusal :=
  let c := s.myCore
  if !groupHeld c.grp g.toNat then s.trapOut cGroup (w64 g.toNat)
  else if c.phases.contains g.toNat || s.phaseAhead g.toNat || !s.drained || !s.masked s.focus.core mask s.phaseStamp || s.full .sy 1 then
    .next (s.phaseWaits g.toNat mask)
  else
    match s.reach s.focus.core (s.nearLoc (phasePlace (coreDie s.focus.core) g.toNat)) true false true with
    | .miss v => (s.setMe { s.me with phaseAt := none }).trapOut cRouteMiss (w64 v)
    | .own => .next s
    | .routed f r t =>
      let u := t.postArrival t.focus.core t.focus.ctx t.me.epoch g.toNat t.me.pc true f r
      .next (u.setMe { u.me with phaseAt := none }).pass

/-- A standing arrival may be made: no earlier PHASE of the group of this core is uncompleted, and what the PHASE waited for is
performed (R276, R277, R301, log entry 113). -/
def State.standReady (s : State) (core : Nat) (e : Standing) : Bool :=
  let c := s.core core
  !c.phases.contains e.group && !s.phaseBefore core 4 e.group e.stamp && c.mig.isNone && decide ((s.ctx core e.ctx).sy < classCap .sy)
  && !(s.reqs.any fun r => decide (r.id < e.stamp) && r.pending && (match r.owner with
    | .ctx n k _ => n == core && k == e.ctx
    | .stream _ _ _ | .engine _ _ _ | .host _ => false))
  && s.masked core e.mask e.stamp

/-- Each core makes a standing arrival that may be made (R277). -/
def State.sendStanding (s : State) : State :=
  s.cores.foldl (fun t p => match p.2.standing.find? (t.standReady p.1) with
    | none => t
    | some e => match t.reach p.1 (t.nearLoc (phasePlace (coreDie p.1) e.group)) true false true with
      | .routed f r u =>
        let c := u.core p.1
        (u.setCore p.1 { c with standing := c.standing.erase e }).postArrival p.1 e.ctx e.epoch e.group 0 false f r
      | .miss _ => t
      | .own => t) s

end Sys2Proof.Machine
end

