-- ==== Sys2Proof/Machine/Homes.lean ====
section
/-! DEFINITION. Homes of memory and the replies of accesses: performance in service order (R269, R294), counter records
(R304), load, store and synchronisation replies (R65–R67, R253, R397), releases (R295) and route-fault reports (R202,
R226). -/

namespace Sys2Proof.Machine

open Sys2Proof

/-! ### Homes -/

/-- A number no core of this module has, for a writer in another module. -/
def foreignCore : Nat := 2 ^ 40

/-- The core that made a packet's access: its number here, or that it lies in another module. -/
def State.packetCore (s : State) (h : Header) : Nat := if h.smod = s.moduleId then h.score else foreignCore

/-- The header of the answer to a request: the return route, and what a report about it needs (R220, R226, R378). Its score is
the core at the site, or 0 (DESIGN CHOICE, log entry 98). -/
def State.replyHeader (s : State) (site : Nat) (h : Header) (ret : List Run) (kind : PktKind) : Header :=
  { s.mkHeader kind 0 (((s.site site).core).getD 0) site ⟨ret, h.ssite, h.smod⟩ with reqPorts := h.ingress, asker := h.score }

/-- A reply leaves the home behind a local port on the return route its request brought (R220, R245, R397); one from the
memory of a paired core waits for its twin (R204). -/
def State.replyFrom (s : State) (site port : Nat) (h : Header) (ret : List Run) (kind : PktKind) (body : Body) : State :=
  let p : Packet := ⟨s.replyHeader site h ret kind, body⟩
  match (if port = 0 then (s.site site).core else none) with
  | some c => s.emit c none p
  | none => s.injectAt site port p

/-- An operation left behind by a move: nothing awaits what it returns (R207). -/
def Req.isLeft (r : Req) : Bool := r.owner.isCtx && r.cls.isNone && r.dest == .none && !isStore r.target

/-- An access to own memory is performed: what it returns waits for the core. -/
def State.ownDone (s : State) (r : Req) (data : List Byte) (poisoned ok : Bool) : State :=
  let t := if r.isLeft then s.dropReq r.id else s.setReq { r with stage := .performed data poisoned ok }
  match ownerCore r.owner with
  | some n => t.pump n
  | none => t

/-- A store of this module is performed at its home: its acknowledgement needs no packet (R75, R221). -/
def State.markPerformed (s : State) (id : Nat) : State :=
  match s.req id with
  | none => s
  | some r => s.ownDone r [] false true

/-- Whether an operation is a store. -/
def isStoreOp (op : MemOp) : Bool := op == .store

/-! A part of a stream element is performed together with the element's other part: it is held at its home until that one has
come, so that an element is one unit (R270). -/

/-- The other parts of a stream element that are still to be performed in the memory of the same module: one in another module's is
performed there by itself (R270, R309). -/
def State.siblings (s : State) (r : Req) : List Req :=
  match r.owner with
  | .stream _ _ _ => s.reqs.filter fun q =>
      q.group == r.group && q.id != r.id && q.pending && q.module s.moduleId == r.module s.moduleId
  | .ctx _ _ _ => []
  | .engine _ _ _ => []
  | .host _ => []

/-- The request of a packet of this module, if it is a part of a stream element. -/
def State.elementReq (s : State) (h : Header) (rid : Nat) : Option Req :=
  if h.smod ≠ s.moduleId then none
  else (s.req rid).filter fun r => !(s.siblings r).isEmpty

/-- A memory request that has come in a packet is performed and answered (R269, R397). -/
def State.performBody (s : State) (p : Packet) (site : Nat) : State :=
  match p.body with
  | .memReq rid op q n data cmp ret _ tracked =>
    let u := s.performMem op q n data cmp (some (s.packetCore p.hdr)) tracked
    if isStoreOp op && p.hdr.smod == s.moduleId then u.1.markPerformed rid
    else u.1.replyFrom site (homePort q) p.hdr ret .memRep (.memRep rid u.2.1 u.2.2 true)
  | _ => s

/-- An access of the core to its own memory is performed. -/
def State.performReq (s : State) (r : Req) : State :=
  match r.target with
  | .mem op p n data cmp =>
    let q := s.performMem op p n data cmp (ownerCore r.owner) r.tracked
    q.1.ownDone r q.2.1 q.2.2 true
  | .sync _ _ => s
  | .pair _ _ _ _ _ _ => s

/-- A held part is performed. -/
def State.performHeld (s : State) (r : Req) : State :=
  match r.stage with
  | .held none => s.performReq r
  | .held (some (p, site)) => (s.setReq { r with stage := .going }).performBody p site
  | .release | .queued | .going | .performed _ _ _ | .back _ _ | .answered _ | .popped _ _ _ => s

/-- An access of the core's own memory is performed (R65, R269). -/
def State.performOwn (s : State) (id : Nat) : State :=
  match s.req id with
  | none => s
  | some r => match r.target with
    | .mem op _ _ _ _ =>
      if op = .decz ∨ r.route.isSome ∨ r.stage ≠ .going ∨ !s.ownReady r then s
      else if (s.siblings r).all Req.isHeld then ((s.siblings r).foldl State.performHeld s).performReq r
      else s.setReq { r with stage := .held none }
    | .sync _ _ => s
    | .pair _ _ _ _ _ _ => s

/-- Two requests for one bank. -/
def sameBank (p q : Packet) : Bool :=
  match p.body, q.body with
  | .memReq _ _ a _ _ _ _ _ _, .memReq _ _ b _ _ _ _ _ _ => a.sameHome b
  | _, _ => false

/-- The request came to its bank in an earlier cycle, and none of those at hand for the bank came before it: requests are
served in order of arrival, those of one cycle in port order (R216, R269). -/
def State.served (s : State) (f : Flight) : Bool :=
  decide (f.came < s.now) && !(s.net.any fun g =>
    g.site == f.site && g.spot == f.spot && s.ejectHead g && sameBank g.pkt f.pkt && lexBefore g.order f.order)

/-- A memory request in the ejection buffer of its home is performed (R269, R397). -/
def State.performPacket (s : State) (id : Nat) : State :=
  match s.flight id with
  | none => s
  | some f => match f.pkt.body with
    | .memReq rid op p _ _ _ _ _ _ =>
      if op = .decz ∨ (s.ejected id (homePort p)).isNone ∨ f.pkt.hdr.kind ≠ .memReq ∨ !s.served f then s
      else match s.elementReq f.pkt.hdr rid with
        | none => (s.consume id).performBody f.pkt f.site
        | some r =>
          if (s.siblings r).all Req.isHeld then
            ((s.siblings r).foldl State.performHeld (s.consume id)).performBody f.pkt f.site
          else (s.consume id).setReq { r with stage := .held (some (f.pkt, f.site)) }
    | _ => s

/-- MEMORY_REQUEST_ARRIVAL (R269). -/
def execMemoryRequestArrival (at' : Arrival) (s : State) : Host.Outcome State Fault Refusal :=
  match at' with
  | .own id => .next (s.performOwn id)
  | .packet id => .next (s.performPacket id)

/-- The step of DECZ at its counter record; none while the codelet cannot be posted (R194, R303, R304). The flag says that
the record was in error. -/
def State.deczStep (s : State) (p : Place) (writer : Nat) (tracked : Bool) : Option (State × Bool) :=
  let bs := s.readPlace p 16
  let d0 := leNat (bs.take 8)
  let d1 := leNat (bs.drop 8)
  let site := p.owner
  if s.poisoned p 16 then some (s, true)
  else if bits d0 63 38 ≠ 0 ∨ bits d1 63 48 ≠ 0 then some (s.log (siteDie site) evSyncFault site (s.site site).core 0 [], false)
  else if bits d0 31 0 = 0 then some (s.log (siteDie site) evDeczUnder site (s.site site).core 0 [], false)
  else
    let t := (s.writePlace p (natLE 8 (d0 - 1))).markWrite p 16 (some writer) tracked
    if bits d0 31 0 ≠ 1 then some (t, false)
    else match (s.site site).core with
      | none => some (t, false)
      | some c => (t.postCodelet c (bits d1 47 0) p.off (bits d0 37 32)).map fun u => (u, false)

/-- DECZ_HOME (R304). -/
def execDeczHome (at' : Arrival) (s : State) : Host.Outcome State Fault Refusal :=
  match at' with
  | .own id => match s.req id with
    | none => .next s
    | some r => match r.target with
      | .mem .decz p _ _ _ =>
        if r.route.isSome ∨ r.stage ≠ .going ∨ !s.ownReady r then .next s
        else match s.deczStep p ((ownerCore r.owner).getD foreignCore) r.tracked with
          | none => .next s
          | some (t, bad) => .next (t.ownDone r [] bad true)
      | _ => .next s
  | .packet id => match s.flight id with
    | none => .next s
    | some f => match f.pkt.body with
      | .memReq rid .decz p _ _ _ ret _ tracked =>
        if (s.ejected id (homePort p)).isNone ∨ f.pkt.hdr.kind ≠ .memReq ∨ !s.served f then .next s
        else match s.deczStep p (s.packetCore f.pkt.hdr) tracked with
          | none => .next s
          | some (t, bad) =>
            .next ((t.consume id).replyFrom f.site (homePort p) f.pkt.hdr ret .memRep (.memRep rid [] bad true))
      | _ => .next s

/-! ### Loads and stores -/

/-- A packet in the ejection buffer of a site that no core has left; one at a vacated site is discarded there (R210). -/
def State.replyAt (s : State) (id : Nat) : Option Flight :=
  match s.ejected id 0 with
  | none => none
  | some f => if (s.site f.site).fwd.isSome then none else some f

/-- The request a reply packet answers, with what it carries. -/
def State.repliedReq (s : State) (f : Flight) : Option (Req × List Byte × Bool) :=
  match f.pkt.body with
  | .memRep rid data bad _ => (s.req rid).map fun r => (r, data, bad)
  | _ => none

/-- The reply of an access of a context is finished, and what waited for it may set out. -/
def State.finish (s : State) (r : Req) (data : List Byte) (poisoned : Bool) : State :=
  let t := s.complete r data poisoned
  match ownerCore r.owner with
  | some n => t.pump n
  | none => t

def Req.isLd (r : Req) : Bool := r.cls == some .ld

/-- LOAD_REPLY: the data of a load comes back (R65, R66). A reply nobody waits for is discarded. -/
def execLoadReply (at' : Arrival) (s : State) : Host.Outcome State Fault Refusal :=
  match at' with
  | .own id => match s.req id with
    | none => .next s
    | some r => match r.stage with
      | .performed data bad _ => if r.isLd then .next (s.finish r data bad) else .next s
      | _ => .next s
  | .packet id => match s.replyAt id with
    | none => .next s
    | some f =>
      if f.pkt.hdr.kind ≠ .memRep then .next s
      else match s.repliedReq f with
        | none => .next (s.consume id)
        | some (r, data, bad) => if r.isLd then .next ((s.consume id).finish r data bad) else .next s

/-- A store is acknowledged: its count falls, a stream's element or an engine's write is complete (R75, R103, R108). -/
def State.ackStore (s : State) (r : Req) : State :=
  match r.owner with
  | .ctx _ _ _ => s.finish r [] false
  | .stream core q serial => (s.dropReq r.id).elementDone core q serial r.group
  | .engine core _ _ => (s.dropReq r.id).pump core
  | .host _ => s.dropReq r.id

/-- STORE_ACK: the completion of a store reaches its issuer (R75, R397). -/
def execStoreAck (at' : Arrival) (s : State) : Host.Outcome State Fault Refusal :=
  match at' with
  | .own id => match s.req id with
    | none => .next s
    | some r => match r.stage with
      | .performed _ _ _ => if isStore r.target then .next (s.ackStore r) else .next s
      | _ => .next s
  | .packet id => match s.replyAt id with
    | none => .next s
    | some f =>
      if f.pkt.hdr.kind ≠ .memRep then .next s
      else match s.repliedReq f with
        | none => .next (s.consume id)
        | some (r, _, _) => if isStore r.target then .next ((s.consume id).ackStore r) else .next s

/-- STREL_INJECT: a waiting release sets out once every earlier access of its context is performed, an injected PUSH among them
(R272, R295). -/
def execStrelInject (id : Nat) (s : State) : Host.Outcome State Fault Refusal :=
  match s.req id with
  | none => .next s
  | some r =>
    let sameCtx : Owner → Bool := fun o => match o, r.owner with
      | .ctx c x _, .ctx c' x' _ => c == c' && x == x'
      | _, _ => false
    let pushed : Bool := match r.owner with
      | .ctx c x _ => (s.ctx c x).pushes.any fun n => decide (n < id) && s.pushOut n
      | .stream _ _ _ | .engine _ _ _ | .host _ => false
    let early := pushed || s.reqs.any fun q => decide (q.id < id) && q.pending && sameCtx q.owner && q.dest.block?.isNone
    if r.stage ≠ .release ∨ early ∨ s.heldBack r then .next s else .next (s.depart { r with stage := .going })

/-! ### Synchronisation replies (R67, R249, R253, R287, R299) -/

/-- The status word of BARWAIT (R299). -/
def statusWord (st gen : Nat) : Nat := gen % 2 ^ 32 * 256 + st % 256

/-- A refused operation: the sync-space access fault while the activation runs, else an event (R249, R287). -/
def State.refuse (s : State) (r : Req) : State :=
  match r.owner with
  | .ctx core ctx epoch =>
    let s0 := s.dropReq r.id
    let s1 := match r.cls with
      | some k => s0.setCtx core ctx ((s0.ctx core ctx).subCount k)
      | none => s0
    if (s1.ctx core ctx).epoch = epoch then s1.trap core ctx cSync (w64 r.va) r.pc
    else s1.logCore core evSyncFault 0 []
  | .stream _ _ _ | .engine _ _ _ | .host _ => s.dropReq r.id

/-- The operation of a QSIGNAL is answered: the command is done, or takes an engine fault (R176, R178). -/
def State.signalDone (s : State) (core : Nat) (q : EngineQ) (stamp : Nat) (r : Req) (bad : Option Nat) : State :=
  let t := s.dropReq r.id
  match (t.core core).job q with
  | none => t
  | some j =>
    if j.cmd.stamp ≠ stamp then t
    else match bad with
      | some reason => t.engineFault core q j.cmd.word reason r.va
      | none => t.setCore core ((t.core core).setJob q { j with done := true, buf := [] })

/-- A value popped for an activation that has ended is pushed again, or recorded as lost (R253). -/
def State.repush (s : State) (core : Nat) (r : Req) (v : Vec) : State :=
  match r.target with
  | .pair _ _ p wide np _ =>
    let c := s.core core
    match rcFind c.rcache (rcKey s.moduleId (s.homeSite p)) with
    | none => s.logCore core evPopLost 0 (dwords4 v.toNat)
    | some e =>
      s.post { Req.blank with
        owner := .ctx core 0 0, va := r.va, target := .pair .push 0 p wide np v, route := some (e.fwd, []) }
  | .mem _ _ _ _ _ => s
  | .sync _ _ => s

/-- The release of a PHASE ends it: the core may make its next arrival in the group (R301). -/
def State.phaseOver (s : State) (core g : Nat) : State :=
  s.setCore core { s.core core with phases := (s.core core).phases.filter fun h => h != g }

/-- The answer of a synchronisation engine (R287, R298, R299, R301). -/
def State.syncAnswer (s : State) (r : Req) (a : SyncAns) : State :=
  match r.owner with
  | .engine core q stamp => s.signalDone core q stamp r (match a with
    | .refused => some 5
    | .value _ | .gen _ | .status _ _ | .done => none)
  | .ctx core ctx epoch => match a with
    | .value v => s.finish r (natLE 8 v.toNat) false
    | .status st g => s.finish r (natLE 8 (statusWord st g)) false
    | .refused => s.refuse r
    | .done =>
      let t := s.finish r [] false
      match r.target with
      | .sync _ (.phase g) => t.phaseOver core g
      | _ => t
    | .gen g =>
      let t := s.finish r [] false
      let x := t.ctx core ctx
      match r.dest with
      | .barrier addr => if x.epoch = epoch then t.setCtx core ctx { x with barrier := some (addr, g) } else t
      | _ => t
  | .stream _ _ _ | .host _ => s.dropReq r.id

/-- The answer to a POP or POPW (R249, R252, R253). -/
def State.popAnswer (s : State) (r : Req) (v : Vec) (empty refused : Bool) : State :=
  match r.owner with
  | .ctx core ctx epoch =>
    if refused then s.refuse r
    else
      let live := (s.ctx core ctx).epoch == epoch
      let t := s.finish r (vecBytes v) false
      if live || empty then t else t.repush core r v
  | .stream _ _ _ | .engine _ _ _ | .host _ => s.dropReq r.id

/-- The data of an AMO, CAS or DECZ (R66, R291, R304); of a QSIGNAL's operation, its end. -/
def State.memAnswer (s : State) (r : Req) (data : List Byte) (bad : Bool) : State :=
  match r.owner with
  | .engine core q stamp => s.signalDone core q stamp r (if bad then some 6 else none)
  | .ctx _ _ _ => s.finish r data bad
  | .stream _ _ _ | .host _ => s.dropReq r.id

/-- A request whose answer SY_REPLY handles: class SY, or the operation of a QSIGNAL. -/
def Req.isSy (r : Req) : Bool :=
  r.cls == some .sy || (match r.owner, r.target with
    | .engine _ _ _, .mem op _ _ _ _ => op != .load && op != .store
    | .engine _ _ _, .sync _ _ => true
    | _, _ => false)

/-- SY_REPLY (R67, R73, R253). -/
def execSyReply (at' : Arrival) (s : State) : Host.Outcome State Fault Refusal :=
  match at' with
  | .own id => match s.req id with
    | none => .next s
    | some r => match r.stage with
      | .performed data bad _ => if r.isSy then .next (s.memAnswer r data bad) else .next s
      | _ => .next s
  | .packet id => match s.replyAt id with
    | none => .next s
    | some f =>
      let t := s.consume id
      match f.pkt.hdr.kind, f.pkt.body with
      | .memRep, .memRep rid data bad _ => match s.req rid with
        | none => .next t
        | some r => if r.isSy then .next (t.memAnswer r data bad) else .next s
      | .syncRep, .syncRep rid a => match s.req rid with
        | none => .next t
        | some r => .next (t.syncAnswer r a)
      | .pairRep, .pairRep rid v e b _ _ _ => match s.req rid with
        | none => .next t
        | some r => .next (t.popAnswer r v e b)
      | _, _ => .next s

/-! ### Route-fault reports (R202, R226, R254) -/

/-- The request a report names leaves the list and, when it was the last of its instruction, its count (R226). An
arrival that is lost leaves its core free to make the next (R276). -/
def State.lose (s : State) (r : Req) : State :=
  let t0 := s.dropReq r.id
  let t := match ownerCore r.owner, r.target with
    | some n, .sync _ (.phase g) => t0.phaseOver n g
    | _, _ => t0
  if t.reqs.any fun q => q.group == r.group && (match q.stage with
      | .back _ _ => false
      | _ => true) then t
  else if t.reqs.any fun q => q.group == r.group then t.finishGroup r.group
  else match r.owner, r.cls with
    | .ctx core ctx _, some k => t.setCtx core ctx ((t.ctx core ctx).subCount k)
    | _, _ => t

/-- A report about a request acts on the activation, engine command or stream that awaits it; it says whether it did. -/
def State.reportReq (s : State) (core : Nat) (val : Word) (r : Req) : State × Bool :=
  match r.owner with
  | .ctx n ctx epoch =>
    let x := s.ctx n ctx
    let awaited := (r.cls == some .ld || r.cls == some .sy) && x.epoch == epoch && x.mode == .app && x.act.isSome
    if awaited then ((s.trap n ctx cRouteFault val r.pc).lose r, true) else (s.lose r, false)
  | .stream n q serial => ((s.recall r).streamDropped n q serial r, true)
  | .engine n q stamp => match (s.core n).job q with
    | some j => if j.cmd.stamp = stamp then ((s.dropReq r.id).engineFault core q j.cmd.word 5 r.va, true)
                else (s.dropReq r.id, true)
    | none => (s.dropReq r.id, true)
  | .host _ => (s.dropReq r.id, true)

def firstReport : List (Nat × Word × Option Nat) → Nat → Option (Word × Option Nat)
  | [], _ => none
  | (n, v, i) :: t, core => if n = core then some (v, i) else firstReport t core

def dropReport : List (Nat × Word × Option Nat) → Nat → List (Nat × Word × Option Nat)
  | [], _ => []
  | (n, v, i) :: t, core => if n = core then t else (n, v, i) :: dropReport t core

/-- A control frame brings a report: it goes back over the port it still has to pass, or has reached its core's module
(R226, R378). -/
def State.reportFrame (s : State) (core : Nat) (r : ReportFrame) : State :=
  match r.ingress.getLast? with
  | some q =>
    let x := s.port q
    s.setPort q { x with sent := x.sent ++ [.report { r with ingress := r.ingress.dropLast } core false] }
  | none => { s with reports := s.reports ++ [(core, r.val, r.req)] }

/-- ROUTE_FAULT_REPORT: a report reaches its core and acts on what awaits the packet, or waits as a system start; else the
waiting report starts a system context with cause 0x09 (R202, R226). With `frame` a control frame brings the report. -/
def execRouteFaultReport (core : Nat) (frame : Option ReportFrame) (s : State) : Host.Outcome State Fault Refusal :=
  match frame with
  | some r => .next (s.reportFrame core r)
  | none => match firstReport s.reports core with
    | some (val, id) =>
      let t := { s with reports := dropReport s.reports core }
      match id.bind t.req with
      | none => .next (t.addSys core (.report val))
      | some r =>
        let q := t.reportReq core val r
        .next (if q.2 then q.1 else q.1.addSys core (.report val))
    | none => match s.sysHead core with
      | some (.report val) => .next ((s.dropSys core).startSystem core cRouteFault val)
      | _ => .next s

end Sys2Proof.Machine
end

