-- ==== Sys2Proof/Machine/Mesh.lean ====
section
/-! DEFINITION. Routers: the step of a packet's header with its checks (R218, R223, R225), drops and reports (R226, R227),
credits, link errors (R228, R229) and the pairing buffer (R246–R250). -/

namespace Sys2Proof.Machine

open Sys2Proof

/-! ### Slotted ports (R392, R393) -/

/-- The slot entries in force: as the rotation read them, before the first rotation as they stand (R392). -/
def State.slotEntries (s : State) : List SlotEntry :=
  match s.rotation with
  | some (_, l) => l
  | none => (List.range s.slotN).map fun i => s.slotTable.at i .blank

/-- Peer module an entry gives a port, when valid (R392). -/
def SlotEntry.peer (e : SlotEntry) (p : Nat) : Option Nat :=
  let h := e.peers.at p 0
  if bit h 15 then some (bits h 9 0) else none

/-- Peer modules of a slotted port's column (R392, R393). -/
def State.columnPeers (s : State) (p : Nat) : List Nat := s.slotEntries.filterMap fun e => SlotEntry.peer e p

/-- Encryption context of a packet at a port: 0 in fibre mode, in slotted mode the lowest entry index that names the peer
(R393). -/
def State.peerCtx (s : State) (p dmod : Nat) : Nat :=
  if (s.port p).mode = 2 then s.slotEntries.findIdx fun e => SlotEntry.peer e p == some dmod else 0

/-! ### The header's step (R225) -/

/-- What a router does with a packet. -/
inductive Hop where
  | drop (reason : Nat)
  /-- a transfer packet at a site that is not marked as its target (R209) -/
  | discard
  | eject (port : Nat)
  /-- to a neighbour's input buffer -/
  | link (to' : Nat) (d : Dir)
  /-- through an optical port from its span site -/
  | cross (port span : Nat)
  deriving DecidableEq, Repr

def isInboxKind : PktKind → Bool
  | .data => true | .marker => true | .fence => true
  | .memReq => false | .memRep => false | .syncReq => false | .syncRep => false | .pairReq => false | .pairRep => false
  | .mgmt => false | .migrate => false | .reserved _ => false

def isReservedKind : PktKind → Bool
  | .reserved _ => true
  | .data => false | .marker => false | .fence => false | .memReq => false | .memRep => false | .syncReq => false
  | .syncRep => false | .pairReq => false | .pairRep => false | .mgmt => false | .migrate => false

def noRun : Run := ⟨.n, false, false, 0⟩

/-- The run being followed. -/
def Flight.run (f : Flight) : Run := f.pkt.hdr.runs.getD f.pkt.hdr.cur noRun

/-- The packet has just come in through an optical port: its input port has no router behind it (R378). -/
def Flight.ingressed (f : Flight) : Bool :=
  match f.inDir with
  | some d => (hop f.site d).isNone
  | none => false

/-- The first check of the run's first hop that fails (R223, R225); the run after a crossing carries bump (R378). -/
def Flight.turnBad (f : Flight) : Option Nat :=
  let h := f.pkt.hdr
  let c := f.run
  if !f.first then none
  else if f.ingressed && !c.bump then some 1
  else if c.bump && f.cls == 3 then some 4
  else if h.cur ≠ 0 ∧ c.dir = dirOpposite (h.runs.getD (h.cur - 1) noRun).dir then some 1
  else if !c.bump && c.dir == .w && f.nonW then some 1
  else none

/-- Every check of R225 and of a crossing (R378, R393), in order. -/
def State.hopOf (s : State) (f : Flight) : Hop :=
  let h := f.pkt.hdr
  if isReservedKind h.kind then .drop 6
  else if h.fin then
    let e := s.site f.site
    if h.dsite ≠ f.site ∨ (h.ext && h.dmod != s.moduleId) then .drop 5
    else if h.port = 0 ∧ isInboxKind h.kind ∧ e.core.isNone ∧ e.fwd.isNone ∧ e.shadowOf.isNone then .drop 5
    else if h.kind = .migrate ∧ e.migTarget ≠ some h.score then .discard
    else .eject h.port
  else match f.turnBad with
    | some r => .drop r
    | none =>
      let c := f.run
      match hop f.site c.dir with
      | some t => if s.linkDown f.site c.dir then .drop 3 else .link t c.dir
      | none => match portAt f.site c.dir with
        | none => .drop 2
        | some (p, i) =>
          let q := s.port p
          if q.state < 2 ∨ s.linkDown f.site c.dir then .drop 3
          else if !h.ext || c.len != 0 then .drop 6
          else if q.mode = 2 ∧ !(s.columnPeers p).contains h.dmod then .drop 3
          else .cross p i

/-- The header after a hop: the run's length in place, then the next run, then `fin` (R222, R225). -/
def Header.hopped (h : Header) : Header :=
  let c := h.runs.getD h.cur noRun
  if c.len = 0 then (if h.cur = h.last then { h with fin := true } else { h with cur := h.cur + 1 })
  else { h with runs := h.runs.set h.cur { c with len := c.len - 1 } }

/-- The packet after its hop: its class and segment (R223). -/
def Flight.hopped (f : Flight) : Flight :=
  let c := f.run
  let raise := f.first && c.bump
  { f with
    cls := if raise then f.cls + 1 else f.cls
    nonW := (if raise then false else f.nonW) || c.dir != .w
    first := c.len == 0
    pkt := { f.pkt with hdr := Header.hopped f.pkt.hdr }
    treated := false }

/-! ### Drops and reports (R226, R227, R254) -/

/-- TRAPVAL of cause 0x09 (R227). -/
def faultWord (reason kind run left sch mod site : Nat) : Word :=
  w64 (reason * 2 ^ 60 + kind * 2 ^ 56 + run * 2 ^ 51 + left * 2 ^ 40 + sch * 2 ^ 34 + mod * 2 ^ 21 + site)

def State.dropWord (s : State) (f : Flight) (reason : Nat) : Word :=
  let h := f.pkt.hdr
  faultWord reason h.kind.code h.cur (if h.fin then 0 else f.run.len + 1) (if isInboxKind h.kind then h.sch else 0)
    s.moduleId f.site

/-- The request a packet carries or answers. -/
def packetReq (p : Packet) : Option Nat :=
  match p.body with
  | .memReq id _ _ _ _ _ _ _ _ => some id
  | .memRep id _ _ _ => some id
  | .syncReq id _ _ _ => some id
  | .syncRep id _ => some id
  | .pairReq id _ _ _ _ _ _ _ _ => some id
  | .pairRep id _ _ _ _ _ _ => some id
  | .message _ | .empty | .mgmt _ | .migrate _ _ _ | .phase _ _ _ => none

/-- What ROUTE_DROP records: the header, of a kind 9 reply its second flit (R226, R254). -/
def dropBytes (p : Packet) : List Word :=
  match p.body with
  | .pairRep _ v _ _ _ _ _ => dwords4 v.toNat
  | .message _ | .empty | .mgmt _ | .migrate _ _ _ | .phase _ _ _ | .memReq _ _ _ _ _ _ _ _ _ | .memRep _ _ _ _ | .syncReq _ _ _ _
  | .syncRep _ _ | .pairReq _ _ _ _ _ _ _ _ _ => Packet.dwords p

/-- The ingress ports over which a report still has to go back: those the packet recorded; of a reply those its request
recorded, less the crossings the reply has made (R226, R378, log entry 75). -/
def Header.wayBack (h : Header) : List Nat :=
  if isReplyKind h.kind then h.reqPorts.take (h.reqPorts.length - h.ingress.length) else h.ingress

/-- Phase traffic between engines, which no core sends or awaits (R302). -/
def Body.isPhase : Body → Bool
  | .phase _ _ _ => true
  | .message _ | .empty | .mgmt _ | .migrate _ _ _ | .memReq _ _ _ _ _ _ _ _ _ | .memRep _ _ _ _ | .syncReq _ _ _ _
  | .syncRep _ _ | .pairReq _ _ _ _ _ _ _ _ _ | .pairRep _ _ _ _ _ _ _ => false

/-- Send a report over the service path, or back over the ingress ports to another module (R226, R378). -/
def State.report (s : State) (p : Packet) (val : Word) : State :=
  let h := p.hdr
  if Body.isPhase p.body then s else
  let reply := isReplyKind h.kind
  let mod := if reply then h.dmod else h.smod
  if mod = s.moduleId then
    match (if reply then (s.site h.dsite).core else some h.score) with
    | none => s
    | some core => { s with reports := s.reports ++ [(core, val, packetReq p)] }
  else
    let back := Header.wayBack h
    match back.getLast? with
    | none => s
    | some q =>
      let x := s.port q
      let r : ReportFrame := ⟨val, back.dropLast, packetReq p⟩
      s.setPort q { x with sent := x.sent ++ [.report r (if reply then h.asker else h.score) false] }

/-- A router drops a packet (R226); a dropped transfer packet abandons its move (R209). -/
def State.dropFlight (s : State) (f : Flight) (reason : Nat) : State :=
  let val := s.dropWord f reason
  let s1 := (s.consume f.id).log (siteDie f.site) evRouteDrop f.site none 0 (dropBytes f.pkt)
  let s2 := s1.report f.pkt val
  if f.pkt.hdr.kind = .migrate then s2.abandonMove f.pkt.hdr.score true else s2

/-- A transfer packet at a site that is not marked as its target is discarded (R209). -/
def State.discardFlight (s : State) (f : Flight) : State :=
  (s.consume f.id).log (siteDie f.site) evRouteDrop f.site none 0 (dropBytes f.pkt)

/-! ### The step of a router -/

/-- The fields of a pairing request that pairing looks at. -/
structure PairInfo where
  op     : PairOp
  obj    : Place
  wide   : Bool
  nopair : Bool
  win    : Nat
  value  : Vec
  ret    : List Run
  id     : Nat
  pop    : Nat

def pairInfo (p : Packet) : Option PairInfo :=
  match p.body with
  | .pairReq id op win place wide np v ret popSite => some ⟨op, place, wide, np, win, v, ret, id, popSite⟩
  | .message _ | .empty | .memReq _ _ _ _ _ _ _ _ _ | .memRep _ _ _ _ | .syncReq _ _ _ _ | .syncRep _ _
  | .pairRep _ _ _ _ _ _ _ | .mgmt _ | .migrate _ _ _ | .phase _ _ _ => none

/-- The packet is the oldest of its lane in the input buffer it stands in (R218); what leaves the pairing buffer waits for
its output only (R247). -/
def State.bufferHead (s : State) (f : Flight) : Bool :=
  (f.inDir.isNone && f.inPort == 4) ||
  !(s.net.any fun g => g.site == f.site && g.inDir == f.inDir && g.inPort == f.inPort && g.lane == f.lane && g.spot == .buffer
      && decide (g.stamp < f.stamp))

/-- The packet stands at a new place, last in its order. -/
def State.settle (s : State) (f : Flight) : State :=
  { s.setFlight { f with stamp := s.fresh, came := s.now } with fresh := s.fresh + 1 }

/-- Operations an engine's input buffer holds (R289, R290). -/
def engineBuffer : Nat := 64

/-- The first in order of arrival (R216, R289). -/
def firstCome : List Flight → Option Flight
  | [] => none
  | f :: t => match firstCome t with
    | none => some f
    | some g => if lexBefore f.order g.order then some f else some g

/-- The engine behind local port 3 of a site takes the first packet that waits for it, while its input buffer is not full (R218,
R289). -/
def State.engineTakes (s : State) (site : Nat) : State :=
  if (s.net.filter fun g => g.site == site && g.spot == .intake).length < engineBuffer then
    match firstCome (s.net.filter fun g => g.site == site && g.spot == .eject 3 && s.ejectHead g) with
    | none => s
    | some f => (s.vacate f).setFlight { f with spot := .intake }
  else s

/-- The lane's ejection buffer of a local port has a credit (R218). -/
def State.ejectRoom (s : State) (f : Flight) (p : Nat) : Bool := s.room (bufKey f.site (4 + p) f.lane) f.need

/-- Key of a port's credits for a peer's receive buffer: of an encryption context and a lane (R379, R393). -/
def creditKey (c lane : Nat) : Nat := 8 * c + lane

/-- Limit of a destination queue and of a slotted port in flits (R393), and of a receive buffer per lane (R379). -/
def queueFlits : Nat := 16384
def portFlits : Nat := 131072
def receiveFlits : Nat := 2048

/-- Flits queued at a port, to one peer or to all. -/
def State.queuedFlits (s : State) (p : Nat) (peer : Option Nat) : Nat :=
  (s.net.map fun g => match g.spot with
    | .egress q _ => if q = p && (match peer with
        | some m => g.pkt.hdr.dmod == m
        | none => true) then pktFlits g.pkt else 0
    | .queued | .buffer | .eject _ | .parked _ _ _ | .replay _ _ | .intake => 0).sum

/-- A packet may cross: on a slotted port its queue has room, on a fibre port it has credits for the peer's receive buffer; a
key-stopped port takes none (R379, R390, R393, log entry 50). -/
def State.mayCross (s : State) (p : Nat) (f : Flight) : Bool :=
  let q := s.port p
  let n := pktFlits f.pkt
  q.state == 2 &&
    (if q.mode = 2 then
      decide (s.queuedFlits p (some f.pkt.hdr.dmod) + n ≤ queueFlits) && decide (s.queuedFlits p none + n ≤ portFlits)
    else decide (n ≤ q.credits.at (creditKey (s.peerCtx p f.pkt.hdr.dmod) f.lane) receiveFlits))

/-- Links the packet came over whose checks are over, and the packet without them (R228, R229). -/
def Flight.checksOver (f : Flight) (now : Nat) : List Passed := f.trail.filter fun p => p.closed now
def Flight.unchecked (f : Flight) (now : Nat) : Flight := { f with trail := f.trail.filter fun p => !p.closed now }

/-- The packet as it comes over a link into the input buffer where it stands, the check of its last flit in a cycle `tail` (R228). -/
def Flight.passing (f : Flight) (d : Dir) (tail : Nat) : Passed := ⟨f.site, d, f.came, f.stamp, f.pkt, f.cls, f.nonW, f.first, tail⟩

/-- A packet of kind 8 about to take a hop of a run that permits pairing (R247). -/
def Flight.pairingPoint (f : Flight) : Bool := f.pkt.hdr.kind == .pairReq && f.run.pair && !f.pkt.hdr.fin

/-- The packet has gone through the pairing point it stands at, if it stands at one (R247). -/
def Flight.mayLeave (f : Flight) : Bool := !f.pairingPoint || f.treated

/-- An output a packet asks for: side and lane of the output, and whether its next buffer can take the packet (R218). -/
structure Ask where
  side : Nat
  lane : Nat
  open' : Bool
  deriving DecidableEq, Repr

/-- What a packet at the head of its lane asks for (R218, R225). -/
def State.ask (s : State) (f : Flight) : Option Ask :=
  match s.hopOf f with
  | .drop _ => none
  | .discard => none
  | .eject p => some ⟨4 + p, f.lane, s.ejectRoom f p⟩
  | .link t d =>
    let g := f.hopped
    some ⟨d.code, g.lane, f.mayLeave && s.room (bufKey t (dirOpposite d).code g.lane) g.need⟩
  | .cross p _ =>
    let g := f.hopped
    some ⟨f.run.dir.code, g.lane, f.mayLeave && s.mayCross p g⟩

/-- Steps of a round robin from the lane an output carried last to a lane. -/
def lanesOn (last lane : Nat) : Nat := (lane + 15 - last) % 8

/-- A packet of the same core and object that left this router's pairing buffer ahead of a request is still here (R250). -/
def State.behindPair (s : State) (f : Flight) : Bool :=
  s.net.any fun g => g.site == f.site && g.spot == .buffer && g.inDir.isNone && g.inPort == 4 && g.pkt.hdr.score == f.pkt.hdr.score
    && (match pairInfo g.pkt, pairInfo f.pkt with
      | some a, some b => a.obj == b.obj && decide (a.id < b.id)
      | _, _ => false)

/-- It is the packet's lane whose turn it is at its output, among the lanes that have a packet and a credit; a packet that has to
stay behind another has no turn (R218, R250). -/
def State.laneTurn (s : State) (f : Flight) (a : Ask) : Bool :=
  let last := s.outTurn.at (8 * f.site + a.side) 7
  !(s.net.any fun g => g.spot == .buffer && g.site == f.site && s.bufferHead g && !s.behindPair g && (match s.ask g with
    | some b => b.side == a.side && b.open' && decide (lanesOn last b.lane < lanesOn last a.lane)
    | none => false))

/-- One packet takes its hop, when the credits are at hand. -/
def State.takeHop (s : State) (f : Flight) : Hop → State
  | .drop r => s.dropFlight f r
  | .discard => s.discardFlight f
  | .eject p =>
    let k := bufKey f.site (4 + p) f.lane
    if s.ejectRoom f p then
      let t := (((s.vacate f).linksGood (f.checksOver s.now)).charge' k f.need).settle
        { f.unchecked s.now with spot := .eject p, treated := false }
      if p = 3 then t.engineTakes f.site else t
    else s
  | .link t d =>
    let g := (f.unchecked s.now).hopped
    let k := bufKey t (dirOpposite d).code g.lane
    -- behind a packet of the link that is to be resent, this one is discarded and resent as well (R228, R229)
    let wait := s.net.any fun x => x.spot == .replay f.site d
    if s.room k g.need then
      let u := ((s.vacate f).linksGood (f.checksOver s.now)).charge' k g.need
      let n : Flight := { g with site := t, inDir := some (dirOpposite d), came := u.now, stamp := u.fresh }
      u.settle (if wait then { n with spot := .replay f.site d }
        else { n with spot := .buffer, trail := n.passing (dirOpposite d) (s.linkTail t (dirOpposite d) + pktFlits g.pkt) :: n.trail })
    else s
  | .cross p i =>
    let g := (f.unchecked s.now).hopped
    if !s.mayCross p g then s
    else
      let c := s.peerCtx p g.pkt.hdr.dmod
      let idle := s.queuedFlits p (if (s.port p).mode = 2 then some g.pkt.hdr.dmod else none) == 0
      let s1 := ((s.vacate f).linksGood (f.checksOver s.now)).settle { g with spot := .egress p i }
      let q := s1.port p
      let x := q.ctxs.at c .blank
      let q1 := if idle && x.filling.isEmpty then { q with ctxs := q.ctxs.put c { x with fillAt := s.now } } else q
      let k := creditKey c g.lane
      s1.setPort p (if q1.mode = 2 then q1
        else { q1 with credits := q1.credits.put k (q1.credits.at k receiveFlits - pktFlits g.pkt) })

/-- A packet takes its hop in its lane's turn. -/
def State.stepTurn (s : State) (f : Flight) (h : Hop) : State :=
  match s.ask f with
  | some a =>
    if a.open' && s.laneTurn f a && !s.behindPair f then
      State.takeHop { s with outTurn := s.outTurn.put (8 * f.site + a.side) a.lane } f h
    else s
  | none => s

/-- ROUTER_HEADER_STEP (R225). A packet at a pairing point is first treated there (R247). -/
def execRouterHeaderStep (flight : Nat) (s : State) : Host.Outcome State Fault Refusal :=
  match s.flight flight with
  | none => .next s
  | some f =>
    if f.spot ≠ .buffer ∨ !s.bufferHead f then .next s
    else match s.hopOf f with
      | .drop r => .next (s.dropFlight f r)
      | .discard => .next (s.discardFlight f)
      | .eject p => .next (s.stepTurn f (.eject p))
      | .link t d => .next (s.stepTurn f (.link t d))
      | .cross p i => .next (s.stepTurn f (.cross p i))

/-! ### Credits and link errors (R218, R228, R229) -/

def cutOwed : List (Nat × Nat) → Nat → List (Nat × Nat)
  | [], _ => []
  | (k, n) :: t, key => if k = key then t else (k, n) :: cutOwed t key

/-- CREDIT_RETURN: the oldest credits owed for a lane buffer return to the link's sender (R218). -/
def execCreditReturn (site : Nat) (dir : Dir) (lane : Nat) (s : State) : Host.Outcome State Fault Refusal :=
  let key := bufKey site dir.code lane
  match s.owed.find? fun e => e.1 == key with
  | none => .next s
  | some (_, n) => .next { s with used := s.used.put key (s.used.at key 0 - n), owed := cutOwed s.owed key }

/-- The packet has come over the link out of a site in a direction into router `t`, and its check is not over. -/
def Flight.cameOver (f : Flight) (t : Nat) (dir : Dir) (now : Nat) : Option Passed :=
  f.trail.find? fun p => p.site == t && p.inDir == dirOpposite dir && !p.closed now

/-- The packet leaves where it stands, stomped: every place it has come to since discards it and returns its credits (R228). -/
def State.stomp (s : State) (f : Flight) : State :=
  match f.spot with
  | .replay _ d => s.release' (bufKey f.site (dirOpposite d).code f.lane) f.need
  | .egress p _ =>
    let q := s.port p
    let k := creditKey (s.peerCtx p f.pkt.hdr.dmod) f.lane
    if q.mode = 2 then s else s.setPort p { q with credits := q.credits.put k (q.credits.at k receiveFlits + pktFlits f.pkt) }
  | .queued | .buffer | .eject _ | .intake | .parked _ _ _ => s.vacate f

/-- The packet is discarded on the link out of `site`: it is to be resent to the router it came to, wherever its flits have got to
since (R228). -/
def State.takeBack (s : State) (f : Flight) (site : Nat) (dir : Dir) (p : Passed) : State :=
  let older := (f.trail.dropWhile fun x => x != p).drop 1
  let g : Flight := { f with
    stamp := p.stamp, pkt := p.pkt, site := p.site, came := p.came, inDir := some p.inDir, inPort := 0, cls := p.cls, nonW := p.nonW,
    first := p.first, spot := .replay site dir, treated := false, trail := older }
  let still : Bool := f.site == p.site && f.spot == .buffer && f.inDir == some p.inDir
  (if still then s else (s.stomp f).charge' (bufKey p.site p.inDir.code g.lane) g.need).setFlight g

/-- FLIT_CRC_ERROR: a flit of the link out of `site` fails its check: its packet and every later one of the link are
discarded until they are resent, also where they have been forwarded; packets whose checks are over were good (R228, R229). -/
def execFlitCrcError (site : Nat) (dir : Dir) (s : State) : Host.Outcome State Fault Refusal :=
  match hop site dir with
  | none => .next s
  | some t =>
    let k := linkKey site dir
    let mine : Passed → Bool := fun p => p.site == t && p.inDir == dirOpposite dir && p.closed s.now
    let fails := if s.net.any fun f => f.trail.any mine then 0 else s.crcFails.at k 0
    let s1 : State := { s with
      net := s.net.map fun f => { f with trail := f.trail.filter fun p => !mine p }
      crcFails := s.crcFails.put k (fails + 1) }
    let hit := s1.net.filterMap fun f => (f.cameOver t dir s.now).map fun p => (f, p)
    if hit.isEmpty then .next s else .next (hit.foldl (fun u h => u.takeBack h.1 site dir h.2) s1)

/-- Flits of what waits to be resent over a link, up to a packet of a stamp. -/
def State.resentFlits (s : State) (site : Nat) (dir : Dir) (stamp : Nat) : Nat :=
  ((s.net.filter fun x => x.spot == .replay site dir && decide (x.stamp ≤ stamp)).map fun x => pktFlits x.pkt).sum

/-- LINK_REPLAY: the sender resends what was discarded, in order, while the link is up and no 16 checks in a row have failed
(R229). -/
def execLinkReplay (site : Nat) (dir : Dir) (s : State) : Host.Outcome State Fault Refusal :=
  if s.linkDown site dir ∨ 16 ≤ s.crcFails.at (linkKey site dir) 0 then .next s
  else .next { s with net := s.net.map fun f =>
    if f.spot = .replay site dir then
      let g : Flight := { f with spot := .buffer, came := s.now }
      let tail := s.linkTail f.site (dirOpposite dir) + s.resentFlits site dir f.stamp
      { g with trail := g.passing (dirOpposite dir) tail :: g.trail }
    else f }

/-- The packet as it stood before its last hop, for a report from the router it had left. -/
def Flight.unhopped (f : Flight) (site : Nat) : Flight :=
  let h := f.pkt.hdr
  let h' : Header :=
    if h.fin then { h with fin := false }
    else if f.first then { h with cur := h.cur - 1 }
    else
      let c := h.runs.getD h.cur noRun
      { h with runs := h.runs.set h.cur { c with len := c.len + 1 } }
  { f with site, pkt := { f.pkt with hdr := h' } }

/-- A link is marked down at its end in a site (R229, R326). -/
def State.markEnd (s : State) (site : Nat) (d : Dir) : State :=
  let e := s.site site
  s.setSite site { e with down := e.down ||| 2 ^ downBit d }

/-- A link is marked down in the entries of both its ends (R229, R326, R328). -/
def State.markDown (s : State) (site : Nat) (d : Dir) : State :=
  let t := s.markEnd site d
  match hop site d with
  | some x => t.markEnd x (dirOpposite d)
  | none => t

/-- What waits to be resent over the link out of a site in a direction is dropped with reason 3 (R229). -/
def State.dropWaiting (s : State) (site : Nat) (dir : Dir) : State :=
  (s.net.filter fun f => f.spot == .replay site dir).foldl (fun t f =>
    let g := f.unhopped site
    ((t.release' (bufKey f.site (dirOpposite dir).code f.lane) f.need).setFlight g).dropFlight g 3) s

/-- LINK_DOWN: after 16 consecutive failed checks the link is marked down, in both directions, and what waits for it is dropped
with reason 3 (R229). -/
def execLinkDown (site : Nat) (dir : Dir) (s : State) : Host.Outcome State Fault Refusal :=
  let k := linkKey site dir
  if s.crcFails.at k 0 < 16 then .next s
  else
    let s1 := ({ s with crcFails := s.crcFails.cut k }.markDown site dir).log (siteDie site) evLinkDown site none 0 []
    let s2 := s1.dropWaiting site dir
    .next (match hop site dir with
      | some t => s2.dropWaiting t (dirOpposite dir)
      | none => s2)

/-! ### The pairing buffer (R246–R250) -/

def isPush (o : PairOp) : Bool := o == .push

/-- Two requests match (R246). -/
def pairMatch (p q : Packet) : Bool :=
  match pairInfo p, pairInfo q with
  | some a, some b => isPush a.op != isPush b.op && p.hdr.dsite == q.hdr.dsite && a.obj == b.obj && a.wide == b.wide
      && !a.nopair && !b.nopair && p.hdr.score != q.hdr.score
  | _, _ => false

/-- The rest of a route where it passes a site: its runs, the class and segment it has there, and whether it stands at the
start of a run. -/
structure Rest where
  runs  : List Run
  cls   : Nat
  nonW  : Bool
  first : Bool

/-- The module and site one hop on, from a site of a module: inside the module, or through an optical port whose peer is known
(R377, R378). -/
def State.onward (s : State) (mod site : Nat) (d : Dir) : Option (Nat × Nat) :=
  match hop site d with
  | some t => some (mod, t)
  | none => match portAt site d with
    | none => none
    | some (q, i) =>
      if mod = s.moduleId then
        (s.port q).peerMod.map fun m => (m, (spanSite (s.port q).peerPort i).1)
      else match s.ports.find? fun e => e.2.peerMod == some mod && e.2.peerPort == q with
        | some e => some (s.moduleId, (spanSite e.1 i).1)
        | none => none

/-- The rest of a route from the first time it passes a site of this module, none when it does not (R246, R248). Hops are
followed one by one. -/
def State.routeFrom (s : State) (site : Nat) : Nat → Nat × Nat → Rest → Option Rest
  | 0, _, _ => none
  | fuel + 1, at', r =>
    if at' = (s.moduleId, site) then some r
    else match r.runs with
      | [] => none
      | c :: t => match s.onward at'.1 at'.2 c.dir with
        | none => none
        | some n =>
          let raise := r.first && c.bump
          let cls := if raise then r.cls + 1 else r.cls
          let nonW := (if raise then false else r.nonW) || c.dir != .w
          State.routeFrom s site fuel n
            (if c.len = 0 then ⟨t, cls, nonW, true⟩ else ⟨{ c with len := c.len - 1 } :: t, cls, nonW, false⟩)

/-- A pop is eligible at a router when its reply route, which starts at the home, passes it (R246). -/
def State.replyPath (s : State) (p : Packet) (site : Nat) : Option Rest :=
  match pairInfo p with
  | some a => s.routeFrom site 8193 (p.hdr.dmod, p.hdr.dsite) ⟨a.ret, 0, false, true⟩
  | none => none

/-- The site's parked packets (R247). -/
def State.parkedAt (s : State) (site : Nat) : List Flight :=
  s.net.filter fun f => f.site == site && (match f.spot with
    | .parked _ _ _ => true
    | .queued | .buffer | .eject _ | .replay _ _ | .egress _ _ | .intake => false)

/-- Last matchable cycle of a parked packet. -/
def Flight.lastMatch (f : Flight) : Nat :=
  match f.spot with
  | .parked _ l _ => l
  | .queued | .buffer | .eject _ | .replay _ _ | .egress _ _ | .intake => 0

/-- The cycle in which a parked packet leaves: after its last matchable cycle and after the request ahead of it (R250). -/
def Flight.dueAt (f : Flight) : Nat :=
  match f.spot with
  | .parked _ l h => if l + 1 < h then h else l + 1
  | .queued | .buffer | .eject _ | .replay _ _ | .egress _ _ | .intake => 0

def oldest : List Flight → Option Flight
  | [] => none
  | f :: t => match oldest t with
    | none => some f
    | some g => if g.stamp < f.stamp then some g else some f

def newest : List Flight → Option Flight
  | [] => none
  | f :: t => match newest t with
    | none => some f
    | some g => if f.stamp < g.stamp then some g else some f

/-- Two requests of one core to one object (R250). -/
def sameStream (p q : Packet) : Bool :=
  p.hdr.score == q.hdr.score && (match pairInfo p, pairInfo q with
    | some a, some b => a.obj == b.obj
    | _, _ => false)

/-- The request's own earlier request to the object, parked here: the last of them (R250). -/
def State.parkedAhead (s : State) (f : Flight) : Option Flight :=
  newest ((s.parkedAt f.site).filter fun g => sameStream g.pkt f.pkt)

/-- The push and the pop meet: both end here and the value leaves on the pop's reply route (R248). The reply's header holds the rest
of that route alone, with cur 0: its first run follows none, and a report counts its runs from there (DESIGN CHOICE, log entry
112). -/
def State.pairUp (s : State) (site : Nat) (push pop : Flight) : State :=
  let s1 := (s.consume push.id).consume pop.id
  match pairInfo push.pkt, pairInfo pop.pkt, s.replyPath pop.pkt site with
  | some a, some b, some r =>
    let h := s1.mkHeader .pairRep 0 push.pkt.hdr.score site ⟨r.runs, b.pop, pop.pkt.hdr.smod⟩
    { s1 with
      net := s1.net ++ [{ id := s1.fresh, stamp := s1.fresh,
                          pkt := ⟨{ h with reqPorts := pop.pkt.hdr.ingress, asker := pop.pkt.hdr.score }, .pairRep b.id a.value false false (b.obj.off / 32) b.wide b.nopair⟩
                          site, came := s1.now, inDir := none, inPort := 4, cls := r.cls, nonW := r.nonW, first := r.first
                          spot := .buffer, treated := false }]
      fresh := s1.fresh + 1, injected := s1.injected + 1 }
  | _, _, _ => s1

/-- The packet parks, giving back its input credits (R247). -/
def State.park (s : State) (f : Flight) (last : Nat) : State :=
  (s.vacate f).settle { f with spot := .parked s.now last 0, inDir := none, inPort := 4, treated := true }

/-- A packet at its pairing point for the first time: whether its pop is eligible here. -/
def State.eligibleHere (s : State) (f : Flight) : Bool :=
  match pairInfo f.pkt with
  | some a => !a.nopair && (isPush a.op || (s.replyPath f.pkt f.site).isSome)
  | none => false

/-- The partner a packet meets in the pairing buffer: the oldest eligible pop, or the newest push (R247). -/
def State.partner (s : State) (f : Flight) : Option Flight :=
  let l := (s.parkedAt f.site).filter fun g => pairMatch f.pkt g.pkt && decide (s.now ≤ g.lastMatch)
  match pairInfo f.pkt with
  | some a => if isPush a.op then oldest l else newest l
  | none => none

/-- A packet that has come to a pairing point and has not been treated there: its tail and its strobe have passed two cycles
after its header (R247). One behind another of its lane arrives at the point once it is the head of that lane (DESIGN CHOICE, log
entry 111). -/
def State.atPoint (s : State) (f : Flight) : Bool :=
  f.spot == .buffer && f.pairingPoint && !f.treated && s.bufferHead f && decide (f.came + 2 ≤ s.now) && (match s.hopOf f with
    | .link _ _ => true | .cross _ _ => true
    | .drop _ => false | .discard => false | .eject _ => false)

/-- One packet is treated at its pairing point (R247, R248, R250). For one that has waited in its input buffer for a free entry
behind E the window counts from the cycle in which it parks (DESIGN CHOICE, log entry 110). -/
def State.treat (s : State) (f : Flight) : State :=
  match pairInfo f.pkt with
  | none => s
  | some a =>
    let pass := s.setFlight { f with treated := true }
    if !s.eligibleHere f then pass
    else match s.partner f with
      | some g => if isPush a.op then s.pairUp f.site f g else s.pairUp f.site g f
      | none =>
        let free := decide ((s.parkedAt f.site).length < 8)
        match s.parkedAhead f with
        | some e =>
          let last := if s.now + a.win < e.lastMatch then e.lastMatch else s.now + a.win
          if free then s.park f last else s
        | none => if a.win > 0 && free then s.park f (s.now + a.win) else pass

/-- The packet with its window used up (R247). -/
def unwindowed (p : Packet) : Packet :=
  match p.body with
  | .pairReq id op _ place wide np v ret site => { p with body := .pairReq id op 0 place wide np v ret site }
  | .message _ | .empty | .memReq _ _ _ _ _ _ _ _ _ | .memRep _ _ _ _ | .syncReq _ _ _ _ | .syncRep _ _
  | .pairRep _ _ _ _ _ _ _ | .mgmt _ | .migrate _ _ _ | .phase _ _ _ => p

/-- No earlier request of the same core to the same object is parked here (R250). -/
def State.parkedFirst (s : State) (f : Flight) : Bool :=
  !((s.parkedAt f.site).any fun g => decide (g.stamp < f.stamp) && sameStream g.pkt f.pkt)

/-- A request may leave one cycle after the one ahead of it (R250). -/
def Flight.behind (g f : Flight) (leaves : Nat) : Flight :=
  match g.spot with
  | .parked a l h => if g.site = f.site ∧ sameStream g.pkt f.pkt then { g with spot := .parked a l (if h < leaves + 1 then leaves + 1 else h) } else g
  | .queued | .buffer | .eject _ | .replay _ _ | .egress _ _ | .intake => g

/-- The oldest parked packet whose cycle to leave has come leaves unpaired (R247, R250). -/
def State.departOne (s : State) (site : Nat) : Option State :=
  (oldest ((s.parkedAt site).filter fun f => decide (f.dueAt ≤ s.now) && s.parkedFirst f)).map fun f =>
    let t := { s with net := s.net.map fun g => Flight.behind g f f.dueAt }
    t.settle { f with spot := .buffer, treated := true, pkt := unwindowed f.pkt }

/-- Every parked packet whose cycle to leave has come leaves; a router holds at most 8. -/
def State.departDue (s : State) (site : Nat) : Nat → State
  | 0 => s
  | n + 1 => match s.departOne site with
    | none => s
    | some t => State.departDue t site n

/-- PARKED_DEPARTURE (R247, R250). -/
def execParkedDeparture (site : Nat) (s : State) : Host.Outcome State Fault Refusal := .next ((s.departOne site).getD s)

/-- PAIRING_ARRIVAL: what is due leaves first; packets that arrived in the same cycle are treated in port order, each seeing
the buffer as the earlier ones left it (R247, R248, R250). -/
def execPairingArrival (flight : Nat) (s : State) : Host.Outcome State Fault Refusal :=
  match s.flight flight with
  | none => .next s
  | some f =>
    if !s.atPoint f then .next s
    else
      let t := (List.range f.portOrder).foldl (fun u k =>
        (u.net.filter fun g => g.site == f.site && g.came == f.came && g.portOrder == k && u.atPoint g).foldl State.treat u)
        (s.departDue f.site 8)
      .next (t.treat f)

end Sys2Proof.Machine
end

