-- ==== Sys2Proof/Machine/SyncEngine.lean ====
section
/-! DEFINITION. The die synchronisation engines: units and claims (R287), objects and the wait list (R240–R244), atomics
(R291), barriers (R296–R300), phases (R276, R302). -/

namespace Sys2Proof.Machine

open Sys2Proof

/-- Unit of an offset in sync space (R287). -/
def unitOf (off : Nat) : Nat := off / 32

/-- Kind of a unit: 0 word, 1 object, 2 barrier (R287). -/
def Die.unitKind (d : Die) (u : Nat) : Nat := d.units.at u 0

/-- A reply of an engine over a return route, to a site of this module. -/
def State.answer (s : State) (die : Nat) (site : Nat) (ret : List Run) (kind : PktKind) (body : Body) : State :=
  s.replyFrom (s.engineSite die) 3 { hdrBlank with ssite := site, smod := s.moduleId } ret kind body

def State.answerPop (s : State) (die : Nat) (w : Waiter) (v : Vec) (empty : Bool) : State :=
  s.answer die w.site w.ret .pairRep (.pairRep w.id v empty false (w.base / 32) w.wide w.nopair)

/-- A refused pairing request (R243, R249). -/
def State.refusePop (s : State) (die : Nat) (a : PairInfo) : State :=
  s.answer die a.pop a.ret .pairRep (.pairRep a.id 0 false true (a.obj.off / 32) a.wide a.nopair)

def State.answerBar (s : State) (die : Nat) (w : BarWaiter) (status gen : Nat) : State :=
  s.answer die w.site w.ret .syncRep (.syncRep w.id (.status status gen))

/-! ### Barriers (R296–R300) -/

/-- Every waiter of a barrier is answered (R297, R298). -/
def State.wakeBar (s : State) (die u status gen : Nat) : State :=
  let d := s.die die
  let mine := d.barWaits.filter fun w => w.unit == u
  let s1 := s.setDie die { d with barWaits := d.barWaits.filter fun w => w.unit != u }
  mine.foldl (fun t w => t.answerBar die w status gen) s1

/-! ### Objects (R240–R244) -/

/-- The empty value of an object (R242). -/
def emptyValue (empty : Nat) (wide : Bool) : Vec :=
  let x := wrapInt (sextNat empty 32) 64
  if wide then vecOf 64 [x, x, x, x] else BitVec.ofNat 256 x

/-- Waiters of an object whose claim ends: POPWs receive an empty value, pushes are discarded with SYNC_DROP (R244, R287). -/
def State.endWaiters (s : State) (die base : Nat) (empty : Nat) : State :=
  let d := s.die die
  let mine := d.waits.filter fun w => w.base == base
  let s1 := s.setDie die { d with waits := d.waits.filter fun w => w.base != base }
  mine.foldl (fun t w => match w.push with
    | some v => t.log die evSyncDrop (t.engineSite die) none 0 (dwords4 v.toNat)
    | none => t.answerPop die w (emptyValue empty w.wide) true) s1

/-- Units of an object: header and storage (R244). -/
def objUnits (cap : Nat) (wide : Bool) : Nat := 1 + (if wide then cap else (8 * cap + 31) / 32)

def SyncObj.span (o : SyncObj) : Nat := objUnits o.cap o.wide

/-- Units `u` to `u + n − 1` are claimed: earlier claims on them end (R287). `keep` is the base of an object that the claim
initialises again. -/
def State.claim (s : State) (die u n kind : Nat) (keep : Option Nat) : State :=
  let d := s.die die
  let hitBars := d.bars.filter fun b => decide (u ≤ b.1) && decide (b.1 < u + n)
  let hitObjs := d.objs.filter fun o => some o.1 != keep && decide (o.1 < u + n) && decide (u < o.1 + o.2.span)
  let s1 := hitBars.foldl (fun t b => t.wakeBar die b.1 1 b.2.gen) s
  let s2 := hitObjs.foldl (fun t o => t.endWaiters die (32 * o.1) o.2.empty) s1
  let e := s2.die die
  s2.setDie die { e with
    bars := e.bars.filter fun b => !(decide (u ≤ b.1) && decide (b.1 < u + n))
    objs := e.objs.filter fun o => !(hitObjs.any fun h => h.1 == o.1)
    units := (List.range n).foldl (fun m i => m.put (u + i) kind) e.units }

/-- OBJINIT at the home (R244). -/
def State.objInitAt (s : State) (die off : Nat) (desc : Nat) : State :=
  let u := unitOf off
  let o : SyncObj := ⟨bits desc 63 32, bits desc 23 4, bit desc 2, bits desc 1 0, []⟩
  let s1 := s.claim die u o.span 1 (some u)
  let s2 := s1.endWaiters die off o.empty
  let d := s2.die die
  s2.setDie die { d with objs := d.objs.put u o }

/-- The oldest waiter of an object of one sort. -/
def firstWaiter (l : List Waiter) (base : Nat) (push : Bool) : Option Waiter :=
  l.find? fun w => w.base == base && w.push.isSome == push

def dropWaiter (l : List Waiter) (id : Nat) (push : Bool) : List Waiter :=
  l.filter fun w => !(w.id == id && w.push.isSome == push)

/-- Position of the element a pop takes: the newest of a LIFO, the oldest of a FIFO, any of a BAG (R240, log entry 7). -/
def popIndex (kind n fresh : Nat) : Nat :=
  match kind with
  | 0 => n - 1
  | 1 => Config.bagChoice fresh % n
  | _ => 0

/-- A pop removes an element; the oldest push that waited for space is then performed (R243). -/
def State.takeElem (s : State) (die base : Nat) (o : SyncObj) : State × Vec :=
  let i := popIndex o.kind o.elems.length s.fresh
  let v := o.elems.getD i 0
  let rest := o.elems.take i ++ o.elems.drop (i + 1)
  let d := s.die die
  match firstWaiter d.waits base true with
  | some w =>
    let o' := { o with elems := rest ++ [w.push.getD 0] }
    ({ s.setDie die { d with objs := d.objs.put (unitOf base) o', waits := dropWaiter d.waits w.id true }
       with fresh := s.fresh + 1 }, v)
  | none =>
    ({ s.setDie die { d with objs := d.objs.put (unitOf base) { o with elems := rest } } with fresh := s.fresh + 1 }, v)

/-- A pairing request performed at the home (R243, R249). -/
def State.pairAt (s : State) (die : Nat) (a : PairInfo) : State :=
  let d := s.die die
  let base := a.obj.off
  let w : Waiter := ⟨base, if isPush a.op then some a.value else none, a.id, a.ret, a.pop, a.wide, a.nopair⟩
  let full := decide (d.waits.length ≥ 256)
  match d.objs.look (unitOf base) with
  | none => if isPush a.op then s.log die evSyncFault (s.engineSite die) none 0 [] else s.refusePop die a
  | some o =>
    if o.wide ≠ a.wide then
      if isPush a.op then s.log die evSyncFault (s.engineSite die) none 0 [] else s.refusePop die a
    else match a.op with
      | .push => match firstWaiter d.waits base false with
        | some p => (s.setDie die { d with waits := dropWaiter d.waits p.id false }).answerPop die p a.value false
        | none =>
          if o.elems.length < o.cap then
            s.setDie die { d with objs := d.objs.put (unitOf base) { o with elems := o.elems ++ [a.value] } }
          else if full then s.log die evSyncDrop (s.engineSite die) none 0 (dwords4 a.value.toNat)
          else s.setDie die { d with waits := d.waits ++ [w] }
      | .pop =>
        if o.elems.isEmpty then s.answerPop die w (emptyValue o.empty o.wide) true
        else
          let q := s.takeElem die base o
          q.1.answerPop die w q.2 false
      | .popw =>
        if !o.elems.isEmpty then
          let q := s.takeElem die base o
          q.1.answerPop die w q.2 false
        else if full then s.answerPop die w (emptyValue o.empty o.wide) true
        else s.setDie die { d with waits := d.waits ++ [w] }

/-! ### Phases (R276, R302) -/

/-- Local members of a group in a die, of group 0 every core of the image: their number is fixed at LOAD (R90, R276, R283,
R284, R302). -/
def State.localMembers (s : State) (die g : Nat) : Nat :=
  (s.members.filter fun p => coreDie p.1 == die && groupHeld p.2 g).length

/-- Dies with members of a group (R302). -/
def State.memberDies (s : State) (g : Nat) : List Nat := (List.range 64).filter fun d => decide (0 < s.localMembers d g)

def PhaseState.blank : PhaseState := ⟨[], false, []⟩

/-- The operation that came to the engine first, in an earlier cycle; those of one cycle follow the order of the
ports (R216, R289). -/
def State.nextOp (s : State) (die : Nat) : Option Flight :=
  firstCome (s.net.filter fun f => f.spot == .intake && f.site == s.engineSite die && decide (f.came < s.now))

/-- The engine's next operation leaves its input buffer, where the next packet that waits for room takes its place (R289). -/
def State.takeOp (s : State) (f : Flight) : State := (s.consume f.id).engineTakes f.site

/-- Arrivals in ascending core number. -/
def insertArr (a : PhaseArr) : List PhaseArr → List PhaseArr
  | [] => [a]
  | b :: t => if a.core < b.core then a :: b :: t else b :: insertArr a t

def sortArr : List PhaseArr → List PhaseArr
  | [] => []
  | a :: t => insertArr a (sortArr t)

/-- Key of the route from one die's engine to another's. -/
def engKey (a b : Nat) : Nat := 64 * a + b

/-- The routes between the engines, one from every die's to every other die's (R302). -/
def State.engineRoutes (s : State) : FMap (List Run) :=
  (List.range 4096).filterMap fun k =>
    if k / 64 = k % 64 then none else some (k, s.managedRuns (s.engineSite (k / 64)) (s.engineSite (k % 64)))

/-- Phase traffic leaves one engine for another on the route installed at LOAD (R302, log entry 37). -/
def State.engineSend (s : State) (a b : Nat) (kind : PktKind) (body : Body) : State :=
  let r : Route := ⟨s.engRoutes.at (engKey a b) [], s.engineSite b, s.moduleId⟩
  s.injectAt (s.engineSite a) 3 ⟨s.mkHeader kind 3 0 (s.engineSite a) r, body⟩

/-- A die's engine has its release: it now releases its arrived members one by one (R302). -/
def State.releaseDie (s : State) (die g : Nat) : State :=
  let d := s.die die
  s.setDie die { d with phases := d.phases.put g ⟨[], false, sortArr (d.phases.at g .blank).arrived⟩ }

/-- The home engine has heard from one more die: once every die has completed, the phase ends and releases are sent (R302). -/
def State.homeArrival (s : State) (die g : Nat) : State :=
  let home := (s.group g).home
  let h := s.die home
  let old := h.diesDone.at g []
  let done := if old.contains die then old else old ++ [die]
  let all := s.memberDies g
  if all.all fun d => done.contains d then
    let e := s.group g
    let t : State := { s.setDie home { h with diesDone := h.diesDone.cut g } with
      groups := s.groups.put g { e with phase := (e.phase + 1) % 2 ^ 32 } }
    all.foldl (fun u d => if d = home then u.releaseDie d g else u.engineSend home d .syncRep (.phase home g true)) t
  else s.setDie home { h with diesDone := h.diesDone.put g done }

/-- When every local member has arrived, the die's arrival goes to the home engine; the home die's own counts at once (R302). -/
def State.sendDieArrival (s : State) (die g : Nat) : State :=
  let d := s.die die
  let p := d.phases.at g .blank
  let n := s.localMembers die g
  if !p.sent && decide (0 < n) && decide (n ≤ p.arrived.length) then
    let t := s.setDie die { d with phases := d.phases.put g { p with sent := true } }
    let home := (s.group g).home
    if die = home then t.homeArrival die g else t.engineSend die home .syncReq (.phase die g false)
  else s

/-- A member's arrival (R302). -/
def State.phaseArrive (s : State) (die g core site id : Nat) (ret : List Run) : State :=
  let d := s.die die
  let p := d.phases.at g .blank
  (s.setDie die { d with phases := d.phases.put g { p with arrived := p.arrived ++ [⟨core, site, id, ret⟩] } }).sendDieArrival die g

/-- DIE_ARRIVAL: a die's arrival is the next operation of the group's home engine (R289, R302). -/
def execDieArrival (die g : Nat) (s : State) : Host.Outcome State Fault Refusal :=
  match s.nextOp (s.group g).home with
  | none => .next s
  | some f => if f.pkt.body = .phase die g false then .next ((s.takeOp f).homeArrival die g) else .next s

/-- PHASE_RELEASE_ARRIVAL: a release is the next operation of the die's engine, which then releases its members one by one in
ascending core number, each at the site its arrival came from (R289, R302). -/
def execPhaseReleaseArrival (die g : Nat) (s : State) : Host.Outcome State Fault Refusal :=
  let d := s.die die
  let p := d.phases.at g .blank
  match p.releasing with
  | a :: rest =>
    .next ((s.setDie die { d with phases := d.phases.put g { p with releasing := rest } }).answer die a.site a.ret .syncRep
      (.syncRep a.id .done))
  | [] => match s.nextOp die with
    | none => .next s
    | some f => match f.pkt.body with
      | .phase _ h true => if h = g then .next ((s.takeOp f).releaseDie die g) else .next s
      | _ => .next s

/-! ### One operation (R289) -/

/-- A synchronisation request of kind 6 performed at the engine (R287, R291, R297–R299). -/
def State.syncAt (s : State) (die : Nat) (h : Header) (id : Nat) (p : Place) (op : SyncOp) (ret : List Run) : State :=
  let d := s.die die
  let u := unitOf p.off
  let reply : State → SyncAns → State := fun t a => t.replyFrom (t.engineSite die) 3 h ret .syncRep (.syncRep id a)
  match op with
  | .amo o wide v cmp =>
    if d.unitKind u ≠ 0 then reply s .refused
    else
      let n := if wide then 8 else 4
      let q := s.performMem o p n (natLE n v.toNat) cmp (some (s.packetCore h)) false
      reply q.1 (.value (w64 (leNat q.2.1)))
  | .objInit desc => reply (s.objInitAt die p.off desc.toNat) .done
  | .barInit n => match d.bars.look u with
    | some b =>
      let s1 := s.wakeBar die u 1 b.gen
      let e := s1.die die
      reply (s1.setDie die { e with bars := e.bars.put u ⟨n, 0, (b.gen + 1) % 2 ^ 32, some b.gen⟩ }) .done
    | none =>
      let s1 := s.claim die u 1 2 none
      let e := s1.die die
      reply (s1.setDie die { e with bars := e.bars.put u ⟨n, 0, 0, none⟩ }) .done
  | .barArr => match d.bars.look u with
    | none => reply s .refused
    | some b =>
      if b.arrived + 1 = b.n then
        let s1 := s.wakeBar die u 0 b.gen
        let e := s1.die die
        reply (s1.setDie die { e with bars := e.bars.put u { b with gen := (b.gen + 1) % 2 ^ 32, arrived := 0 } }) (.gen b.gen)
      else reply (s.setDie die { d with bars := d.bars.put u { b with arrived := b.arrived + 1 } }) (.gen b.gen)
  | .barWait g => match d.bars.look u with
    | none => reply s (.status 3 0)
    | some b =>
      if g = none ∨ g = some b.gen then
        if d.barWaits.length ≥ 1024 then reply s (.status 2 b.gen)
        else s.setDie die { d with barWaits := d.barWaits ++ [⟨u, id, ret, h.ssite⟩] }
      else if g = b.abgen then reply s (.status 1 (g.getD 0))
      else reply s (.status 0 (g.getD 0))
  | .phase g => s.phaseArrive die g h.score h.ssite id ret

/-- SYNC_OPERATION: the engine performs its next operation in one step (R289); phase traffic between engines is DIE_ARRIVAL's and
PHASE_RELEASE_ARRIVAL's. -/
def execSyncOperation (die : Nat) (s : State) : Host.Outcome State Fault Refusal :=
  match s.nextOp die with
  | none => .next s
  | some f =>
    let t := s.takeOp f
    match f.pkt.body with
    | .phase _ _ _ => .next s
    | .syncReq id p op ret => .next (t.syncAt die f.pkt.hdr id p op ret)
    | .pairReq _ _ _ _ _ _ _ _ _ => match pairInfo f.pkt with
      | some a => .next (t.pairAt die a)
      | none => .next t
    | _ => .next t

end Sys2Proof.Machine
end

