-- ==== Sys2Proof/Machine/Walks.lean ====
section
/-! DEFINITION. Page walks and their results, refused misses, busy leaves (R309, R311–R313), and the page updates of die
management (R314). -/

namespace Sys2Proof.Machine

open Sys2Proof

/-! ### Walks (R312) -/

/-- A freed walker takes requests of the miss queue in arrival order; one whose page is being walked joins that walk. -/
def Die.pullMisses (d : Die) : Nat → Die
  | 0 => d
  | fuel + 1 =>
    match d.missq with
    | [] => d
    | (page, r) :: rest =>
      if (d.walks.any fun w => w.page == page) || decide (d.walks.length < 96) then
        Die.pullMisses (Die.miss { d with missq := rest } page r) fuel
      else d

/-- The result of a walk reaches the requesters it serves: a leaf fills the die cache and their holders, a busy leaf leaves
them to retry, and without a valid leaf each takes its own fault (R311–R314). -/
def State.walkResult (s : State) (dn page : Nat) (rs : List Requester) : State :=
  let d := s.die dn
  match s.walkTable dn (page * 0x1_0000) with
  | .leaf p =>
    if bit p.leaf.toNat 7 then s.setDie dn { d with busyWait := d.busyWait ++ rs.map fun r => (page, r) }
    else rs.foldl (fun t r => t.setCore (reqCore r) ((t.core (reqCore r)).fill r p)) (s.setDie dn (d.fillCache p))
  | .none => s.setDie dn { d with failed := d.failed ++ rs.map fun r => (page, r, s.reqEpoch r) }
  | .malformed e => (s.setDie dn { d with failed := d.failed ++ rs.map fun r => (page, r, s.reqEpoch r) }).logBadLeaf dn e

/-- WALK_COMPLETE (R312). -/
def execWalkComplete (die page : Nat) (s : State) : Host.Outcome State Fault Refusal :=
  let d := s.die die
  match d.walks.find? fun w => w.page == page with
  | none => .next s
  | some w =>
    let t := (s.setDie die { d with walks := d.walks.filter fun v => v.page != page }).walkResult die page w.reqs
    .next (t.setDie die ((t.die die).pullMisses 352))

/-- MISS_RETRY: a refused miss is tried again (R312). -/
def execMissRetry (die : Nat) (r : Requester) (page : Nat) (s : State) : Host.Outcome State Fault Refusal :=
  let d := s.die die
  if d.refusedMiss.contains (page, r) then
    .next (s.setDie die (Die.miss { d with refusedMiss := d.refusedMiss.filter fun e => e != (page, r) } page r))
  else .next s

/-- BUSY_RETRY: a translation that met a busy leaf walks again (R314). -/
def execBusyRetry (die : Nat) (r : Requester) (page : Nat) (s : State) : Host.Outcome State Fault Refusal :=
  let d := s.die die
  if d.busyWait.contains (page, r) then
    .next (s.setDie die (Die.miss { d with busyWait := d.busyWait.filter fun e => e != (page, r) } page r))
  else .next s

/-! ### Page updates (R314) -/

/-- A packet on its way to a run of a module's memory. -/
def packetTouches (k : Packet) (home : Nat) (p : Place) (n : Nat) : Bool :=
  k.hdr.dmod == home && match k.body with
    | .memReq _ _ q k _ _ _ _ _ => q.overlaps k p n
    | .syncReq _ q _ _ => q.overlaps 32 p n
    | .pairReq _ _ _ q _ _ _ _ _ => q.overlaps 32 p n
    | .message _ | .empty | .memRep _ _ _ _ | .syncRep _ _ | .pairRep _ _ _ _ _ _ _ | .mgmt _ | .migrate _ _ _
    | .phase _ _ _ => false

/-- An access that was translated to a run of memory of a module is still to be performed there: outstanding, in the mesh, or
waiting for its twin. -/
def State.runBusyIn (s : State) (home : Nat) (p : Place) (n : Nat) : Bool :=
  (s.reqs.any fun r => r.pending && r.touches s.moduleId home p n) ||
  (s.net.any fun f => packetTouches f.pkt home p n) ||
  (s.cores.any fun e => (e.2.pair.map fun q => q.waiting.any fun w => packetTouches w.pkt home p n).getD false)

/-- The same of a run of this module's memory. -/
def State.runBusy (s : State) (p : Place) (n : Nat) : Bool := s.runBusyIn s.moduleId p n

/-- An access under a leaf is still to be performed, in whichever module the leaf names (R314 step 2). -/
def State.leafBusy (s : State) (e : Nat) : Bool := (s.leafRuns e).any fun r => s.runBusyIn (bits e 63 54) r.1 r.2

/-- The entries of a table whose keys lie in a run, and the others. -/
def cutKeys {α : Type} (m : FMap α) (lo n : Nat) : FMap α × FMap α :=
  (m.filter fun e => decide (lo ≤ e.1) && decide (e.1 < lo + n), m.filter fun e => !(decide (lo ≤ e.1) && decide (e.1 < lo + n)))

def putMoved {α : Type} (m l : FMap α) (lo to' : Nat) : FMap α := l.foldl (fun t e => t.put (e.1 - lo + to') e.2) m

/-- What a sync-space page holds beside its bytes moves with it: the kinds of its units, its objects and barriers, and those
that wait on them, who are answered from the new engine (R287, R314). -/
def State.moveSync (s : State) (p q : Place) (n : Nat) : State :=
  let a := p.off / 32
  let b := q.off / 32
  let k := n / 32
  let d := s.die p.owner
  let inRun : Nat → Bool := fun u => decide (a ≤ u) && decide (u < a + k)
  let back : Nat → List Run → List Run := fun site ret =>
    if p.owner = q.owner then ret else s.managedRuns (s.engineSite q.owner) site
  let ws := (d.waits.filter fun w => inRun (w.base / 32)).map fun w =>
    { w with base := w.base - p.off + q.off, ret := back w.site w.ret }
  let bs := (d.barWaits.filter fun w => inRun w.unit).map fun w => { w with unit := w.unit - a + b, ret := back w.site w.ret }
  let s1 := s.setDie p.owner { d with
    units := (cutKeys d.units a k).2, objs := (cutKeys d.objs a k).2, bars := (cutKeys d.bars a k).2
    waits := d.waits.filter fun w => !inRun (w.base / 32), barWaits := d.barWaits.filter fun w => !inRun w.unit }
  let e := s1.die q.owner
  s1.setDie q.owner { e with
    units := putMoved (cutKeys e.units b k).2 (cutKeys d.units a k).1 a b
    objs := putMoved (cutKeys e.objs b k).2 (cutKeys d.objs a k).1 a b
    bars := putMoved (cutKeys e.bars b k).2 (cutKeys d.bars a k).1 a b
    waits := e.waits ++ ws, barWaits := e.barWaits ++ bs }

/-- The data of a page and the errors in it move from its old runs, as they are in `src`, to its new ones; a twin's scratchpad
takes what its core's takes (R205, R314, R373). -/
def State.moveData (s src : State) : List ((Place × Nat) × (Place × Nat)) → State
  | [] => s
  | ((p, n), (q, m)) :: t =>
    let k := if n < m then n else m
    let twins : List Place := if q.space = .scratch then (s.mirrors q.owner).map fun o => { q with owner := o } else []
    let s1 := (q :: twins).foldl (fun u d => u.copyFrom src p d k) s
    State.moveData (if p.space = .sync ∧ q.space = .sync then s1.moveSync p q k else s1) src t

/-- Data that come from another module's memory, which is outside State, are free values (DESIGN CHOICE, log entry 125). -/
def State.fillData (s : State) : List (Place × Nat) → State
  | [] => s
  | (p, n) :: t =>
    let k := (if n < p.space.size - p.off then n else p.space.size - p.off) / 8
    let bs := (List.range k).flatMap fun i => natLE 8 (Config.freeWord (s.fresh + i)).toNat
    State.fillData { s.writePlace p bs with fresh := s.fresh + k } t

/-- Step 3: the data of a page whose old leaf is `old` move to where the leaf `e` names. What lies in another module is written
there, outside State (R314). -/
def State.movePage (s : State) (old e : Nat) : State :=
  if bits e 63 54 != s.moduleId || !bit old 0 then s
  else if bits old 63 54 = s.moduleId then s.moveData s ((s.leafRuns old).zip (s.leafRuns e))
  else s.fillData (s.leafRuns e)

/-- Offset of the leaf that a page update is at work on. -/
def State.updating (s : State) : Option Nat := s.pageMove.bind fun m => s.leafSlot m.va (leafLevel m.leaf.toNat)

/-- Another move of die management holds a leaf busy: of a core, or of the pages over lost DRAM (R208, R314, R367). -/
def State.leafTaken (s : State) (slot : Nat) : Bool :=
  (s.cores.any fun e => match e.2.mig with
    | some m => m.leaves.any fun l => l.1 == slot
    | none => false) ||
  (s.dies.any fun e => e.2.rehoming.any fun r => (s.regionLeaves r).any fun l => l.1 == slot)

/-- A leaf die management may write: well-formed and not busy (R309). -/
def leafWritable (e : Nat) : Bool := bit e 0 && bit e 1 && !bit e 7 && decide (bits e 16 15 < 3) && leafOk e (leafLevel e)

/-- PAGE_UPDATE: the next of the four steps by which die management writes a leaf: busy, invalidation, which completes once
every access under the old leaf is performed, the move of the data, the new leaf (R314). A leaf that another move of die
management holds waits for it (DEDUCED, log entry 119). -/
def execPageUpdate (va : VAddr) (leaf : Word) (move : Bool) (s : State) : Host.Outcome State Fault Refusal :=
  let e := leaf.toNat
  let size := leafSize e
  let base := va.toNat / size * size
  if !leafWritable e then .next s
  else match s.leafSlot va.toNat (leafLevel e) with
    | none => .next s
    | some slot =>
      match s.pageMove with
      | none =>
        let old := s.ptEntry 0 slot
        if (bit old 0 && !bit old 1) || s.leafTaken slot then .next s
        else
          let t := if bit old 0 && !bit old 7 then s.writeEntry slot (old + 128) else s
          .next { t with pageMove := some ⟨va.toNat, leaf, 1, w64 old, move⟩ }
      | some m =>
        if m.va ≠ va.toNat ∨ m.leaf ≠ leaf ∨ m.move ≠ move then .next s
        else
          if m.step = 1 then .next { s.forgetPage base size with pageMove := some { m with step := 2 } }
          else if m.step = 2 then
            if bit m.old.toNat 0 && s.leafBusy m.old.toNat then .next s
            else .next { s with pageMove := some { m with step := 3 } }
          else
            let t := if move then s.movePage m.old.toNat e else s
            .next { t.writeEntry slot e with
              pageMove := none, coppice := { t.coppice with moved := t.coppice.moved || move } }

end Sys2Proof.Machine
end

