-- ==== Sys2Proof/Machine/Pairs.lean ====
section
/-! DEFINITION. Checked pairs (R204–R206), live migration (R207–R211, R238) and forwarding from a vacated site (R210). -/

namespace Sys2Proof.Machine

open Sys2Proof

/-! ### PAIR, UNPAIR, MIGRATE -/

/-- Another context of the core in focus holds an activation. -/
def State.othersActive (s : State) : Bool :=
  (List.range 4).any fun k => k != s.focus.ctx && (s.ctx s.focus.core k).act.isSome

/-- All three queues are drained (R108). -/
def Core.queuesDrained (c : Core) : Bool := c.cp == 0 && c.mx == 0

/-- The issuing context is freed; a message it holds stays at the head of its queue for replay (R204, R206, R207). -/
def State.freeIssuer (s : State) : State := s.trapReturn s.focus.core s.focus.ctx true

/-- PAIR (R204). At the row's edge, where no site lies beside the core's in its row, the number the step would give stands in
TRAPVAL (DEDUCED, log entry 94). -/
def execPair (west : Bool) (s : State) : Host.Outcome State Fault Refusal :=
  let c := s.myCore
  let edge := if west then 0 else 16
  let target := if west then c.site - 1 else c.site + 1
  if s.me.mode ≠ .system then s.trapOut cIllegal (wordOf (.pair west))
  else if sitePos c.site = edge ∨ !s.isSpare target then s.trapOut cAccess (w64 target)
  else if c.pair.isSome then s.trapOut cIllegal (wordOf (.pair west))
  else if s.othersActive || !c.queuesDrained then .next s
  else
    let t := (s.copyScratch c.site target).setMyCore { c with pair := some ⟨target, [], [], [], [], none⟩ }
    .next ((t.setSite target { t.site target with state := .good, shadowOf := some s.focus.core }).freeIssuer)

/-- UNPAIR (R206). -/
def execUnpair (s : State) : Host.Outcome State Fault Refusal :=
  if s.me.mode ≠ .system then s.trapOut cIllegal (wordOf .unpair)
  else match s.myCore.pair with
    | none => .next s.pass
    | some p =>
      if s.othersActive then .next s
      else
        let t := s.unpair s.focus.core
        .next ((t.setSite p.shadow { t.site p.shadow with state := .spare, shadowOf := none }).freeIssuer)

/-- MIGRATE (R207): the move begins; one that is already going on stands (log entry 58). Of a paired core and a target that is no
spare site the pair is reported (DESIGN CHOICE, log entry 96). -/
def State.migrate (s : State) (word : Word) (target : Word) (full : Bool) : Host.Outcome State Fault Refusal :=
  let c := s.myCore
  if s.me.mode ≠ .system then s.trapOut cIllegal word
  else if c.pair.isSome then s.trapOut cIllegal word
  else if !s.isSpare target.toNat then s.trapOut cAccess target
  else if c.mig.isSome then .next s.freeIssuer
  else .next (s.beginMove s.focus.core target.toNat full false).freeIssuer

/-- MIGRATE.CTX (R207). -/
def execMigrateCtx (a : Reg) (s : State) : Host.Outcome State Fault Refusal :=
  s.migrate (wordOf (.migrateCtx a)) (s.x a) false

/-- MIGRATE.FULL (R207). -/
def execMigrateFull (a : Reg) (s : State) : Host.Outcome State Fault Refusal :=
  s.migrate (wordOf (.migrateFull a)) (s.x a) true

/-! ### Twins (R205) -/

/-- What a replay at once delivers: the start's values with ACTMSG.replayed set. -/
def State.replayInfo (s : State) (core : Nat) (t : Nat) (o : Origin) : StartInfo :=
  let c := s.core core
  let e := c.table.at t .blank
  let rs := c.rounds.at t .blank
  match o with
  | .message m => msgInfo e { m with replayed := true }
  | .pending => ⟨e.handler, [], w64 (2 ^ 40), 0, if e.gated then rs.cur else 0, 0, 0⟩
  | .close seq => closeInfo e true seq rs.cur
  | .closed seq round => closeInfo e true seq round
  | .system => ⟨e.handler, [], 0, 0, 0, 0, 0⟩

/-- The activation is aborted and begins again in its context. -/
def State.replayNow (s : State) (core ctx t : Nat) (a : Activation) : State :=
  let s1 := s.setCore core ((((s.core core).unbindAll ctx).endTwin ctx (s.ctx core ctx).epoch).standPhase ctx (s.ctx core ctx))
  let x := (s1.ctx core ctx).beginApp (s1.core core) ctx t s1.now a.origin (s1.replayInfo core t a.origin)
  let s2 := s1.setCtx core ctx x
  let c := s2.core core
  s2.setCore core { c with pair := c.pair.map fun p => { p with replays := p.replays ++ [(ctx, x.epoch)] } }

/-- The replay of an activation that has ended is awaited. -/
def Core.awaitReplay (c : Core) (t : Nat) (o : Origin) : Core :=
  { c with pair := c.pair.map fun p => { p with again := p.again ++ [(t, o)] } }

/-- An activation that has ended by DONE is replayed: what started it starts it again (R205, log entry 83). -/
def State.replayEnded (s : State) (core : Nat) (a : Activation) : State :=
  let c := s.core core
  match a.tag with
  | none => s
  | some t => match a.origin with
    | .message m =>
      let m' := { m with lock := none, replayed := true }
      s.setCore core ((c.pushHead m.queue [m']).awaitReplay t (.message m'))
    | .pending => s.setCore core ({ c with tagpend := setBit c.tagpend t }.awaitReplay t .pending)
    | .close seq =>
      let round := ((c.rounds.at t .blank).cur + 65535) % 65536
      s.setCore core ({ c with reclose := c.reclose ++ [(t, seq, round)] }.awaitReplay t (.closed seq round))
    | .closed seq round =>
      s.setCore core ({ c with reclose := c.reclose ++ [(t, seq, round)] }.awaitReplay t (.closed seq round))
    | .system => s

/-- The second mismatch, in the replay (R205): PAIR_FAULT and a trap context with TRAPVAL 2, in the activation's own context
while it runs, else in the first that is free. -/
def State.pairFault (s0 : State) (core : Nat) (q : Sender) : State :=
  let s := s0.logCore core evPairFault 2 []
  let x := s.ctx core q.ctx
  if x.epoch = q.epoch ∧ x.act.isSome then
    let s1 := s.trap core q.ctx cPair 2 x.pc
    let c := s1.core core
    s1.setCore core { c with pair := c.pair.map fun p => { p with broken := some (q.ctx, (s1.ctx core q.ctx).epoch) } }
  else (s.setCore core ((s.core core).endTwin q.ctx q.epoch)).addSys core (.pairFault q.act)

/-- The activation that sent a packet meets a mismatch: the first replays it, the second in the replay is a pair fault. One that a
mismatch or a trap has already ended meets none (R25, R205). In system mode it is a core fault (R201, log entry 19). -/
def State.mismatchOf (s : State) (core : Nat) (q : Sender) (p : Pair) : State :=
  let x := s.ctx core q.ctx
  let runs : Bool := x.epoch == q.epoch && x.act.isSome
  if p.spent.contains (q.ctx, q.epoch) then s
  else match q.act.mode, q.act.tag with
    | .app, some t =>
      if p.replays.contains (q.ctx, q.epoch) then s.pairFault core q
      else if runs then s.replayNow core q.ctx t q.act
      else (s.setCore core ((s.core core).endTwin q.ctx q.epoch)).replayEnded core q.act
    | _, _ => if runs then s.trap core q.ctx cPair 1 x.pc else s

/-- The request of a dropped packet leaves the list; one whose answer is dropped stays open (R205). -/
def State.loseTwin (s : State) (p : Packet) : State :=
  if isReplyKind p.hdr.kind then s
  else match (packetReq p).bind s.req with
    | some r => s.lose r
    | none => s

/-- A pair mismatch at the oldest waiting packet: both twins are dropped (R205). -/
def State.pairMismatch (s : State) (core : Nat) : State :=
  let c := s.core core
  match c.pair with
  | none => s
  | some p => match p.waiting with
    | [] => s
    | w :: rest =>
      let p' : Pair := { p with waiting := rest }
      let s1 := (s.setCore core { c with pair := some p' }).loseTwin w.pkt
      match w.sender with
      | some q => s1.mismatchOf core q p'
      | none => s1

/-- TWIN_COMPARE: the twin of the oldest waiting packet arrives and is compared whole; one that comes later than 64 cycles is
a mismatch (R204, R205). -/
def execTwinCompare (core : Nat) (mismatch : Bool) (s : State) : Host.Outcome State Fault Refusal :=
  let c := s.core core
  match c.pair with
  | none => .next s
  | some p => match p.waiting with
    | [] => .next s
    | w :: rest =>
      if mismatch || decide (w.since + 64 < s.now) then .next (s.pairMismatch core)
      else .next ((s.setCore core { c with pair := some { p with waiting := rest } }).inject c.site w.pkt)

/-- TWIN_TIMEOUT: no twin came within 64 cycles (R205). -/
def execTwinTimeout (core : Nat) (s : State) : Host.Outcome State Fault Refusal :=
  match (s.core core).pair with
  | none => .next s
  | some p => match p.waiting with
    | [] => .next s
    | w :: _ => if w.since + 64 < s.now then .next (s.pairMismatch core) else .next s

/-! ### The end of running activations (R207) -/

/-- No context of a core holds an activation. -/
def State.quiet (s : State) (core : Nat) : Bool := (List.range 4).all fun k => (s.ctx core k).act.isNone

def State.setMig (s : State) (core : Nat) (m : Migration) : State := s.setCore core { s.core core with mig := some m }

/-- MIGRATION_DRAIN_TIMEOUT: after 65,536 cycles what still runs is aborted (R207). -/
def execMigrationDrainTimeout (core : Nat) (s : State) : Host.Outcome State Fault Refusal :=
  match (s.core core).mig with
  | none => .next s
  | some m =>
    if m.phase = 0 ∧ m.since + 65536 ≤ s.now then
      .next (((List.range 4).foldl (fun t k => t.endKept core k) s).setMig core { m with phase := 1, since := s.now })
    else .next s

/-- MIGRATION_ABANDON: a drain past its limit, or an error of the transfer or at the target (R211). -/
def execMigrationAbandon (core : Nat) (targetError : Bool) (s : State) : Host.Outcome State Fault Refusal :=
  match (s.core core).mig with
  | none => .next s
  | some m =>
    if targetError && m.phase == 2 then .next (s.abandonMove core true)
    else if !targetError && m.phase == 1 && decide (m.since + 65536 < s.now) then .next (s.abandonMove core false)
    else .next s

/-! ### The transfer (R208, R209) -/

/-- The three queues are drained and no store is outstanding; loads and SY operations are not waited for (R207). The drain waits as
well for committed messages that have still to be injected and for unbound streams that are still sent (DESIGN CHOICE, log
entry 96), and for a page update under way (DEDUCED, log entry 119). -/
def State.moveReady (s : State) (core : Nat) : Bool :=
  let c := s.core core
  s.quiet core && c.queuesDrained && c.drains.isEmpty && c.outq.isEmpty && s.pageMove.isNone
  && ((List.range 4).all fun k => (s.ctx core k).st == 0)
  && !(s.reqs.any fun r => ownerCore r.owner == some core && isStore r.target && r.pending)

/-- The leaves that name what moves with the core: its scratchpad, and its DRAM region with the banks that stand in for bad ones
(R307, R310). -/
def State.movedLeaves (s : State) (c : Core) (dram : Bool) : List (Nat × Nat) :=
  s.tableLeaves.filter fun p => bits p.2 63 54 == s.moduleId &&
    (leafNames p.2 c.site false || (dram && bits p.2 32 30 == 0 && (s.inRegion c.region (leafPlace p.2)).isSome))

/-- A leaf of those as the move leaves it (R307, R310). -/
def State.movedLeaf (s : State) (region new e : Nat) : Nat :=
  if bits e 32 30 = 0 then match s.inRegion region (leafPlace e) with
    | some o => leafTo e (s.regionPlace new o)
    | none => e
  else leafAt e new

/-- Units of 32 bytes in a part of the save: of the scratchpad, of the DRAM region under MIGRATE.FULL, of the end packet; of
the other parts as many as one packet holds (R209, log entry 20). -/
def Migration.units (m : Migration) (part : Nat) : Nat :=
  match part with
  | 0 => 1024
  | 8 => if m.full then 0x2_0000 else 0
  | 9 => 1
  | _ => 8

/-- The migration transfer packet of `n` units from `unit` of a part: bits [207:164] of its header hold part, unit and
n − 1 (R209). -/
def State.movePacket (s : State) (core target part unit n : Nat) : Packet :=
  let c := s.core core
  let h := s.mkHeader .migrate 0 core c.site ⟨s.managedRuns c.site target, target, s.moduleId⟩
  ⟨{ h with
      sch := part, rch := bits unit 23 18, fmt := bits unit 17 10, round := bits unit 9 0 * 64 + (n - 1) * 8 },
   .migrate (if part = 9 then .endPart else .part part) unit true⟩

/-- The save is ready to set out: rows are split and the leaves that will change turn busy; a table area that has no room for
the split pages lets no core move (log entry 18). -/
def State.sendMove (s : State) (core : Nat) (m : Migration) : State :=
  let c := s.core core
  match s.splitRows c.region with
  | none => s.abandonMove core false
  | some s1 =>
    let ls := s1.movedLeaves c (m.full || m.dark)
    (s1.busyLeaves ls).setMig core { m with phase := 2, part := 0, unit := 0, since := s.now, leaves := ls }

/-- The next transfer packet leaves, parts in ascending number and each in ascending unit (R209). -/
def State.sendUnits (s : State) (core : Nat) (m : Migration) : State :=
  let all := m.units m.part
  if m.part > 9 then s
  else if all ≤ m.unit then s.setMig core { m with part := m.part + 1, unit := 0 }
  else
    let n := if all - m.unit < 8 then all - m.unit else 8
    (s.inject (s.core core).site (s.movePacket core m.target m.part m.unit n)).setMig core { m with unit := m.unit + n }

/-- The runs with a raise of the class at the first (R238). -/
def bumped : List Run → List Run
  | [] => []
  | r :: t => { r with bump := true } :: t

/-- A forward route gets the runs from the new site to the old one in front (R238). -/
def State.prefixed (s : State) (old new : Nat) (r : Route) : Option Route :=
  let l := s.managedRuns new old ++ bumped r.runs
  if runsFit l then some { r with runs := l } else none

/-- A return route gets the runs from the old site to the new one at its end (R238). -/
def State.suffixed (s : State) (old new : Nat) (r : Route) : Option Route :=
  let l := r.runs ++ bumped (s.managedRuns old new)
  if runsFit l then some { r with runs := l, dsite := new } else none

/-- The core with its routes rewritten (R238). -/
def State.reroute (s : State) (old new : Nat) (c : Core) : Core :=
  { c with
    slots := c.slots.mapV fun _ sl => { sl with route := sl.route.bind (s.prefixed old new) }
    rcache := c.rcache.filterMap fun e => (s.prefixed old new e.fwd).map fun f =>
      { e with fwd := f, ret := e.ret.bind (s.suffixed old new) } }

/-- The engines after a move: their state is reset and QSTAT.mig is set (R182). -/
def Core.enginesMoved (c : Core) : Core :=
  { c with mb0 := .blank, mb1 := .blank, abuf := .blank, ac0 := .blank, ac1 := .blank, latch := .blank,
           qstat := setBit c.qstat 8, utlb := [], ctlb := [], streams := [], cmds := [], jobs := [], cp := 0, mx := 0 }

/-- Units of a site's scratchpad that read as errors. -/
def State.badScratch (s : State) (site : Nat) : List Nat :=
  (List.range 1024).filter fun u => s.poisoned ⟨.scratch, site, 32 * u⟩ 32

/-- Mark units of a scratchpad poisoned (R211). -/
def State.poisonScratch (s : State) (site : Nat) (us : List Nat) : State :=
  { s with poison := s.poison ++ us.map fun u => ((⟨.scratch, site, 32 * u⟩ : Place).phys / 32, 1) }

/-- The DRAM region at the new site: copied by MIGRATE.FULL with the units that could not be read; after a converter failure
the target's own, all of it poisoned (R208, R211, R367). -/
def State.moveDram (s : State) (region target : Nat) (m : Migration) (badUnits : List Nat) : State :=
  let dirty : State → List (Nat × Nat) → State := fun t l => { t with poison := t.poison ++ l }
  if m.dark then
    (s.regionBanks target).foldl (fun t p => dirty { t with poison := unpoison t.poison p.phys 0x8_0000 } [(p.phys / 32, 0x4000)]) s
  else if m.full then
    dirty (s.copyRegion region target) ((badUnits.filter fun u => decide (1024 ≤ u)).map fun u =>
      ((s.regionPlace target (32 * ((u - 1024) % 0x2_0000))).phys / 32, 1))
  else s

/-- Inbox messages that could not be read are dropped and recorded (R211): as CHAN_DROP, with CHDROP as R189 raises it. Messages of
the hold buffer and the generation hold are not among them (DESIGN CHOICE, log entry 102). -/
def State.dropUnread (s : State) (core : Nat) (lost : Msg → Bool) : State :=
  let c := s.core core
  let all := (c.queues.flatMap fun p => p.2) ++ (c.rings.flatMap fun p => p.2)
  let s1 := s.setCore core { c with
    queues := c.queues.mapV fun _ l => l.filter fun m => !lost m
    rings := c.rings.mapV fun _ l => l.filter fun m => !lost m }
  (all.filter lost).foldl (fun t m => t.dropAt core m.hdr.rch evChanDrop (hdrDwords m.hdr)) s1

/-- The four contexts count nothing at the new site (R207). -/
def State.clearCounts (s : State) (core : Nat) : State :=
  (List.range 4).foldl (fun t k =>
    let x := t.ctx core k
    if x.ld = 0 ∧ x.st = 0 ∧ x.sy = 0 then t else t.setCtx core k { x with ld := 0, st := 0, sy := 0 }) s

/-- Die management enters the route to a core's DRAM region where the region lies in another die (R405). -/
def State.routeTo (s : State) (core dest : Nat) : State :=
  let c := s.core core
  if dest = c.site ∨ siteDie dest = siteDie c.site then s
  else
    let e : RcEntry := ⟨rcKey s.moduleId dest, ⟨s.managedRuns c.site dest, dest, s.moduleId⟩,
      some ⟨s.managedRuns dest c.site, c.site, s.moduleId⟩⟩
    s.setCore core { c with rcache := rcInsert c.rcache e }

/-- It does so for the region and for every spare site that holds a remapped bank of it (R310, R405). -/
def State.routeToRegion (s : State) (core : Nat) : State :=
  let region := (s.core core).region
  ((s.remaps.filter fun m => m.badSite == region).map fun m => m.spareSite).foldl (fun t d => t.routeTo core d)
    (s.routeTo core region)

/-- What a move leaves of the core's outstanding accesses: AMO, CAS and DECZ in memory that stays where it is are performed there,
and the PHASEs of the core are uncompleted until their releases come; nothing awaits a result (R207, R277). -/
def State.leftReqs (s : State) (core : Nat) : List Req :=
  s.reqs.filterMap fun r =>
    let left : Req := { r with cls := none, dest := .none, holds := false }
    if ownerCore r.owner ≠ some core then some r
    else match r.target with
      | .mem op _ _ _ _ => if r.route.isNone && r.pending && op != .load && op != .store then some left else none
      | .sync _ (.phase _) => if r.pending then some left else none
      | .sync _ _ => none
      | .pair _ _ _ _ _ _ => none

/-- SY operations that still wait behind another access are sent from the site the core leaves, in issue order (R207). -/
def State.sendLate (s : State) (core : Nat) : State :=
  let site := (s.core core).site
  (s.reqs.filter fun r => ownerCore r.owner == some core && r.waiting && r.cls == some .sy).foldl (fun t r => match r.route with
    | some (fwd, ret) => t.inject site (t.reqPacket core r fwd ret)
    | none => t) s

/-- The target installs the save and carries the core (R207, R208, R210, R211). Units of `badUnits` from 1,024 on are units of
the DRAM region or of another part of the save. -/
def State.installMove (s : State) (core : Nat) (m : Migration) (badUnits badMsgs : List Nat) : State :=
  let c := s.core core
  let old := c.site
  let new := m.target
  let failed := !(s.badScratch old).isEmpty || !badUnits.isEmpty || !badMsgs.isEmpty
    || (m.full && (s.regionBanks c.region).any fun p => s.poisoned p 0x8_0000)
  let s := s.sendLate core
  let s0 := if m.dark then s.dropUnread core (fun x => x.ovf && (c.rings.at x.queue []).contains x) else s
  let s1 := s0.dropUnread core (fun x => badMsgs.contains x.seq)
  let s2 := ((s1.copyScratch old new).poisonScratch new (badUnits.filter fun u => decide (u < 1024))).moveDram c.region new m badUnits
  let c2 := s2.core core
  let region := if m.full || m.dark then new else c.region
  let tr := if m.dark then { c2.trace with valid := false } else c2.trace
  let s3 := s2.setCore core (s2.reroute old new { c2.enginesMoved with site := new, region, mig := none, trace := tr })
  let s4 := s3.setSite old { s3.site old with
    core := none, fwd := some new, state := if failed then .failed else (s3.site old).state }
  let s5 := s4.setSite new { s4.site new with
    core := some core, fwd := none, migTarget := none, shadowOf := none, state := .good }
  let s6 := m.leaves.foldl (fun t l => t.writeEntry l.1 (s.movedLeaf c.region new l.2)) s5
  let s7 : State := { s6 with
    reqs := s6.leftReqs core
    coppice := { s6.coppice with moved := true } }
  (((s7.clearCounts core).pump core).routeToRegion core).logCore core evMigDone (w64 new) []

/-- Nothing is still to be performed in the memory that moves (R314). -/
def State.moveStill (s : State) (c : Core) (m : Migration) : Bool :=
  !s.runBusy ⟨.scratch, c.site, 0⟩ 0x8000
  && (!(m.full || m.dark) || !((s.regionBanks c.region).any fun p => s.runBusy p 0x8_0000))

/-- A transfer packet of the core in the ejection buffer of its target. -/
def State.moveArrived (s : State) (core target : Nat) : Option Flight :=
  s.net.find? fun f => f.site == target && f.spot == .eject 0 && f.pkt.hdr.kind == .migrate && f.pkt.hdr.score == core
    && s.ejectHead f

/-- The target takes one transfer packet (R209). -/
def State.takeMove (s : State) (core : Nat) (m : Migration) (f : Flight) (crcOk : Bool) (badUnits badMsgs : List Nat) :
    State :=
  match f.pkt.body with
  | .migrate (.part n) _ _ => if n ≤ 8 then s.consume f.id else (s.consume f.id).abandonMove core true
  | .migrate .endPart _ _ =>
    if !crcOk then (s.consume f.id).abandonMove core true
    else if (s.site m.target).state ≠ .spare then (s.consume f.id).abandonMove core false
    else if s.moveStill (s.core core) m then (s.consume f.id).installMove core m badUnits badMsgs
    else s
  | _ => s

/-- MIGRATION_TRANSFER: the move goes one step on: running activations have ended, the drain is complete and the save sets
out, or a transfer packet reaches the target (R207–R211). -/
def execMigrationTransfer (core : Nat) (crcOk : Bool) (badUnits badMsgs : List Nat) (s : State) :
    Host.Outcome State Fault Refusal :=
  match (s.core core).mig with
  | none => .next s
  | some m =>
    if m.phase = 0 then
      .next (if s.quiet core then s.setMig core { m with phase := 1, since := s.now } else s)
    else if m.phase = 1 then
      .next (if m.since + 65536 < s.now then s.abandonMove core false
             else if s.moveReady core then s.sendMove core m else s)
    else match s.moveArrived core m.target with
      | none => .next (s.sendUnits core m)
      | some f => .next (s.takeMove core m f crcOk badUnits badMsgs)

/-! ### Forwarding (R210) -/

/-- A moved notice for the sender of a packet (R202, R210). -/
def State.notify (s : State) (p : Packet) (old new : Nat) : State :=
  let val := w64 (old * 2 ^ 21 + new)
  if p.hdr.smod = s.moduleId then s.addSys p.hdr.score (.moved val)
  else match p.hdr.ingress.getLast? with
    | none => s
    | some q =>
      let x := s.port q
      let r : ReportFrame := ⟨val, p.hdr.ingress.dropLast, none⟩
      s.setPort q { x with sent := x.sent ++ [.report r p.hdr.score true] }

/-- The packet on its way from the vacated site to the new one. -/
def State.forwarded (s : State) (p : Packet) (old new : Nat) : Packet :=
  let runs := s.managedRuns old new
  let h := p.hdr
  { p with hdr := { h with
      runs, cur := 0, last := runs.length - 1, fin := runs.isEmpty, dsite := new, dmod := s.moduleId
      ext := decide (8 < runs.length) } }

/-- The release of a PHASE that comes to the site its core has left ends it, though it writes nothing (R210, R277, R301). -/
def State.endPhase (s : State) (p : Packet) : State :=
  match p.body with
  | .syncRep id .done => match s.req id with
    | none => s
    | some r => match r.target, ownerCore r.owner with
      | .sync _ (.phase g), some n => (s.dropReq id).phaseOver n g
      | _, _ => s
  | _ => s

/-- FORWARD_PACKET: a message or marker at a vacated site is sent on, with a notice to its sender; a reply is discarded,
with what it carries (R210, R253). A round marker or management message is treated as a message is, its notice included (DESIGN
CHOICE, log entry 105). -/
def execForwardPacket (site flight : Nat) (s : State) : Host.Outcome State Fault Refusal :=
  match s.ejected flight 0, (s.site site).fwd with
  | some f, some new =>
    if f.site ≠ site then .next s
    else
      let k := f.pkt.hdr.kind
      if isInboxKind k || k == .mgmt then
        .next (((s.consume f.id).notify f.pkt site new).inject site (s.forwarded f.pkt site new))
      else if isReplyKind k then
        .next (((s.consume f.id).endPhase f.pkt).log (siteDie site) evFwdDiscard site none 0 (dropBytes f.pkt))
      else .next s
  | _, _ => .next s

/-- FORWARDING_ENTRY_RETIRE (R210). -/
def execForwardingEntryRetire (site : Nat) (s : State) : Host.Outcome State Fault Refusal :=
  if (s.site site).fwd.isNone then .next s else .next (s.setSite site { s.site site with fwd := none })

end Sys2Proof.Machine
end

