-- ==== Sys2Proof/Machine/Power.lean ====
section
/-! DEFINITION. Cluster regulators and power-on (R262–R265), converters (R366, R367), temperatures (R368), soft errors and
scrubbing (R373), fatal errors (R372) and the graft table (R256–R261, R328). -/

namespace Sys2Proof.Machine

open Sys2Proof

/-- A microsecond in cycles of the module clock (log entry 3). -/
def usec : Nat := 1200

/-- The bytes of a run are lost: they read as memory nothing has written. -/
def Memory.lose (m : Memory) (a n : Nat) : Memory := m.filter fun c => !(decide (a ≤ c.1) && decide (c.1 < a + n))

/-! ### Fatal errors (R372) -/

/-- What keeps its contents when the core rails are removed: all but core and cluster scratchpads (R262). -/
def Memory.railsOff (m : Memory) : Memory :=
  m.filter fun c => decide (c.1 / 2 ^ 48 ≠ Space.code .scratch) && decide (c.1 / 2 ^ 48 ≠ Space.code .cluster)

/-- A flash slot holds the 64 records: die d's bytes from 262,144 · d. -/
def State.recordsCopy (s : State) : Memory :=
  (List.range 64).flatMap fun d =>
    let a := (⟨.die, d, recordBase⟩ : Place).phys
    (s.mem.part a 0x4_0000).map fun c => (c.1 - a + 0x4_0000 * d, c.2)

/-- A fatal error: FATAL in every die, the records to the oldest flash slot, the rails off, stage 0 (R366, R368, R372). -/
def State.fatal (s : State) : State :=
  let t := (List.range 64).foldl (fun u d => u.log d evFatal 0 none 0 []) s
  { t with
    flash := t.flash.put (t.fatals % 4) t.recordsCopy, fatals := t.fatals + 1
    cores := [], ctxs := [], reqs := [], net := [], used := [], owed := [], crcFails := [], reports := [], engRoutes := []
    clusters := [], image := none, running := none, groups := [], members := [], pageMove := none, mem := t.mem.railsOff
    rotation := none, outTurn := [], injected := 0, consumed := 0, coppice := Coppice.blank
    dies := t.dies.mapV fun _ d =>
      { Die.blank with seq := d.seq, place := d.place, logAt := d.logAt, logged := d.logged, convDark := d.convDark, attach := d.attach }
    bringup := { t.bringup with stage := 0, fail := 0, sapling := false, trained := false, ms := 0, began := none, fatal := true } }

/-! ### Regulators (R262–R264) -/

/-- The first site of a cluster, for its events. -/
def clusterHome (cl : Nat) : Nat := clusterSite cl 0 0

def insertNat (a : Nat) : List Nat → List Nat
  | [] => [a]
  | b :: t => if a ≤ b then a :: b :: t else b :: insertNat a t

def sortNat : List Nat → List Nat
  | [] => []
  | a :: t => insertNat a (sortNat t)

/-- Cores the sites carry, in ascending number. -/
def State.coresOn (s : State) (sites : List Nat) : List Nat := sortNat (sites.filterMap fun x => (s.site x).core)

/-- A move under way after the supply of the region's DRAM failed: the pages of the region move with the core as well (R367). -/
def State.darkenMove (s : State) (core : Nat) (m : Migration) : State :=
  let more : State × Migration :=
    if m.phase = 2 ∧ !m.dark ∧ !m.full then
      match s.splitRows (s.core core).region with
      | none => (s, m)
      | some t =>
        let ls := (t.movedLeaves (t.core core) true).filter fun l =>
          !(m.leaves.any fun k => k.1 == l.1) && s.updating != some l.1
        (t.busyLeaves ls, { m with leaves := m.leaves ++ ls })
    else (s, m)
  more.1.setMig core { more.2 with dark := true }

/-- The die moves a core to the first spare site of some dies; a pair is ended first, and a move to a site that has just
been fenced is given up (R264, R367). -/
def State.forceMove (s : State) (core : Nat) (dies : List Nat) (dark : Bool) : State :=
  let s1 : State := match (s.core core).pair with
    | none => s
    | some p =>
      let t := s.unpair core
      t.setSite p.shadow { t.site p.shadow with shadowOf := none }
  let s2 : State := match (s1.core core).mig with
    | some m => if (s1.site m.target).state = .fenced then s1.abandonMove core false else s1
    | none => s1
  match (s2.core core).mig with
  | some m => if dark then s2.darkenMove core m else s2
  | none => match dies.findSome? s2.spareIn with
    | some t => s2.beginMove core t false dark
    | none => s2

/-- A cluster's sites are fenced, and it is dark; a power-on that is under way ends (R264). -/
def State.darken (s : State) (cl : Nat) : State :=
  let s1 := (clusterSites cl).foldl State.fence s
  let s2 := s1.setCluster cl { s1.cluster cl with reg := 2, holdup := some s1.now, stageAt := none, waitAt := none }
  s2.log (cl / 64) evRegDark (clusterHome cl) none (w64 (cl % 64)) []

/-- A failed controller (R264). -/
def State.controllerFails (s : State) (cl : Nat) : State :=
  let cores := s.coresOn (clusterSites cl)
  cores.foldl (fun t c => t.forceMove c [cl / 64] false) (s.darken cl)

/-- The cluster's rail is on, and no hold-up of a failed controller runs. -/
def Cluster.live (c : Cluster) : Bool := c.rail != 0 && c.holdup.isNone

/-- REG_DARK (R264). -/
def execRegDark (cluster : Nat) (s : State) : Host.Outcome State Fault Refusal :=
  if (s.cluster cluster).live then .next (s.controllerFails cluster) else .next s

/-- REG_PHASE: a failed phase derates the cluster; a second one is a controller failure (R263). The map shows a cluster dark until
it has powered on again (R326). -/
def execRegPhase (cluster : Nat) (s : State) : Host.Outcome State Fault Refusal :=
  let c := s.cluster cluster
  if !c.live then .next s
  else if c.phases = 5 then .next (s.controllerFails cluster)
  else
    let lower : Nat → Nat → Nat := fun a b => if a < b then a else b
    let c' : Cluster := { c with reg := if c.reg = 2 then 2 else 1, phases := 5, permitted := lower c.permitted 100, clock := lower c.clock 1000, former := lower c.former 1000 }
    .next ((s.setCluster cluster c').log (cluster / 64) evRegPhase (clusterHome cluster) none (w64 (cluster % 64)) [])

/-- A core is retired: what it held is lost, with what waits for it in its router, and its number is reported; a move of it that
has not completed is given up (R264). -/
def State.retire (s : State) (core : Nat) : State :=
  let s0 := s.abandonMove core false
  let c := s0.core core
  let s1 := (s0.net.filter fun f => f.site == c.site && f.spot == .eject 0).foldl (fun t f => t.consume f.id) s0
  let s2 := s1.setSite c.site { s1.site c.site with core := none }
  let s3 := s2.setCore core { Core.blank core with site := c.site, region := c.region, absent := true }
  let s4 := (List.range 4).foldl (fun t k => t.setCtx core k .blank) s3
  { s4 with
    reqs := s4.reqs.filter fun r => ownerCore r.owner != some core
    running := s4.running.map fun r => { r with retired := insertNat core r.retired } }

/-- The scratchpads of a cluster's domain lose their contents when its rail goes off (R262). -/
def State.domainLost (s : State) (cl : Nat) : State :=
  let m := (clusterSites cl).foldl (fun k x => Memory.lose k (⟨.scratch, x, 0⟩ : Place).phys 0x8000) s.mem
  { s with mem := Memory.lose m (⟨.cluster, cl, 0⟩ : Place).phys 0x20_0000 }

/-- Dies beside a die, ascending. -/
def besideDies (d : Nat) : List Nat :=
  (if d / 8 > 0 then [d - 8] else []) ++ (if d % 8 > 0 then [d - 1] else [])
  ++ (if d % 8 < 7 then [d + 1] else []) ++ (if d / 8 < 7 then [d + 8] else [])

/-- A spare site of some dies whose region no page names (R367). -/
def State.spareRegion (s : State) (dies : List Nat) : Option Nat :=
  let used := (s.tableLeaves.filter fun p => bits p.2 32 30 == 0).map fun p => bits p.2 53 33
  (dies.flatMap dieSites).find? fun x => s.isSpare x && (s.site x).migTarget.isNone && !used.contains x

/-- Cores whose window slots hold some of the leaves: those whose own region they rewrite (R307, R405). -/
def State.slotCores (s : State) (leaves : List (Nat × Nat)) (region : Nat) : List Nat :=
  (s.cores.filter fun e => (e.2.region == region
    || s.remaps.any fun m => m.badSite == e.2.region && m.spareSite == region) && !leaves.isEmpty).map fun e => e.1

/-- The pages that still name a lost DRAM region turn busy and leave every holder; with none there is nothing more to do (R314,
R367). -/
def State.beginRehome (s : State) (region : Nat) : State :=
  match s.regionLeaves region with
  | [] => s
  | l :: t =>
    let u := s.busyLeaves (l :: t)
    let d := u.die (siteDie region)
    u.setDie (siteDie region) { d with rehoming := d.rehoming ++ [region] }

/-- Once every access under the old leaves is performed, the pages have moved: they are rewritten to a spare region of a die beside, all of it
poisoned, and cores whose own pages they are get a route to it (R314, R367, R405). -/
def State.rehome (s : State) (region : Nat) : State :=
  if s.runBusy ⟨.dram, region, 0⟩ 0x40_0000 || s.pageMove.isSome then s
  else
    let d := s.die (siteDie region)
    let s0 := s.setDie (siteDie region) { d with rehoming := d.rehoming.filter fun x => x != region }
    let ls := s0.regionLeaves region
    match s0.spareRegion (besideDies (siteDie region)) with
    | none => ls.foldl (fun u l => u.writeEntry l.1 (l.2 - (if bit l.2 7 then 128 else 0))) s0
    | some t =>
      let q := (⟨.dram, t, 0⟩ : Place).phys
      let s1 := ls.foldl (fun u l => u.writeEntry l.1 (leafAt l.2 t - (if bit l.2 7 then 128 else 0))) s0
      let s2 : State := { s1 with
        poison := unpoison s1.poison q 0x40_0000 ++ [(q / 32, 0x2_0000)]
        coppice := { s1.coppice with moved := s1.coppice.moved || !ls.isEmpty } }
      (s2.slotCores ls region).foldl (fun u n => u.routeTo n t) s2

/-- The DRAM above a cluster of a die without its converter loses its contents (R367). -/
def State.dramLost (s : State) (cl : Nat) : State :=
  let sites := clusterSites cl
  let s1 := sites.foldl (fun t x => (t.splitRows x).getD t) s
  let s2 := { s1 with mem := sites.foldl (fun k x => Memory.lose k (⟨.dram, x, 0⟩ : Place).phys 0x40_0000) s1.mem }
  sites.foldl State.beginRehome s2

/-- What a converter's failure does to a cluster at the end of the die's hold-up (R367). -/
def State.supplyLost (s : State) (cl : Nat) : State :=
  let d := s.die (cl / 64)
  let s1 := s.setDie (cl / 64) { d with convDark := true }
  { s1 with stateGen := if d.convDark then s1.stateGen else s1.stateGen + 1 }.dramLost cl

/-- The rail of a cluster goes off, and what has not moved is retired (R262, R264). -/
def State.railOff (s : State) (cl : Nat) : State :=
  let s1 := (s.coresOn (clusterSites cl)).foldl State.retire s
  (s1.setCluster cl { s1.cluster cl with holdup := none, rail := 0, stages := 0, stageAt := none, waitAt := none, permitted := 0 }).domainLost cl

/-- HOLDUP_END: 100 µs after the failure the rail is off and what has not moved is retired; where the converter has failed the
DRAM above is lost 100 µs after that, and then its pages are rewritten (R264, R367). -/
def execHoldupEnd (cluster : Nat) (s : State) : Host.Outcome State Fault Refusal :=
  match (s.cluster cluster).holdup with
  | none => .next (((s.die (cluster / 64)).rehoming.filter fun x => siteCluster x == cluster).foldl State.rehome s)
  | some t0 =>
    if s.now < t0 + 100 * usec then .next s
    else
      let t := s.railOff cluster
      match (s.die (cluster / 64)).convHold with
      | none => .next t
      | some t1 =>
        if t0 < t1 then .next (t.setCluster cluster { t.cluster cluster with holdup := some t1 })
        else .next (t.supplyLost cluster)

/-- CONV_FAIL: the 64 clusters of a die go dark together (R367). -/
def execConvFail (die : Nat) (s : State) : Host.Outcome State Fault Refusal :=
  let d := s.die die
  if d.convHold.isSome then .next s
  else
    let s1 := (s.setDie die { d with convHold := some s.now }).log die evConvFail 0 none (w64 die) []
    let cls := (List.range 64).map fun k => 64 * die + k
    let cores := s1.coresOn (cls.flatMap clusterSites)
    let s2 := cls.foldl (fun t k =>
      let c := t.cluster k
      if c.live then t.darken k
      else if c.holdup.isSome then t
      else t.setCluster k { c with holdup := some s.now }) s1
    .next (cores.foldl (fun t c => t.forceMove c (besideDies die) true) s2)

/-! ### Power-on (R265) -/

/-- Currents in tenths of an ampere: the die's budget, and the allowance of one stage (R262). -/
def dieBudget : Nat := 8000
def inrush : Nat := 480

/-- The current of a cluster as measured over the last microsecond: a free value within what it may draw, which is its permitted
current and, while a stage runs, the inrush (R262, R265, log entry 23). -/
def State.current (s : State) (cl : Nat) : Nat :=
  let c := s.cluster cl
  Config.measuredCurrent (s.now / usec) cl % (c.permitted + (if c.stageAt.isSome then inrush else 0) + 1)

/-- Sum of the measured currents of a die's clusters and of the allowances of stages in progress (R265). -/
def State.drawn (s : State) (d : Nat) : Nat :=
  ((List.range 64).map fun k =>
    s.current (64 * d + k) + (if (s.cluster (64 * d + k)).stageAt.isSome then inrush else 0)).sum

/-- There is headroom for a stage (R265). -/
def State.headroomOk (s : State) (d : Nat) : Bool := decide (s.drawn d + inrush ≤ dieBudget)

/-- Whether a cluster of lower number in the die waits for a stage. -/
def State.earlierWaits (s : State) (cl : Nat) : Bool :=
  (List.range (cl % 64)).any fun k =>
    let c := s.cluster (cl - cl % 64 + k)
    c.waitAt.isSome && c.stageAt.isNone

/-- POWER_STAGE_START: a stage starts when the die has the headroom and no cluster of lower number waits; else the
power-on waits (R265). -/
def execPowerStageStart (cluster : Nat) (s : State) : Host.Outcome State Fault Refusal :=
  let c := s.cluster cluster
  if c.stages ≥ 4 ∨ c.stageAt.isSome ∨ c.holdup.isSome then .next s
  else if s.headroomOk (cluster / 64) && !s.earlierWaits cluster then
    .next (s.setCluster cluster { c with stageAt := some s.now, waitAt := none, waitLogged := false, rail := railSet cluster })
  else .next (s.setCluster cluster { c with waitAt := some (c.waitAt.getD s.now) })

/-- POWER_STAGE_END: after 4 µs the permitted current rises by 3.0 A, up to the cluster's limit (R262, R265). -/
def execPowerStageEnd (cluster : Nat) (s : State) : Host.Outcome State Fault Refusal :=
  let c := s.cluster cluster
  match c.stageAt with
  | none => .next s
  | some t0 =>
    if s.now < t0 + 4 * usec then .next s
    else
      let n := c.stages + 1
      let lim := if c.phases = 6 then 120 else 100
      let p := if 30 * n < lim then 30 * n else lim
      let reg := if n = 4 ∧ c.reg = 2 then (if c.phases = 6 then 0 else 1) else c.reg
      .next (s.setCluster cluster
        { c with stages := n, stageAt := none, permitted := p, waitAt := if n < 4 then some s.now else none, reg })

/-- POWER_WAIT (R265). -/
def execPowerWait (cluster : Nat) (s : State) : Host.Outcome State Fault Refusal :=
  let c := s.cluster cluster
  match c.waitAt with
  | none => .next s
  | some t0 =>
    if c.waitLogged || decide (s.now < t0 + 1000 * usec) then .next s
    else .next ((s.setCluster cluster { c with waitLogged := true }).log (cluster / 64) evPowerWait (clusterHome cluster) none
      (w64 (cluster % 64)) [])

/-! ### Temperature, supply, cooling (R366, R368) -/

/-- THERMAL_SAMPLE: readings in °C of a cluster's sensor and of the DRAM wafer (R368). THERM_TRIP stands at site 0, as FATAL does
(log entry 53), and its lower code puts it first in that cycle (R372). -/
def execThermalSample (cluster junction dram : Nat) (s : State) : Host.Outcome State Fault Refusal :=
  let c := s.cluster cluster
  let d := cluster / 64
  if junction ≥ 115 ∨ dram ≥ 95 then
    .next (s.log d evThermTrip 0 none (w64 (cluster % 64)) []).fatal
  else if junction ≥ 100 ∧ !c.throttled then
    let clock := if c.clock < 1000 then c.clock else 1000
    .next ((s.setCluster cluster { c with former := c.clock, clock, throttled := true }).log d evThermHigh (clusterHome cluster)
      none (w64 (cluster % 64)) [])
  else if junction < 95 ∧ c.throttled then
    .next (s.setCluster cluster { c with clock := c.former, throttled := false })
  else .next s

/-- TRAY_UNDERVOLTAGE: a voltage that has lasted so many microseconds (R366). -/
def execTrayUndervoltage (volts us : Nat) (s : State) : Host.Outcome State Fault Refusal :=
  if volts < 720 ∧ us > 1000 then .next s.fatal else .next s

/-- COOLANT_LOW_FLOW: a flow in millilitres per minute that has lasted so many microseconds (R366). -/
def execCoolantLowFlow (mlPerMin us : Nat) (s : State) : Host.Outcome State Fault Refusal :=
  if mlPerMin < 40000 ∧ us > 1000000 then .next s.fatal else .next s

/-! ### Soft errors (R373) -/

/-- What die management keeps in its die's scratchpad, from the heartwood record to the end of the page table, holds an error that
cannot be corrected (R308, R325, R372, R373). -/
def State.ownStateBad (s : State) (die : Nat) : Bool := s.poisoned ⟨.die, die, recordBase⟩ (0x200_0000 - recordBase)

/-- SOFT_ERR: a corrected error is repaired in place and counted; the event comes at most once a millisecond. An error in the
state of die management itself that cannot be corrected is a fatal error (R373). -/
def execSoftErr (die : Nat) (s : State) : Host.Outcome State Fault Refusal :=
  let d := s.die die
  if s.ownStateBad die then .next s.fatal else
  let n := d.soft + 1
  let quiet := match d.softAt with
    | some t => decide (s.now < t + 1000 * usec)
    | none => false
  if quiet then .next (s.setDie die { d with soft := n })
  else .next ((s.setDie die { d with soft := 0, softAt := some s.now }).log die evSoftErr 0 none (w64 n) [])

/-- DRAM_SCRUB: a region is read and corrected in full, which changes no byte of it (R373). -/
def execDramScrub (_site : Nat) (s : State) : Host.Outcome State Fault Refusal := .next s

/-! ### The graft table (R256–R261, R328) -/

/-- A site is bad: by the manifest, or because it has been marked failed or fenced (R261, R328). -/
def State.badSite (s : State) (extra : List Nat) (x : Nat) : Bool :=
  let m := s.manifest.at x .blank
  let marked := match s.sites.look x with
    | some e => e.state == .failed || e.state == .fenced
    | none => false
  m.bad || m.sram || extra.contains x || marked

/-- Every link of a site is up. -/
def State.linksUp (s : State) (x : Nat) : Bool :=
  !(s.linkDown x .n || s.linkDown x .e || s.linkDown x .s || s.linkDown x .w)

/-- Site at position `p` of the row with key 8 · cluster + row. -/
def rowSite (key p : Nat) : Nat := clusterSite (key / 8) (key % 8) p

/-- The positions in the order of their distance from 8, the lower first (R258). -/
def nearEight : List Nat := [8, 7, 9, 6, 10, 5, 11, 4, 12, 3, 13, 2, 14, 1, 15, 0, 16]

/-- The entry of a row before the seam check (R258). -/
def State.rowEntry (s : State) (extra : List Nat) (key : Nat) : Nat :=
  let chosen := match (List.range 17).filter fun p => s.badSite extra (rowSite key p) with
    | [] => (nearEight.find? fun p => s.linksUp (rowSite key p)).getD 31
    | [b] => b
    | _ :: _ :: _ => 31
  if chosen ≤ 16 ∧ !s.linksUp (rowSite key chosen) then 31 else chosen

/-- The entry die management writes for a row: a reserved value, or 31, as it stands in bits [4:0]; any other by R258 (R6, R256,
R258, R261). -/
def State.ruledEntry (s : State) (key v : Nat) : Nat := if 17 ≤ v % 32 then v % 32 else s.rowEntry [] key

/-- The row one cluster to the west, none at the module's edge. -/
def westRow (key : Nat) : Option Nat :=
  let cl := key / 8
  if cl % 8 > 0 then some (key - 8)
  else if cl / 64 % 8 > 0 then some (8 * (64 * (cl / 64 - 1) + cl % 64 + 7) + key % 8)
  else none

/-- Rows whose entry may differ from the default: those that hold a listed site or lie beside one. -/
def State.touchedRows (s : State) (extra : List Nat) : List Nat :=
  let sites := extra ++ (s.manifest.map fun e => e.1) ++ (s.sites.map fun e => e.1)
  (sites.flatMap fun x => siteRowKey x ::
    [Dir.n, .e, .s, .w].filterMap fun d => (hop x d).map siteRowKey).eraseDups

/-- A row whose west neighbour skips 16 while it skips 0 is disabled (R258). -/
def seamCheck (rows : FMap Nat) : FMap Nat :=
  rows.mapV fun k e =>
    let west : Bool := match westRow k with
      | some w => rows.at w defaultSkip == 16
      | none => false
    if e = 0 ∧ west then 31 else e

/-- The entry of a row is written; only entries that are not 8 are listed. -/
def putEntry (t : FMap Nat) (key e : Nat) : FMap Nat := if e = defaultSkip then t.cut key else t.put key e

/-- The graft table of R258: the entries that are not 8. -/
def State.graftTable (s : State) (extra : List Nat) : FMap Nat :=
  seamCheck ((s.touchedRows extra).foldl (fun (t : FMap Nat) k => putEntry t k (s.rowEntry extra k)) [])

/-- A bank of a site is bad: by the manifest, or by DRAM training since power-on (R328, R369). -/
def State.badBank (s : State) (x b : Nat) : Bool := bit ((s.manifest.at x .blank).banks ||| s.training.at x 0) b

/-- Sites with a record in the manifest or a bank that failed training, in site-id order (R328, R369). -/
def State.recorded (s : State) : List Nat :=
  sortNat ((s.manifest.map fun e => e.1) ++ (s.training.map fun e => e.1)).eraseDups

/-- A good bank of a spare site of the die that no entry uses yet (R328). -/
def State.goodBank (s : State) (extra : List Nat) (taken : List Remap) (d : Nat) : Option (Nat × Nat) :=
  (dieSites d).findSome? fun x =>
    if (s.graftedCore x).isSome || s.badSite extra x then none
    else ((List.range 8).find? fun b => !s.badBank x b
        && !(taken.any fun r => r.spareSite == x && r.spareBank == b)).map fun b => (x, b)

/-- Remap entries for the bad banks of sites that carry cores, and the sites that found no spare (R328). -/
def State.remapTable (s : State) (extra : List Nat) : List Remap × List Nat :=
  s.recorded.foldl (fun (acc : List Remap × List Nat) e =>
    if (s.graftedCore e).isNone then acc
    else ((List.range 8).filter (s.badBank e)).foldl (fun (a : List Remap × List Nat) b =>
      match s.goodBank extra a.1 (siteDie e) with
      | some (x, k) => (a.1 ++ [⟨e, b, x, k⟩], a.2)
      | none => (a.1, e :: a.2)) acc) ([], [])

/-- Grafts and remaps, with the sites that find no spare bank counted as bad (R328). -/
def State.mapTables (s : State) : Nat → List Nat → FMap Nat × List Remap × List Nat
  | 0, extra => (s.graftTable extra, [], extra)
  | fuel + 1, extra =>
    let g := s.graftTable extra
    match ({ s with grafts := g } : State).remapTable extra with
    | (rs, []) => (g, rs, extra)
    | (_, more) => State.mapTables s fuel (more.eraseDups ++ extra)

/-- A site has been marked failed or fenced. -/
def State.marked (s : State) (x : Nat) : Bool :=
  match s.sites.look x with
  | some e => e.state == .failed || e.state == .fenced
  | none => false

/-- A core goes back to where its row's entry puts it: its row, or the row of the site it stands at, is rewritten, or the site it
stands at is that of another core that goes back. `fuel`: how many such cores are followed. -/
def State.goesBack (s : State) (rows : Nat → Bool) : Nat → Nat → Bool
  | 0, _ => false
  | fuel + 1, n =>
    let here := (s.core n).site
    rows (siteRowKey (siteUnder n defaultSkip)) || rows (siteRowKey here) || (match s.graftedCore here with
      | some m => m != n && State.goesBack s rows fuel m
      | none => false)

/-- A core of a row, or at a site of a row, that is rewritten, or in the place of one. -/
def State.replaced (s : State) (rows : Nat → Bool) (n : Nat) : Bool := s.goesBack rows (s.cores.length + 1) n

/-- A site of a row that is not rewritten: it stays as it is, unless the core it carries goes back, or the core its own row's entry
puts there comes back to it, so that nothing is forwarded from it any more (R210, R261). -/
def State.hostEntry (s : State) (rows : Nat → Bool) (x : Nat) : Site :=
  let e := s.site x
  let e' := match e.core with
    | none => e
    | some n => if s.replaced rows n then { e with core := none, state := if e.state = .good then .spare else e.state } else e
  match s.graftedCore x with
  | none => e'
  | some n =>
    if !s.replaced rows n then e'
    else if s.marked x then { e' with fwd := none }
    else { e' with core := some n, state := .good, fwd := none }

/-- Site entries of the rows that are rewritten, under new tables: the frequency bin of the manifest, links marked down, and what the row's entry makes of the
site; a site marked failed or fenced stays so and carries no core, and one that carries none keeps its forwarding entry (R210,
R257, R261, R326, R328). -/
def State.siteEntries (s : State) (extra : List Nat) (rows : Nat → Bool) : FMap Site :=
  let keys := (extra ++ (s.manifest.map fun e => e.1) ++ (s.sites.map fun e => e.1)).eraseDups
  keys.foldl (fun (t : FMap Site) x =>
    if !rows (siteRowKey x) then (if (s.sites.look x).isSome then t.put x (s.hostEntry rows x) else t) else
    let old := s.site x
    let core := if s.marked x || extra.contains x then none else s.graftedCore x
    let state : SiteState :=
      if s.marked x then old.state
      else if core.isSome then .good
      else if s.badSite extra x then .failed else .spare
    let fwd := if core.isSome then none else old.fwd
    t.put x ⟨state, old.down, (s.manifest.at x .blank).fbin, core, fwd, none, none⟩) []

/-- Every core of a row that is rewritten stands where the row's entry puts it, and is absent where it puts none or the site is
failed or fenced (R257, R260, R261, R326). -/
def State.placeCores (s : State) (rows : Nat → Bool) : State :=
  { s with cores := s.cores.mapV fun n c =>
      let p := s.placed n
      if s.replaced rows n then { c with site := p.1, region := p.1, absent := p.2 == 31 || s.marked p.1 } else c }

/-- Links the manifest faults are down, at both ends, before the rows are judged (R328). -/
def State.manifestLinks (s : State) : State :=
  s.manifest.foldl (fun t e =>
    ([Dir.n, .e, .s, .w].filter fun d => bit e.2.links (downBit d)).foldl (fun u d => u.markDown e.1 d) t) s

/-- A router that is failed has every link down (R328). -/
def State.routerFailed (s : State) (x : Nat) : Bool :=
  s.linkDown x .n && s.linkDown x .e && s.linkDown x .s && s.linkDown x .w

/-- A cluster bank whose router at position 8 is failed attaches at position 9 (R216, R325). -/
def State.attachBanks (s : State) : State :=
  let cls := ((s.sites.map fun e => siteCluster e.1) ++ (s.clusters.map fun e => e.1)).eraseDups
  cls.foldl (fun t cl =>
    let a := (List.range 4).foldr (fun k n => 2 * n + b2n (t.routerFailed (clusterSite cl (2 * k) 8))) 0
    if (t.cluster cl).attach9 = a then t else t.setCluster cl { t.cluster cl with attach9 := a }) s

/-- New site entries of the rows that are rewritten, with the state generation counted up when they change something, and what follows from them (R216, R257,
R327). `old`: the graft entries before. -/
def State.withEntries (s : State) (old : FMap Nat) (extra : List Nat) (rows : Nat → Bool) : State :=
  let e := s.siteEntries extra rows
  -- a row's entry decides where every site of it stands, listed or not
  let moved := (old ++ s.grafts).any fun r => old.at r.1 defaultSkip != s.grafts.at r.1 defaultSkip
  let t : State := { s with sites := e, stateGen := if s.sites = e ∧ !moved then s.stateGen else s.stateGen + 1 }
  t.attachBanks.placeCores rows

/-- Apply R328: the tables, the site entries and the cores follow. `always`: the entries are written whether or not they
change (R327). -/
def State.applyManifest (s : State) (always : Bool) : State :=
  let s0 := s.manifestLinks
  let r := s0.mapTables (s0.manifest.length + 1) []
  let s1 := { s0 with grafts := r.1, remaps := r.2.1 }
  let changed := always || s.grafts != r.1 || s.remaps != r.2.1
  { s1 with
    graftGen := if changed then s.graftGen + 1 else s.graftGen
    coppice := { s1.coppice with moved := s1.coppice.moved || s.remaps != r.2.1 } }.withEntries s.grafts r.2.2 fun _ => true

/-! ### Rewriting between launches (R261, R309, R310) -/

/-- A 2 MiB page of target 0 becomes 32 pages of 64 KiB (R309, R310). None when the area has no room for a table. -/
def State.splitLarge (s : State) (off e : Nat) : Option State :=
  (s.freeTables 1).map fun ts =>
    let table := ts.getD 0 0
    let common := e - bits e 16 15 * 2 ^ 15
    let s1 := (List.range 32).foldl (fun t i => t.writeEntry (table + 8 * i) (common + i * 2 ^ 20)) s
    (s1.writeEntry off (table + 1)).dropLeaves [e]

/-- Every page of the region of a site is one of 64 KiB of target 0 (R309, R310). -/
def State.splitRegion (s : State) (region : Nat) : Option State :=
  (s.splitRows region).bind fun t =>
    ((t.regionLeaves region).filter fun p => bits p.2 16 15 == 1).foldl (fun o p => o.bind fun u => u.splitLarge p.1 p.2) (some t)

/-- The leaves that cover a bank of a site's region, wherever it lies now (R310). -/
def State.bankLeaves (s : State) (m : Remap) : List (Nat × Nat) :=
  s.tableLeaves.filter fun p => bits p.2 63 54 == s.moduleId && bits p.2 32 30 == 0 &&
    (match s.inRegion m.badSite (leafPlace p.2) with
     | some o => o / 0x8_0000 == m.badBank
     | none => false)

/-- The 8 pages that cover a bad bank name the spare's site and the frames of its good bank, and the core whose region it is gets a
route to it; none while a page of the region cannot be split (R309, R310, R314, R405). -/
def State.remapPages (s : State) (m : Remap) : Option State :=
  (s.splitRegion m.badSite).map fun t =>
    let ls := t.bankLeaves m
    let new : Nat → Nat := fun e => leafTo e ⟨.dram, m.spareSite, m.spareBank * 0x8_0000 + (leafPlace e).off % 0x8_0000⟩
    let u := ls.foldl (fun v l => v.writeEntry l.1 (new l.2)) (t.dropLeaves (ls.map fun l => l.2))
    (u.slotCores ls m.badSite).foldl (fun v n => v.routeTo n m.spareSite) u

/-- A remap entry die management may write: from a bank of a site that carries a core to a good bank of a spare site of the die that
no other entry names (R310, R328). -/
def State.remapOk (s : State) (m : Remap) : Bool :=
  (s.site m.badSite).core.isSome && s.isSpare m.spareSite && siteDie m.badSite == siteDie m.spareSite
  && decide (m.badBank < 8) && decide (m.spareBank < 8) && !s.badBank m.spareSite m.spareBank
  && !(s.remaps.any fun r => r.spareSite == m.spareSite && r.spareBank == m.spareBank)

/-- One remap entry, after the pages that are to change (R309, R310). -/
def State.addRemap (s : State) (m : Remap) : State :=
  if s.remapOk m then match s.remapPages m with
  | none => s
  | some t =>
    { t with
      remaps := (t.remaps.filter fun r => !(r.badSite == m.badSite && r.badBank == m.badBank)) ++ [m]
      coppice := { t.coppice with moved := true } }
  else s

/-- The remap entries given, in order, and whether any was written. -/
def State.addRemaps (s : State) : List Remap → State × Bool
  | [] => (s, false)
  | m :: rest =>
    let t := s.addRemap m
    let p := State.addRemaps t rest
    (p.1, (s.remapOk m && (s.remapPages m).isSome) || p.2)

/-- The target-5 pages of rows that are disabled go (R309, R314). -/
def State.dropRows (s : State) : State :=
  let ls := s.tableLeaves.filter fun p => s.rowDisabled p.2
  if ls.isEmpty then s else (ls.foldl (fun t l => t.writeEntry l.1 0) s).dropLeaves (ls.map fun l => l.2)

/-- A core is being moved or is paired. -/
def State.unsettled (s : State) : Bool := s.cores.any fun e => e.2.mig.isSome || e.2.pair.isSome

/-- GRAFT_REWRITE: between launches die management writes graft and remap entries: rows as (key, skip), remaps as (bad
site, bank, spare site, bank). It waits for moves, pairs, a page update under way and the accesses to a bank that is remapped to end (R258, R261, R310, R314,
R327, log entry 85). -/
def execGraftRewrite (rows : List (Nat × Nat)) (remaps : List (Nat × Nat × Nat × Nat)) (s : State) :
    Host.Outcome State Fault Refusal :=
  let new : List Remap := remaps.map fun r => ⟨r.1, r.2.1, r.2.2.1, r.2.2.2⟩
  if s.running.isSome ∨ (rows.isEmpty && remaps.isEmpty) ∨ s.unsettled ∨ s.pageMove.isSome
    ∨ (new.any fun m => s.runBusy (s.regionPlace m.badSite (m.badBank * 0x8_0000)) 0x8_0000) then .next s
  else
    let g := seamCheck (rows.foldl (fun t r => putEntry t r.1 (s.ruledEntry r.1 r.2)) s.grafts)
    let s1 : State := { s with grafts := g }
    let written : Nat → Bool := fun k => (rows.any fun r => r.1 == k) || s.grafts.at k defaultSkip != g.at k defaultSkip
    let p := State.addRemaps (s1.withEntries s.grafts [] written).dropRows new
    .next { p.1 with graftGen := if rows.isEmpty && !p.2 then s.graftGen else s.graftGen + 1 }

end Sys2Proof.Machine
end

