-- ==== Sys2Proof/Machine/Bringup.lean ====
section
/-! DEFINITION. Cold reset (R7, R372) and the stages of bring-up (R369–R371, R374). -/

namespace Sys2Proof.Machine

open Sys2Proof

/-- A byte of some die's heartwood record. -/
def inRecord (a : Nat) : Bool :=
  decide (a / 2 ^ 48 = Space.code .die) && decide (recordBase ≤ a % 2 ^ 26) && decide (a % 2 ^ 26 < recordBase + 0x4_0000)

/-- COLD_RESET: every field takes its reset value. What is no field of the module stays: fuses, flash, the manifest, the
fibres, the bias recorded of a laser's first hour, the host; and the heartwood records, as the 12 V supply stands (R7, R328, R372, log entry 24). -/
def execColdReset (s : State) : Host.Outcome State Fault Refusal :=
  .next { State.reset with
    manifest := s.manifest, flash := s.flash, fatals := s.fatals, moduleId := s.moduleId
    hostMem := s.hostMem, hostImages := s.hostImages, hostOut := s.hostOut
    mem := s.mem.filter fun c => inRecord c.1
    dies := s.dies.mapV fun _ d => { Die.blank with attach := d.attach, place := d.place }
    ports := s.ports.mapV fun _ p => { Port.blank with
      lasers := p.lasers.mapV fun _ x => { Laser.blank with b0 := x.b0 }
      peerMod := p.peerMod, peerPort := p.peerPort, metres := p.metres }
    bringup := { State.reset.bringup with fuseVersion := s.bringup.fuseVersion }
    turn := s.turn, fresh := s.fresh, agenda := s.agenda, focus := s.focus }

/-- Bring-up goes to a stage; die 0 logs STAGE with its number (R370, R372, log entry 25). -/
def State.toStage (s : State) (stage fail : Nat) : State :=
  ({ s with bringup := { s.bringup with stage, fail } }).log 0 evStage 0 none (w64 stage) []

/-- Bring-up fails: no launch command is accepted (R369). -/
def State.failStage (s : State) (fail : Nat) : State :=
  { s with bringup := { s.bringup with sapling := false } }.toStage 15 fail

/-- Every cluster of the module has passed its four stages (R265). -/
def State.allPowered (s : State) : Bool := (List.range 4096).all fun k => (s.cluster k).stages == 4

/-- STAGE_POWER. From stage 0: the boot ROM checks the firmware (an image of a security version below that of the fuses fails), the
supplies rise, and every cluster begins to power on. In stage 1, once every cluster has powered on: the manifest is checked, and the
provisional map is built from it alone; then training begins and sapling mode is offered (R265, R328, R369, R371, R374). -/
def execStagePower (firmwareOk : Bool) (version : Nat) (manifestOk supplyOk : Bool) (s : State) : Host.Outcome State Fault Refusal :=
  if s.bringup.stage = 0 then
    let b := { s.bringup with began := some s.now, ms := 0, trained := false, sapling := false, fatal := false, version }
    let s1 : State := { s with bringup := { b with stage := 1, fail := 0 }, sites := [], clusters := [], training := [] }
    if !firmwareOk ∨ version < s.bringup.fuseVersion then .next (s1.failStage 1)
    else if !supplyOk then .next (s1.failStage 3)
    else .next (s1.toStage 1 0)
  else if s.bringup.stage = 1 then
    if !supplyOk then .next (s.failStage 3)
    else if !s.allPowered then .next s
    else
      let s1 : State := { s with manifestOk }
      if !manifestOk then .next (s1.failStage 2)
      else
        let s2 := s1.applyManifest true
        .next ({ s2 with bringup := { s2.bringup with sapling := true } }.toStage 2 0)
  else .next s

/-- A bank that fails training counts as bad in the map; the manifest in flash stays as it is (R369). -/
def State.addBadBank (s : State) (site bank : Nat) : State :=
  { s with training := s.training.put site (s.training.at site 0 ||| 2 ^ bank) }

/-- STAGE_DRAM_TRAINING: training ends, with the banks that failed it (R369). -/
def execStageDramTraining (badBanks : List (Nat × Nat)) (ok : Bool) (s : State) : Host.Outcome State Fault Refusal :=
  if s.bringup.stage ≠ 2 ∨ s.bringup.trained then .next s
  else if !ok then .next (s.failStage 4)
  else
    let s1 := badBanks.foldl (fun t p => t.addBadBank p.1 (p.2 % 8)) s
    .next { s1 with bringup := { s1.bringup with trained := true } }

/-- STAGE_LINK_TEST: once no sapling launch runs, the image is unloaded and the failing links are marked down (R369). -/
def execStageLinkTest (failing : List (Nat × Dir)) (ok : Bool) (s : State) : Host.Outcome State Fault Refusal :=
  if s.bringup.stage ≠ 2 ∨ !s.bringup.trained ∨ s.running.isSome then .next s
  else
    let s1 := { s with image := none, bringup := { s.bringup with sapling := false } }.toStage 3 0
    let s2 := failing.foldl (fun t p => t.markDown p.1 p.2) s1
    if ok then .next (s2.toStage 4 0) else .next (s2.failStage 5)

/-- Milliseconds since stage 1 began (R370). -/
def State.bringupMs (s : State) : Nat :=
  match s.bringup.began with
  | none => 0
  | some t => if s.bringup.stage = 5 then s.bringup.ms else (s.now - t) / (1000 * usec) % 2 ^ 32

/-- STAGE_GRAFT: R328 again, with the faults of stages 2 and 3; the module is ready (R369). -/
def execStageGraft (s : State) : Host.Outcome State Fault Refusal :=
  if s.bringup.stage ≠ 4 then .next s
  else
    let s1 := s.applyManifest false
    .next ({ s1 with bringup := { s1.bringup with ms := s.bringupMs } }.toStage 5 0)

/-- BRINGUP as it reads (R370). -/
def State.bringupWord (s : State) : Word :=
  w64 (s.bringupMs * 2 ^ 16 + b2n s.bringup.sapling * 2 ^ 8 + s.bringup.fail % 16 * 2 ^ 4 + s.bringup.stage % 16)

/-- Launch commands are taken: in stage 5, and in stage 2 while sapling mode is offered (R369, R371). -/
def State.accepting (s : State) : Bool :=
  s.bringup.stage == 5 || (s.bringup.stage == 2 && s.bringup.sapling && !s.bringup.trained)

end Sys2Proof.Machine
end

