-- ==== Sys2Proof/Machine/Vector.lean ====
section
/-! DEFINITION. Vector arithmetic, compares, reductions, dot products, conversions, moves and masks (R127–R145, R151). -/

namespace Sys2Proof.Machine

/-- Rounding mode of the context in focus (R82). -/
def State.mode (s : State) : RMode := RMode.of s.me.vrm

/-- Elements of two sources (R130). -/
def State.vbin (s : State) (et : ElemTy) (d a b : Reg) (k : BitVec 3) (f : Nat → Nat → FRes) :
    Host.Outcome State Fault Refusal :=
  let x := s.me
  let w := et.width
  .next (s.vdone d (mapLanes w et.nelem (x.readK k) (x.readV d.toNat) fun i =>
    f (lane (x.readV a.toNat) w i) (lane (x.readV b.toNat) w i)))

/-- An operation with a floating-point and an integer form (R130). -/
def twoForm (et : ElemTy) (fp : Fmt → Nat → Nat → FRes) (int : Int → Int → Int) (a b : Nat) : FRes :=
  match etFmt et with
  | some f => fp f a b
  | none => intRes et.width (int (sextNat a et.width) (sextNat b et.width))

/-- A form legal for integer element types only (R45, R46). -/
def State.vint (s : State) (word : Word) (et : ElemTy) (d a b : Reg) (k : BitVec 3) (f : Nat → Nat → Nat) :
    Host.Outcome State Fault Refusal :=
  if et.isFp then s.trapOut cIllegal word else s.vbin et d a b k fun p q => ⟨f p q % 2 ^ et.width, 0⟩

/-- VADD (R130). -/
def execVadd (et : ElemTy) (d a b : Reg) (k : BitVec 3) (s : State) : Host.Outcome State Fault Refusal :=
  s.vbin et d a b k (twoForm et (fun f => f.add s.mode) (· + ·))

/-- VSUB (R130). -/
def execVsub (et : ElemTy) (d a b : Reg) (k : BitVec 3) (s : State) : Host.Outcome State Fault Refusal :=
  s.vbin et d a b k (twoForm et (fun f => f.sub s.mode) (· - ·))

/-- VMUL (R130). -/
def execVmul (et : ElemTy) (d a b : Reg) (k : BitVec 3) (s : State) : Host.Outcome State Fault Refusal :=
  s.vbin et d a b k (twoForm et (fun f => f.mul s.mode) (· * ·))

/-- The smaller or the larger of two integers. -/
def lesser (a b : Int) : Int := if a < b then a else b
def larger (a b : Int) : Int := if a < b then b else a

/-- VMIN (R130, R131). -/
def execVmin (et : ElemTy) (d a b : Reg) (k : BitVec 3) (s : State) : Host.Outcome State Fault Refusal :=
  s.vbin et d a b k (twoForm et (fun f => f.minmax false) lesser)

/-- VMAX (R130, R131). -/
def execVmax (et : ElemTy) (d a b : Reg) (k : BitVec 3) (s : State) : Host.Outcome State Fault Refusal :=
  s.vbin et d a b k (twoForm et (fun f => f.minmax true) larger)

/-- The fused forms: vd is the addend (R132). -/
def State.vfused (s : State) (word : Word) (et : ElemTy) (d a b : Reg) (k : BitVec 3) (negP negC : Bool) :
    Host.Outcome State Fault Refusal :=
  match etFmt et with
  | none => s.trapOut cIllegal word
  | some f =>
    let x := s.me
    let w := et.width
    .next (s.vdone d (mapLanes w et.nelem (x.readK k) (x.readV d.toNat) fun i =>
      f.fma s.mode negP negC (lane (x.readV a.toNat) w i) (lane (x.readV b.toNat) w i) (lane (x.readV d.toNat) w i)))

/-- VFMA: a·b + c (R132). -/
def execVfma (et : ElemTy) (d a b : Reg) (k : BitVec 3) (s : State) : Host.Outcome State Fault Refusal :=
  s.vfused (wordOf (.vfma et d a b k)) et d a b k false false

/-- VFMS: a·b − c (R132). -/
def execVfms (et : ElemTy) (d a b : Reg) (k : BitVec 3) (s : State) : Host.Outcome State Fault Refusal :=
  s.vfused (wordOf (.vfms et d a b k)) et d a b k false true

/-- VFNMA: c − a·b (R132). -/
def execVfnma (et : ElemTy) (d a b : Reg) (k : BitVec 3) (s : State) : Host.Outcome State Fault Refusal :=
  s.vfused (wordOf (.vfnma et d a b k)) et d a b k true false

/-- VAND (R130). -/
def execVand (et : ElemTy) (d a b : Reg) (k : BitVec 3) (s : State) : Host.Outcome State Fault Refusal :=
  s.vint (wordOf (.vand et d a b k)) et d a b k (· &&& ·)

/-- VOR (R130). -/
def execVor (et : ElemTy) (d a b : Reg) (k : BitVec 3) (s : State) : Host.Outcome State Fault Refusal :=
  s.vint (wordOf (.vor et d a b k)) et d a b k (· ||| ·)

/-- VXOR (R130). -/
def execVxor (et : ElemTy) (d a b : Reg) (k : BitVec 3) (s : State) : Host.Outcome State Fault Refusal :=
  s.vint (wordOf (.vxor et d a b k)) et d a b k (· ^^^ ·)

/-- VSHL: 0 when the count is the width or more (R130). -/
def execVshl (et : ElemTy) (d a b : Reg) (k : BitVec 3) (s : State) : Host.Outcome State Fault Refusal :=
  s.vint (wordOf (.vshl et d a b k)) et d a b k fun p n => if n ≥ et.width then 0 else p <<< n

/-- VSHR: 0 when the count is the width or more (R130). -/
def execVshr (et : ElemTy) (d a b : Reg) (k : BitVec 3) (s : State) : Host.Outcome State Fault Refusal :=
  s.vint (wordOf (.vshr et d a b k)) et d a b k fun p n => if n ≥ et.width then 0 else p >>> n

/-- Arithmetic right shift of a w-bit pattern; a count of the width or more gives all sign bits (R130). -/
def sraLane (w p n : Nat) : Nat := wrapInt (sextNat p w / 2 ^ (if n ≥ w then w else n)) w

/-- VSRA (R130). -/
def execVsra (et : ElemTy) (d a b : Reg) (k : BitVec 3) (s : State) : Host.Outcome State Fault Refusal :=
  s.vint (wordOf (.vsra et d a b k)) et d a b k (sraLane et.width)

/-! ### Compare (R133) -/

/-- Comparison of two elements: its bit and its flags. -/
def cmpLane (et : ElemTy) (c : CmpCond) (p q : Nat) : Bool × Nat :=
  match etFmt et with
  | some f => f.compare c p q
  | none =>
    let i := sextNat p et.width
    let j := sextNat q et.width
    (match c with
     | .eq => i == j
     | .ne => i != j
     | .lt => decide (i < j)
     | .le => decide (i ≤ j), 0)

/-- Bits of a list, lowest first. -/
def bitsNat : List Bool → Nat
  | [] => 0
  | b :: t => b2n b + 2 * bitsNat t

/-- VCMP: inactive bits and bits past the element count are written 0 (R133). -/
def execVcmp (c : CmpCond) (et : ElemTy) (kd : BitVec 3) (a b : Reg) (k : BitVec 3) (s : State) :
    Host.Outcome State Fault Refusal :=
  let x := s.me
  let w := et.width
  let m := x.readK k
  let rs := (List.range et.nelem).map fun i =>
    if bit m i then cmpLane et c (lane (x.readV a.toNat) w i) (lane (x.readV b.toNat) w i) else (false, 0)
  let fl := rs.foldl (fun n r => n ||| r.2) 0
  .next (s.setMe ({ x.writeK kd (bitsNat (rs.map Prod.fst)) with vflags := x.vflags ||| w64 fl }).next)

/-! ### Unary (R135, R136) -/

/-- Elements of one source. -/
def State.vun (s : State) (et : ElemTy) (d a : Reg) (k : BitVec 3) (f : Nat → FRes) :
    Host.Outcome State Fault Refusal :=
  let x := s.me
  let w := et.width
  .next (s.vdone d (mapLanes w et.nelem (x.readK k) (x.readV d.toNat) fun i => f (lane (x.readV a.toNat) w i)))

/-- A form legal for floating-point element types only. -/
def State.vunFp (s : State) (word : Word) (et : ElemTy) (d a : Reg) (k : BitVec 3) (f : Fmt → Nat → FRes) :
    Host.Outcome State Fault Refusal :=
  match etFmt et with
  | none => s.trapOut cIllegal word
  | some g => s.vun et d a k (f g)

/-- VABS (R135). -/
def execVabs (et : ElemTy) (d a : Reg) (k : BitVec 3) (s : State) : Host.Outcome State Fault Refusal :=
  s.vun et d a k fun p => match etFmt et with
    | some f => f.absneg false p
    | none => intRes et.width ((sextNat p et.width).natAbs : Nat)

/-- VNEG (R135). -/
def execVneg (et : ElemTy) (d a : Reg) (k : BitVec 3) (s : State) : Host.Outcome State Fault Refusal :=
  s.vun et d a k fun p => match etFmt et with
    | some f => f.absneg true p
    | none => intRes et.width (-(sextNat p et.width))

/-- VRCP (R135). -/
def execVrcp (et : ElemTy) (d a : Reg) (k : BitVec 3) (s : State) : Host.Outcome State Fault Refusal :=
  s.vunFp (wordOf (.vrcp et d a k)) et d a k fun f => f.rcp s.mode

/-- VSQRT (R135). -/
def execVsqrt (et : ElemTy) (d a : Reg) (k : BitVec 3) (s : State) : Host.Outcome State Fault Refusal :=
  s.vunFp (wordOf (.vsqrt et d a k)) et d a k fun f => f.sqrt s.mode

/-- VRSQ: always RNE (R136). -/
def execVrsq (et : ElemTy) (d a : Reg) (k : BitVec 3) (s : State) : Host.Outcome State Fault Refusal :=
  if et = .f64 then s.trapOut cIllegal (wordOf (.vrsq et d a k))
  else s.vunFp (wordOf (.vrsq et d a k)) et d a k Fmt.rsq

/-- VEXP2: always RNE (R136). -/
def execVexp2 (et : ElemTy) (d a : Reg) (k : BitVec 3) (s : State) : Host.Outcome State Fault Refusal :=
  if et = .f64 then s.trapOut cIllegal (wordOf (.vexp2 et d a k))
  else s.vunFp (wordOf (.vexp2 et d a k)) et d a k Fmt.exp2

/-- VCLZ (R135). -/
def execVclz (et : ElemTy) (d a : Reg) (k : BitVec 3) (s : State) : Host.Outcome State Fault Refusal :=
  if et.isFp then s.trapOut cIllegal (wordOf (.vclz et d a k))
  else s.vun et d a k fun p => ⟨et.width - bitLen p, 0⟩

/-- Number of 1 bits among the low n. -/
def popcount : Nat → Nat → Nat
  | 0, _ => 0
  | n + 1, x => x % 2 + popcount n (x / 2)

/-- VPOPC (R135). -/
def execVpopc (et : ElemTy) (d a : Reg) (k : BitVec 3) (s : State) : Host.Outcome State Fault Refusal :=
  if et.isFp then s.trapOut cIllegal (wordOf (.vpopc et d a k))
  else s.vun et d a k fun p => ⟨popcount et.width p, 0⟩

/-! ### Reductions (R137) -/

/-- One level of the tree: an absent element passes its partner up. -/
def redLevel (op : Nat → Nat → FRes) : List (Option FRes) → List (Option FRes)
  | p :: q :: t =>
    (match p, q with
     | none, q' => q'
     | some p', none => some p'
     | some p', some q' => some ((op p'.code q'.code).add (p'.flags ||| q'.flags))) :: redLevel op t
  | [p] => [p]
  | [] => []

/-- L levels of the tree. -/
def redTree (op : Nat → Nat → FRes) : Nat → List (Option FRes) → List (Option FRes)
  | 0, l => l
  | n + 1, l => redTree op n (redLevel op l)

/-- A NaN result is delivered as the canonical NaN (R114, R129). -/
def canonical (et : ElemTy) (code : Nat) : Nat :=
  match etFmt et with
  | some f => if (f.value code).isNan then f.nanCode else code
  | none => code

/-- VRED: element 0 holds the result, every other element 0; the flags of all nodes accumulate (R137). A lone element
passes no node: a signalling NaN that is alone comes out canonical and sets no flag (DESIGN CHOICE, log entry 88). -/
def State.vred (s : State) (et : ElemTy) (d a : Reg) (k : BitVec 3) (op : Nat → Nat → FRes) (ident : Nat) :
    Host.Outcome State Fault Refusal :=
  let x := s.me
  let w := et.width
  let leaves := (List.range et.nelem).map fun i =>
    if bit (x.readK k) i then some ⟨lane (x.readV a.toNat) w i, 0⟩ else none
  let r : FRes := match (redTree op 5 leaves).head? with
    | some (some r) => r
    | some none => ⟨ident, 0⟩
    | none => ⟨ident, 0⟩
  .next (s.vdone d (vecOf w [canonical et r.code], r.flags))

/-- VRED.add: identity +0 (R137). -/
def execVredAdd (et : ElemTy) (d a : Reg) (k : BitVec 3) (s : State) : Host.Outcome State Fault Refusal :=
  s.vred et d a k (twoForm et (fun f => f.add s.mode) (· + ·)) 0

/-- VRED.min: identity +∞ or the largest integer (R137). -/
def execVredMin (et : ElemTy) (d a : Reg) (k : BitVec 3) (s : State) : Host.Outcome State Fault Refusal :=
  s.vred et d a k (twoForm et (fun f => f.minmax false) lesser) (match etFmt et with
    | some f => f.infCode
    | none => 2 ^ (et.width - 1) - 1)

/-- VRED.max: identity −∞ or the smallest integer (R137). -/
def execVredMax (et : ElemTy) (d a : Reg) (k : BitVec 3) (s : State) : Host.Outcome State Fault Refusal :=
  s.vred et d a k (twoForm et (fun f => f.minmax true) larger) (match etFmt et with
    | some f => f.signed true f.infCode
    | none => 2 ^ (et.width - 1))

/-! ### Dot products (R138, R139) -/

/-- Exact products of lane group j. -/
def dotTerms (f : Fmt) (w g j : Nat) (va vb : Vec) : List (FVal × Nat) :=
  (List.range g).map fun t => (f.value (lane va w (g * j + t))).mul (f.value (lane vb w (g * j + t)))

/-- One floating-point lane of VDOT, rounded once (R138). -/
def dotFp (mode : RMode) (f : Fmt) (w j : Nat) (vd va vb : Vec) : FRes :=
  let ps := dotTerms f w (32 / w) j va vb
  let c := fmtF32.value (lane vd 32 j)
  let sum := sumTerms mode (c :: ps.map Prod.fst)
  (fmtF32.round mode sum.1).add (ps.foldl (fun n p => n ||| p.2) sum.2)

/-- One integer lane of VDOT (R138). -/
def dotInt (w j : Nat) (vd va vb : Vec) : FRes :=
  let g := 32 / w
  intRes 32 ((List.range g).foldl (fun n t => n + slane va w (g * j + t) * slane vb w (g * j + t)) (slane vd 32 j))

/-- VDOT (R138). -/
def execVdot (et : ElemTy) (d a b : Reg) (k : BitVec 3) (s : State) : Host.Outcome State Fault Refusal :=
  let x := s.me
  let vd := x.readV d.toNat
  let va := x.readV a.toNat
  let vb := x.readV b.toNat
  match et with
  | .bf16 => .next (s.vdone d (mapLanes 32 8 (x.readK k) vd fun j => dotFp s.mode fmtBF16 16 j vd va vb))
  | .f16 => .next (s.vdone d (mapLanes 32 8 (x.readK k) vd fun j => dotFp s.mode fmtF16 16 j vd va vb))
  | .i16 => .next (s.vdone d (mapLanes 32 8 (x.readK k) vd fun j => dotInt 16 j vd va vb))
  | .i8 => .next (s.vdone d (mapLanes 32 8 (x.readK k) vd fun j => dotInt 8 j vd va vb))
  | .f32 | .f64 | .i32 | .i64 => s.trapOut cIllegal (wordOf (.vdot et d a b k))

/-- VMMA64: sixteen fused multiply-adds into vd to vd + 3; the sources are read before any write (R139). -/
def execVmma64 (d a b : Reg) (s : State) : Host.Outcome State Fault Refusal :=
  let x := s.me
  let va := x.readV a.toNat
  let vb := x.readV b.toNat
  if d.toNat % 4 ≠ 0 then s.trapOut cIllegal (wordOf (.vmma64 d a b))
  else
    let rows : List (Vec × Nat) := (List.range 4).map fun i =>
      mapLanes 64 4 0xF (x.readV (d.toNat + i)) fun j =>
        fmtF64.fma s.mode false false (lane va 64 i) (lane vb 64 j) (lane (x.readV (d.toNat + i)) 64 j)
    let y := (List.range 4).foldl (fun c i => c.writeV (d.toNat + i) (rows.getD i (0, 0)).1) x
    .next (s.setMe ({ y with vflags := x.vflags ||| w64 ((rows.map Prod.snd).foldl (· ||| ·) 0) }).next)

/-! ### Conversion, pack, unpack (R140–R142) -/

def etNum : ElemTy → NumFmt
  | .f32 => .fp fmtF32 | .bf16 => .fp fmtBF16 | .f16 => .fp fmtF16 | .f64 => .fp fmtF64
  | .i32 => .int 32 true | .i16 => .int 16 true | .i8 => .int 8 true | .i64 => .int 64 true

/-- VCVT between two formats; destination elements past the converted ones become 0 (R140). -/
def State.vcvt (s : State) (src dst : NumFmt) (d a : Reg) (k : BitVec 3) : Host.Outcome State Fault Refusal :=
  let x := s.me
  let n := if src.count < dst.count then src.count else dst.count
  let m := x.readK k
  let rs := (List.range dst.count).map fun i =>
    if i < n then
      if bit m i then dst.round s.mode (src.value (lane (x.readV a.toNat) src.width i))
      else ⟨lane (x.readV d.toNat) dst.width i, 0⟩
    else ⟨0, 0⟩
  .next (s.vdone d (vecOf dst.width (rs.map FRes.code), orFlags rs))

/-- VCVT to a format (R48, R140). -/
def execVcvtTo (et : ElemTy) (d a : Reg) (code : BitVec 4) (k : BitVec 3) (s : State) :
    Host.Outcome State Fault Refusal :=
  if code.toNat ≥ 13 ∨ code.toNat = et.code.toNat then s.trapOut cIllegal (wordOf (.vcvtTo et d a code k))
  else s.vcvt (etNum et) (cvtFmt code.toNat) d a k

/-- VCVT from a format (R48, R140). -/
def execVcvtFrom (et : ElemTy) (d a : Reg) (code : BitVec 4) (k : BitVec 3) (s : State) :
    Host.Outcome State Fault Refusal :=
  if code.toNat ≥ 13 ∨ code.toNat < 8 then s.trapOut cIllegal (wordOf (.vcvtFrom et d a code k))
  else s.vcvt (cvtFmt code.toNat) (etNum et) d a k

/-- sat(x, lo, hi) of R9. -/
def satInt (x lo hi : Int) : Int := if x < lo then lo else if x > hi then hi else x

/-- VPACK (R141). -/
def execVpack (et : ElemTy) (d a b : Reg) (k : BitVec 3) (s : State) : Host.Outcome State Fault Refusal :=
  let x := s.me
  let w := et.width
  let n := et.nelem
  if et.isFp || et == .i8 then s.trapOut cIllegal (wordOf (.vpack et d a b k))
  else .next (s.vdone d (mapLanes (w / 2) (2 * n) (x.readK k) (x.readV d.toNat) fun i =>
    let v := if i < n then slane (x.readV a.toNat) w i else slane (x.readV b.toNat) w (i - n)
    intRes (w / 2) (satInt v (-(2 : Int) ^ (w / 2 - 1)) ((2 : Int) ^ (w / 2 - 1) - 1))))

/-- VUNPK (R142). -/
def execVunpk (et : ElemTy) (d a : Reg) (hi : Bool) (k : BitVec 3) (s : State) : Host.Outcome State Fault Refusal :=
  let x := s.me
  let w := et.width
  let n := et.nelem
  if et.isFp || et == .i64 then s.trapOut cIllegal (wordOf (.vunpk et d a hi k))
  else .next (s.vdone d (mapLanes (2 * w) (n / 2) (x.readK k) (x.readV d.toNat) fun i =>
    intRes (2 * w) (slane (x.readV a.toNat) w (i + if hi then n / 2 else 0))))

/-! ### Moves (R129, R134, R143–R145) -/

/-- VPERM: the high bits of an index are ignored (R143). -/
def execVperm (et : ElemTy) (d a b : Reg) (k : BitVec 3) (s : State) : Host.Outcome State Fault Refusal :=
  let x := s.me
  let w := et.width
  .next (s.vdone d (mapLanes w et.nelem (x.readK k) (x.readV d.toNat) fun i =>
    ⟨lane (x.readV a.toNat) w (lane (x.readV b.toNat) w i % et.nelem), 0⟩))

/-- VBCAST (R144). -/
def execVbcast (et : ElemTy) (d a : Reg) (k : BitVec 3) (s : State) : Host.Outcome State Fault Refusal :=
  let x := s.me
  .next (s.vdone d (mapLanes et.width et.nelem (x.readK k) (x.readV d.toNat) fun _ => ⟨(s.x a).toNat, 0⟩))

/-- VINS: one element is written (R145). -/
def execVins (et : ElemTy) (d a : Reg) (n : BitVec 5) (s : State) : Host.Outcome State Fault Refusal :=
  let x := s.me
  if n.toNat ≥ et.nelem then s.trapOut cIllegal (wordOf (.vins et d a n))
  else .next (s.vdone d (mapLanes et.width et.nelem (2 ^ n.toNat) (x.readV d.toNat) fun _ => ⟨(s.x a).toNat, 0⟩))

/-- VEXT: sign-extended for the integer types, zero-extended for the floating-point ones (R145). -/
def execVext (et : ElemTy) (d a : Reg) (n : BitVec 5) (s : State) : Host.Outcome State Fault Refusal :=
  let v := s.me.readV a.toNat
  if n.toNat ≥ et.nelem then s.trapOut cIllegal (wordOf (.vext et d a n))
  else .next (s.putX d (if et.isFp then w64 (lane v et.width n.toNat)
    else BitVec.ofInt 64 (slane v et.width n.toNat)))

/-- VSEL: the mask selects, it is no predicate (R134). -/
def execVsel (et : ElemTy) (d a b : Reg) (k : BitVec 3) (s : State) : Host.Outcome State Fault Refusal :=
  let x := s.me
  let w := et.width
  if k = 0#3 then s.trapOut cIllegal (wordOf (.vsel et d a b k))
  else .next (s.vdone d (mapLanes w et.nelem 0xFFFF_FFFF (x.readV d.toNat) fun i =>
    ⟨if bit (x.readK k) i then lane (x.readV a.toNat) w i else lane (x.readV b.toNat) w i, 0⟩))

/-! ### Masks (R151) -/

/-- A mask instruction completes. -/
def State.putK (s : State) (kd : BitVec 3) (v : Nat) : Host.Outcome State Fault Refusal :=
  .next (s.setMe (s.me.writeK kd v).next)

/-- KAND (R151). -/
def execKand (kd ka kb : BitVec 3) (s : State) : Host.Outcome State Fault Refusal :=
  s.putK kd (s.me.readK ka &&& s.me.readK kb)

/-- KOR (R151). -/
def execKor (kd ka kb : BitVec 3) (s : State) : Host.Outcome State Fault Refusal :=
  s.putK kd (s.me.readK ka ||| s.me.readK kb)

/-- KXOR (R151). -/
def execKxor (kd ka kb : BitVec 3) (s : State) : Host.Outcome State Fault Refusal :=
  s.putK kd (s.me.readK ka ^^^ s.me.readK kb)

/-- KNOT over 32 bits (R151). -/
def execKnot (kd ka : BitVec 3) (s : State) : Host.Outcome State Fault Refusal :=
  s.putK kd (s.me.readK ka ^^^ 0xFFFF_FFFF)

/-- KMOV kd, ka (R151). -/
def execKmovKK (kd ka : BitVec 3) (s : State) : Host.Outcome State Fault Refusal :=
  s.putK kd (s.me.readK ka)

/-- KMOV kd, xa: the low 32 bits (R151). -/
def execKmovKX (kd : BitVec 3) (a : Reg) (s : State) : Host.Outcome State Fault Refusal :=
  s.putK kd ((s.x a).toNat % 2 ^ 32)

/-- KMOV xd, ka: zero-extended (R151). -/
def execKmovXK (d : Reg) (ka : BitVec 3) (s : State) : Host.Outcome State Fault Refusal :=
  .next (s.putX d (w64 (s.me.readK ka)))

end Sys2Proof.Machine
end

