-- ==== Sys2Proof/Machine/Matrix.lean ====
section
/-! DEFINITION. The matrix engine's arithmetic: images and scales (R120–R123), tiles (R161, R162), pattern masks (R163),
passes and the accumulator window (R164, R165). -/

namespace Sys2Proof.Machine

/-! ### Formats of the macros (R120–R122, R154) -/

/-- Format tags a matrix operand may have (R156). -/
def macroTag (t : Nat) : Bool := [0x16, 0x18, 0x1A, 0x1B, 0x1C, 0x1D].contains t

/-- Code width in bits (R161). -/
def tagBits (t : Nat) : Nat := if t = 0x1D then 4 else if t = 0x1A ∨ t = 0x1B then 6 else 8

/-- A format whose exact width is above 8 (R122, R154). -/
def tagWide (t : Nat) : Bool := t == 0x18 || t == 0x1B || t == 0x1C

/-- Magnitude images of the sign-magnitude members, by type (R121, R122). -/
def memberMags (ty : Nat) : List Nat :=
  match ty with
  | 1 => [0, 1, 2, 3, 4, 6, 8, 12]
  | 2 => [0, 1, 2, 4, 8, 16, 32, 64]
  | _ => [0, 1, 2, 3, 4, 6, 8, 16]

/-- Image of a floating-point code with `m` mantissa and `e` exponent bits (R122). -/
def fpImage (m e c : Nat) : Int :=
  let frac := c % 2 ^ m
  let ex := bits c (m + e - 1) m
  let i : Nat := if ex = 0 then frac else (2 ^ m + frac) * 2 ^ (ex - 1)
  if bit c (m + e) then -(i : Int) else i

/-- The image of a code, and whether it is the E4M3 NaN (R121, R122). -/
def image (tag ty c : Nat) : Int × Bool :=
  match tag with
  | 0x16 => (sextNat c 8, false)
  | 0x1C => ((c % 256 : Nat), false)
  | 0x18 => if c % 128 = 127 then (0, true) else (fpImage 3 4 c, false)
  | 0x1A => (fpImage 3 2 c, false)
  | 0x1B => (fpImage 2 3 c, false)
  | _ =>
    if ty = 0 then (sextNat c 4, false)
    else
      let i : Nat := (memberMags ty).getD (c % 8) 0
      (if bit c 3 then -(i : Int) else i, false)

/-- The fixed fraction f of a format or member (R122). -/
def tagFrac (tag ty : Nat) : Nat :=
  match tag with
  | 0x18 => 9 | 0x1A => 3 | 0x1B => 4
  | 0x1D => if ty = 1 then 1 else 0
  | _ => 0

/-- Type and exponent of a scale byte (R120). -/
def scaleTy (b : Nat) : Nat := bits b 7 6
def scaleExp (b : Nat) : Int := (bits b 5 0 : Nat)

/-- A scale byte with a type outside the 4-bit family: a format fault (R120). -/
def scaleFault (tag b : Nat) : Bool := tag != 0x1D && scaleTy b != 0

/-! ### Tiles (R161, R162) -/

/-- `n` codes of width `w` from bytes. -/
def codesOf (w n : Nat) (bs : List Byte) : List Nat := (List.range n).map (unpackCode w bs)

/-- Blocks of a row of `l` elements (R161). -/
def rowBlocks (l : Nat) : Nat := (l + 63) / 64

/-- Runs MXLOADA reads: each row, then its scale bytes when they come from memory (R161). -/
def loadaRuns (j : Job) (a sc : Nat) (rows l bits : Nat) (mem : Bool) : List (Int × Nat) :=
  let rb := l * bits / 8
  (List.range rows).flatMap fun r =>
    let at' : Int := match j.loop with
      | none => (a + r * rb : Nat)
      | some _ => (a : Int) + j.off r
    (at', rb) :: (if mem then [(((sc + r * rowBlocks l : Nat) : Int), rowBlocks l)] else [])

/-- The row buffer MXLOADA stores (R167). -/
def loadedA (fmt rows l sca : Nat) (mem : Bool) (bs : List Byte) : ABuf :=
  let w := tagBits fmt
  let rb := l * w / 8
  let nb := rowBlocks l
  let step := rb + if mem then nb else 0
  { valid := true, fmt, len := l, rows
    codes := (List.range rows).map fun r => codesOf w l (slice bs (r * step) rb)
    scales := (List.range rows).map fun r =>
      if mem then (slice bs (r * step + rb) nb).map BitVec.toNat else List.replicate nb (sca % 256) }

/-- Columns of a macro by its class (R154). -/
def columns (wide : Bool) : Nat := if wide then 10 else 32

/-- Runs MXLOADB reads: each column, then the scale bytes (R162); a loop record of fewer tuples starts again (log entry 91). -/
def loadbRuns (j : Job) (a sc : Nat) (n cb : Nat) (mem : Bool) : List (Int × Nat) :=
  ((List.range n).map fun c =>
    let at' : Int := match j.loop with
      | none => (a + c * cb : Nat)
      | some _ => (a : Int) + j.off c
    (at', cb)) ++ (if mem then [((sc : Int), n)] else [])

/-- The macro MXLOADB stores (R168). -/
def loadedB (fmt scb : Nat) (mem : Bool) (bs : List Byte) : Macro :=
  let w := tagBits fmt
  let cb := 8 * w
  let n := columns (tagWide fmt)
  { valid := true, fmt, wide := tagWide fmt
    codes := (List.range n).map fun c => codesOf w 64 (slice bs (c * cb) cb)
    scales := if mem then (slice bs (n * cb) n).map BitVec.toNat else List.replicate n (scb % 256) }

/-! ### Pattern masks (R163) -/

/-- Kept elements per group of 12 by MXFMTB.n (R156). -/
def keptN (n : Nat) : Nat := if n = 0 then 2 else if n = 1 then 4 else 8

/-- Positions of the bits set among [11:0]. -/
def setBits (h : Nat) : List Nat := (List.range 12).filter fun i => bit h i

/-- The halfword is valid (R163). -/
def maskOk (n h : Nat) : Bool := bits h 15 12 == 0 && (setBits h).length == n

/-- The halfwords of a mask. -/
def halfwords (bs : List Byte) : List Nat := (List.range (bs.length / 2)).map fun i => leNat (slice bs (2 * i) 2)

/-- Element of a segment that physical row `k` of slice `s` meets (R163, R164). -/
def gatherAt (sparse : Bool) (n : Nat) (hs : List Nat) (m s k : Nat) : Nat :=
  if sparse then
    let h := hs.getD ((4 * m + s) * (64 / n) + k / n) 0
    12 * (k / n) + (setBits h).getD (k % n) 0
  else k

/-! ### Passes (R164, R165) -/

/-- Scale bytes of the blocks that elements lo to lo + S − 1 of a row touch. -/
def segScales (sc : List Nat) (lo s : Nat) : List Nat := (sc.drop (lo / 64)).take ((lo + s - 1) / 64 + 1 - lo / 64)

/-- The blocks of a segment hold one scale byte (R164). -/
def segEqual (sc : List Nat) (lo s : Nat) : Bool :=
  match segScales sc lo s with
  | [] => true
  | b :: t => t.all (· == b)

/-- One pass: its exact integer, its exponent, and the flags MXFF and MXNV (R164). -/
def passOf (fa sa : Nat) (seg : List Nat) (fb sb : Nat) (col : List Nat) (g : Nat → Nat) : Int × Int × Nat :=
  let ks := List.range 64
  let ia := ks.map fun k => image fa (scaleTy sa) (seg.getD (g k) 0)
  let ib := ks.map fun k => image fb (scaleTy sb) (col.getD k 0)
  let nan := if ia.any Prod.snd || ib.any Prod.snd then 0x40 else 0
  if scaleFault fa sa || scaleFault fb sb then (0, 0, 0x80 + nan)
  else
    let p := (ia.zip ib).foldl (fun n q => n + q.1.1 * q.2.1) 0
    (p, scaleExp sa + scaleExp sb - 64 - tagFrac fa (scaleTy sa) - tagFrac fb (scaleTy sb), nan)

/-- A pass enters an accumulator: the new entry and the flags MXOV and MXINEX (R165). -/
def enterPass (a p s w : Int) : Int × Nat :=
  let r := quantum .rne (decide (p < 0)) p.natAbs (s - w) 0 false
  let t : Int := if p < 0 then -(r.1 : Int) else r.1
  let v := a + t
  let top : Int := (2 : Int) ^ 95
  let u := satInt v (-top) (top - 1)
  (u, (if r.2 then 0x10 else 0) + (if u ≠ v then 0x20 else 0))

/-- Macros a run uses (R169). -/
def Core.macros (c : Core) (two : Bool) : List Macro := if two then [c.mb0, c.mb1] else [c.mb0]

/-- All passes of a run entered into a bank, in the order of R169; the flags they raise. -/
def runPasses (mbs : List Macro) (ab : ABuf) (s : Nat) (sparse : Bool) (n : Nat) (hs : List Nat) (b : Bank) : Bank × Nat :=
  (List.range ab.rows).foldl (fun acc r =>
    (mbs.zipIdx).foldl (fun acc mm =>
      let mb := mm.1
      let m := mm.2
      let lo := m * s
      let seg := ((ab.codes.getD r []).drop lo).take s
      let sa := (segScales (ab.scales.getD r []) lo s).headD 0
      (List.range (columns mb.wide)).foldl (fun acc c =>
        let p := passOf ab.fmt sa seg mb.fmt (mb.scales.getD c 0) (mb.codes.getD c []) (gatherAt sparse n hs m (c / 8))
        let key := 32 * r + c
        let e := enterPass (acc.1.acc.at key 0) p.1 p.2.1 acc.1.base
        ({ acc.1 with acc := acc.1.acc.put key e.1 }, acc.2 ||| p.2.2 ||| e.2)) acc) acc) (b, 0)

/-! ### MXOUT (R170) -/

def outSize : OutTy → Nat
  | .fp32 => 4 | .bf16 => 2 | .int32 => 4

/-- One element of MXOUT: its code and the MXFLAGS bits it sets (R157, R170). -/
def outElem (ty : OutTy) (a w : Int) : Nat × Nat :=
  let v : FVal := if a = 0 then .fin false 0 0 else .fin (decide (a < 0)) a.natAbs w
  match ty with
  | .fp32 => let r := fmtF32.round .rne v; (r.code, r.flags &&& 7)
  | .bf16 => let r := fmtBF16.round .rne v; (r.code, r.flags &&& 7)
  | .int32 =>
    let r := roundInt (-(2 : Int) ^ 31) ((2 : Int) ^ 31 - 1) .rne v
    (wrapInt r.1 32, if r.2 &&& fNV ≠ 0 then 8 else r.2 &&& fNX)

/-- Row `r` of a bank as bytes, and the flags of each element. -/
def outRow (b : Bank) (ty : OutTy) (r : Nat) : List (Nat × Nat) :=
  (List.range 32).map fun c => outElem ty (b.acc.at (32 * r + c) 0) b.base

def Core.bank (c : Core) (b : Bool) : Bank := if b then c.ac1 else c.ac0
def Core.setBank (c : Core) (b : Bool) (x : Bank) : Core := if b then { c with ac1 := x } else { c with ac0 := x }

/-- The engine sets sticky flags (R157). -/
def Core.addMxFlags (c : Core) (now f : Nat) : Core :=
  { c with
    mxflags := c.mxflags ||| w64 f
    mxSet := (now, if c.mxSet.1 = now then c.mxSet.2 ||| w64 f else w64 f) }

end Sys2Proof.Machine
end

