-- ==== Sys2Proof/Machine/Commands.lean ====
section
/-! DEFINITION. Tile commands, each performed for the queue in focus one access at a time (R166–R177), rejection (R178), the
return of an engine's read and the end of a command (R108). -/

namespace Sys2Proof.Machine

/-! ### Queue commands (R175–R177) -/

/-- A command with no access: its effect falls at its start. -/
def State.instant (s : State) (i : Instr) (f : Core → Core) : Host.Outcome State Fault Refusal :=
  s.cmdStep i (fun h => let t := s.startJob h i .blank none true; t.setMyCore (f t.myCore)) fun _ => s

/-- QNOP (R175). -/
def execQnop (s : State) : Host.Outcome State Fault Refusal := s.instant .qnop id

/-- Queues a QFENCE of queue `q` joins: its own adds no condition (R175). -/
def joined (q : EngineQ) (mask : BitVec 3) : List EngineQ :=
  [EngineQ.mxq, .cpq0, .cpq1].filter fun y => mask.getLsbD (queueNo y) && y != q

/-- QFENCE: it waits for every earlier command of the queues joined; a poisoned one faults it (R109, R175, R179). -/
def execQfence (mask : BitVec 3) (s : State) : Host.Outcome State Fault Refusal :=
  s.cmdStep (.qfence mask) (fun h => s.startJob h (.qfence mask) .blank none false) fun j =>
    let ys := joined s.focus.queue mask
    if ys.any s.myCore.isPoisoned then s.cmdFault j.cmd.word 12 0
    else if ys.any fun y => s.myCore.before y j.cmd.stamp then s
    else s.jobDone j

/-- Send the one operation of a QSIGNAL (R176); its completion is a SY_REPLY. -/
def State.signal (s : State) (i : Instr) (a : Acc) (addr align n : Nat) (target : Loc → Option Target) :
    Host.Outcome State Fault Refusal :=
  s.cmdStep i
    (fun h => if addr % align ≠ 0 then s.cmdFault h.word 7 addr else s.startJob h i .blank none false)
    fun j =>
      if j.cursor ≠ 0 then s
      else if !s.myTurn then s
      else match s.engLoc j a true true n addr with
        | .wait t => t
        | .fault t r ad => t.cmdFault j.cmd.word r ad
        | .ok t l route => match target l with
          | none => t.cmdFault j.cmd.word 5 addr
          | some tg =>
            let u := t.took.post { Req.blank with
              owner := t.jobOwner j, va := addr, target := tg, dest := .engine, route, tracked := l.tracked }
            u.setMyJob { j with cursor := 1 }

/-- QSIGNAL add (R176). -/
def execQsignalAdd (addr : VAddr) (v : BitVec 28) (s : State) : Host.Outcome State Fault Refusal :=
  s.signal (.qsignalAdd addr v) accAmo addr.toNat 8 8 fun l =>
    if l.place.space = .sync then some (.sync l.place (.amo .amoAdd true (v.setWidth 64) 0))
    else some (.mem .amoAdd l.place 8 (natLE 8 v.toNat) 0)

/-- QSIGNAL DECZ: the record must lie in a core scratchpad (R176, R304). -/
def execQsignalDecz (addr : VAddr) (s : State) : Host.Outcome State Fault Refusal :=
  s.signal (.qsignalDecz addr) accDecz addr.toNat 16 16 fun l =>
    if l.place.space = .scratch then some (.mem .decz l.place 16 [] 0) else none

/-- QSIGNAL BARARR (R176, R298). -/
def execQsignalBararr (addr : VAddr) (s : State) : Host.Outcome State Fault Refusal :=
  s.signal (.qsignalBararr addr) accSync addr.toNat 32 32 fun l => some (.sync l.place .barArr)

/-- The word meets the condition of a QWAIT (R177). -/
def waitMet (eq : Bool) (w v : Nat) : Bool := if eq then w == v else decide (v ≤ w)

/-- QWAIT: it reads the word until the condition holds (R177). -/
def execQwait (eq : Bool) (addr : VAddr) (v : BitVec 32) (s : State) : Host.Outcome State Fault Refusal :=
  s.cmdStep (.qwait eq addr v)
    (fun h => if addr.toNat % 8 ≠ 0 then s.cmdFault h.word 7 addr.toNat
      else s.startJob h (.qwait eq addr v) .blank none false)
    fun j =>
      if j.polled.isSome || s.reading j then s
      else if j.buf.length = 8 then
        if waitMet eq (leNat j.buf) v.toNat then s.jobDone j
        else s.setMyJob { j with buf := [], polled := some s.now }
      else s.engRead j addr.toNat 8

/-- The same state, acting for a queue. -/
def State.aim (s : State) (core : Nat) (q : EngineQ) : State := { s with focus := { s.focus with core, queue := q } }

/-- QWAIT_POLL: the word is read again 16 cycles after a read that did not satisfy the condition (R177). -/
def execQwaitPoll (core : Nat) (q : EngineQ) (s : State) : Host.Outcome State Fault Refusal :=
  let t := s.aim core q
  match t.myJob with
  | none => .next s
  | some j => match j.polled, j.instr with
    | some at', .qwait _ addr _ =>
      if t.now < at' + 16 then .next s
      else
        let j' := { j with polled := none }
        .next ((t.setMyJob j').engRead j' addr.toNat 8)
    | _, _ => .next s

/-! ### State commands (R166) -/

/-- MXZERO (R166). -/
def execMxzero (bank : Bool) (w : BitVec 8) (s : State) : Host.Outcome State Fault Refusal :=
  s.instant (.mxzero bank w) fun c => c.setBank bank ⟨[], w.toInt⟩

/-- MXCFG (R166). -/
def execMxcfg (op1 op2 : BitVec 48) (s : State) : Host.Outcome State Fault Refusal :=
  s.instant (.mxcfg op1 op2) fun c => { c with
    latch := ⟨bits op1.toNat 23 0, bits op1.toNat 47 24, bits op2.toNat 7 0, bits op2.toNat 31 24⟩ }

/-- MXSWAP (R166). -/
def execMxswap (s : State) : Host.Outcome State Fault Refusal :=
  s.instant .mxswap fun c => { c with mb0 := c.mb1, mb1 := c.mb0 }

/-! ### Loads (R167, R168) -/

/-- MXLOADA (R159, R161, R167): the buffer is invalid from the start until every row is read. -/
def execMxloada (sel : BitVec 2) (loop : BitVec 8) (a sc : VAddr) (s : State) : Host.Outcome State Fault Refusal :=
  let i : Instr := .mxloada sel loop a sc
  let mem := sel.getLsbD 1
  let part : Latch → Nat × Nat × Nat := fun k => (bits k.fmta 7 0, bits k.fmta 12 8, bits k.fmta 20 16)
  s.cmdStep i
    (fun h =>
      let k := s.sampled sel
      let (fmt, klen, rows) := part k
      if !macroTag fmt || klen == 0 || decide (klen > 24) || rows == 0 || decide (rows > 16) then s.cmdFault h.word 3 0
      else s.startLoop h i k loop fmt fun t => t.setMyCore { t.myCore with abuf := .blank })
    fun j =>
      let (fmt, klen, rows) := part j.cfg
      let l := 32 * klen
      s.readRuns j (loadaRuns j a.toNat sc.toNat rows l (tagBits fmt) mem) fun t bs =>
        (t.setMyCore { t.myCore with abuf := loadedA fmt rows l j.cfg.sca mem bs }).jobDone j

/-- The core with macro `m` replaced. -/
def Core.setMacro (c : Core) (m : Bool) (x : Macro) : Core := if m then { c with mb1 := x } else { c with mb0 := x }

/-- MXLOADB (R159, R162, R168). -/
def execMxloadb (m : Bool) (sel : BitVec 2) (loop : BitVec 8) (a sc : VAddr) (s : State) :
    Host.Outcome State Fault Refusal :=
  let i : Instr := .mxloadb m sel loop a sc
  let mem := sel.getLsbD 1
  s.cmdStep i
    (fun h =>
      let k := s.sampled sel
      let fmt := bits k.fmtb 7 0
      if !macroTag fmt then s.cmdFault h.word 3 0
      else s.startLoop h i k loop fmt fun t => t.setMyCore (t.myCore.setMacro m .blank))
    fun j =>
      let fmt := bits j.cfg.fmtb 7 0
      s.readRuns j (loadbRuns j a.toNat sc.toNat (columns (tagWide fmt)) (8 * tagBits fmt) mem) fun t bs =>
        (t.setMyCore (t.myCore.setMacro m (loadedB fmt j.cfg.scb mem bs))).jobDone j

/-! ### MXRUN (R163, R164, R169) -/

/-- The first check of a run that fails, as its reason (R169). -/
def Core.runBad (c : Core) (two sparse : Bool) (len : Nat) : Option Nat :=
  let mbs := c.macros two
  let wide := (mbs.headD .blank).wide
  if !(mbs.all Macro.valid) || (two && c.mb0.wide != c.mb1.wide) then some 8
  else if sparse && wide then some 8
  else if !c.abuf.valid || c.abuf.len != len then some 9
  else none

/-- Length of a segment (R164). -/
def segLen (sparse : Bool) (n : Nat) : Nat := if sparse then 768 / n else 64

/-- The checks after the mask is read, then every pass (R169). -/
def State.runAll (s : State) (j : Job) (bank two sparse : Bool) (n : Nat) (bs : List Byte) : State :=
  let c := s.myCore
  let hs := halfwords bs
  let sl := segLen sparse n
  let mbs := c.macros two
  if sparse && !(hs.all (maskOk n)) then s.cmdFault j.cmd.word 10 0
  else if !((List.range c.abuf.rows).all fun r =>
      (List.range mbs.length).all fun m => segEqual (c.abuf.scales.getD r []) (m * sl) sl) then
    s.cmdFault j.cmd.word 11 0
  else
    let q := runPasses mbs c.abuf sl sparse n hs (c.bank bank)
    (s.setMyCore ((c.setBank bank q.1).addMxFlags s.now q.2)).jobDone j

/-- MXRUN (R169). -/
def execMxrun (bank two sparse : Bool) (sel : BitVec 2) (pat : VAddr) (s : State) : Host.Outcome State Fault Refusal :=
  let i : Instr := .mxrun bank two sparse sel pat
  s.cmdStep i
    (fun h =>
      let k := s.sampled sel
      let nf := bits k.fmtb 9 8
      if sparse && nf == 3 then s.cmdFault h.word 3 0
      else match s.myCore.runBad two sparse ((if two then 2 else 1) * segLen sparse (keptN nf)) with
        | some r => s.cmdFault h.word r 0
        | none => s.startJob h i k none false)
    fun j =>
      let n := keptN (bits j.cfg.fmtb 9 8)
      let len := if sparse then (if two then 2 else 1) * 4 * (64 / n) * 2 else 0
      s.readRuns j (if sparse then [((pat.toNat : Int), len)] else []) fun t bs => t.runAll j bank two sparse n bs

/-! ### MXOUT (R170) -/

/-- Address of row `r`. A sequence of fewer than 16 tuples starts again (R170, DESIGN CHOICE, log entry 91). -/
def outAddr (j : Job) (a e r : Nat) : Int :=
  match j.loop with
  | none => (a + r * (32 * e) : Nat)
  | some _ => (a : Int) + j.off r

/-- First misaligned row address (R170). -/
def outMisaligned (j : Job) (a e : Nat) : Option Nat :=
  ((List.range 16).map fun r => outAddr j a e r).findSome? fun (x : Int) =>
    if x % (e : Int) ≠ 0 then some (wrapInt x 48) else none

def outTag : OutTy → Nat
  | .fp32 => 0x10 | .bf16 => 0x11 | .int32 => 0x14

/-- The next unit of the row in hand: whole elements, with their flags (R157, R170). -/
def State.outUnit (s : State) (j : Job) (bank : Bool) (ty : OutTy) (a : Nat) : State :=
  let e := outSize ty
  let row := outRow (s.myCore.bank bank) ty j.cursor
  let bs := row.flatMap fun x => natLE e x.1
  s.engWrite j (outAddr j a e j.cursor + j.pos) (bs.drop j.pos) fun n t =>
    let fl := ((row.drop (j.pos / e)).take (n / e)).foldl (fun m x => m ||| x.2) 0
    let j' := if j.pos + n ≥ 32 * e then { j with cursor := j.cursor + 1, pos := 0 } else { j with pos := j.pos + n }
    (t.setMyCore (t.myCore.addMxFlags t.now fl)).setMyJob j'

/-- MXOUT (R170): every row address is checked before the first write. -/
def execMxout (bank : Bool) (ty : OutTy) (loop : BitVec 8) (a : VAddr) (s : State) : Host.Outcome State Fault Refusal :=
  let i : Instr := .mxout bank ty loop a
  s.cmdStep i (fun h => s.startLoop h i .blank loop (outTag ty) id) fun j =>
    if j.cursor ≥ 16 then s.jobDone j
    else match (if j.cursor = 0 ∧ j.pos = 0 then outMisaligned j a.toNat (outSize ty) else none) with
      | some addr => s.cmdFault j.cmd.word 7 addr
      | none => s.outUnit j bank ty a.toNat

/-! ### Copies (R171–R174) -/

/-- Move the run in hand: write what has been read, else read on; `next` is the job once the run is whole. -/
def State.moveRun (s : State) (j : Job) (src dst : Int) (n : Nat) (next : Job) : State :=
  if !j.buf.isEmpty then
    s.engWrite j (dst + j.pos) j.buf fun k t => t.setMyJob { j with buf := j.buf.drop k, pos := j.pos + k }
  else if j.pos ≥ n then s.setMyJob next
  else if s.reading j then s
  else s.engRead j (src + j.pos) (n - j.pos)

/-- CPY (R172). -/
def execCpy (loop : BitVec 8) (src dst : VAddr) (count : BitVec 48) (s : State) : Host.Outcome State Fault Refusal :=
  let i : Instr := .cpy loop src dst count
  let n := count.toNat
  s.cmdStep i (fun h => s.startLoop h i .blank loop 0 id) fun j =>
    if j.cursor ≥ j.tuples then s.jobDone j
    else s.moveRun j ((src.toNat : Int) + j.off j.cursor) ((dst.toNat + j.cursor * n : Nat) : Int) n
      { j with cursor := j.cursor + 1, pos := 0 }

/-- Element sizes of an index list (R173). -/
def elemBytes (z : Nat) : Nat := match z with
  | 0 => 1 | 1 => 2 | 2 => 4 | 3 => 8 | 4 => 32 | _ => 64

/-- The header of an index list, none when it is invalid; its reserved bits are ignored (R6, R173). -/
def listHeader (h : Nat) : Option (Nat × Nat) :=
  let n := bits h 31 0
  let z := bits h 34 32
  if n = 0 ∨ n > 65536 ∨ z > 5 then none else some (n, elemBytes z)

/-- CPYG and CPYS: the header, then for each element its index and its bytes (R173). -/
def State.indexedCopy (s : State) (i : Instr) (src dst idx : Nat) (gather : Bool) : Host.Outcome State Fault Refusal :=
  s.cmdStep i
    (fun h => if idx % 8 ≠ 0 then s.cmdFault h.word 7 idx else s.startJob h i .blank none false)
    fun j => match j.hdr with
      | none =>
        if j.buf.length = 8 then
          match listHeader (leNat j.buf) with
          | none => s.cmdFault j.cmd.word 3 0
          | some hd => s.setMyJob { j with hdr := some hd, buf := [] }
        else if s.reading j then s
        else s.engRead j idx 8
      | some (n, z) =>
        if j.cursor ≥ n then s.jobDone j
        else match j.idx with
          | none =>
            if j.buf.length = 4 then s.setMyJob { j with idx := some (sextNat (leNat j.buf) 32), buf := [] }
            else if s.reading j then s
            else s.engRead j ((idx + 8 + 4 * j.cursor : Nat) : Int) 4
          | some x =>
            let far := x * (z : Int)
            let near : Int := ((j.cursor * z : Nat) : Int)
            s.moveRun j ((src : Int) + if gather then far else near) ((dst : Int) + if gather then near else far) z
              { j with cursor := j.cursor + 1, pos := 0, idx := none }

/-- CPYG (R173). -/
def execCpyg (src dst idx : VAddr) (s : State) : Host.Outcome State Fault Refusal :=
  s.indexedCopy (.cpyg src dst idx) src.toNat dst.toNat idx.toNat true

/-- CPYS (R173). -/
def execCpys (src dst idx : VAddr) (s : State) : Host.Outcome State Fault Refusal :=
  s.indexedCopy (.cpys src dst idx) src.toNat dst.toNat idx.toNat false

/-- Bytes `at'` to `at' + n − 1` of a run of a repeating pattern (R174). -/
def patternBytes (pat : BitVec 32) (at' n : Nat) : List Byte :=
  (List.range n).map fun i => BitVec.ofNat 8 (pat.toNat >>> (8 * ((at' + i) % 4)))

/-- CPYFILL (R174). -/
def execCpyfill (loop : BitVec 8) (dst : VAddr) (count : BitVec 48) (pat : BitVec 32) (s : State) :
    Host.Outcome State Fault Refusal :=
  let i : Instr := .cpyfill loop dst count pat
  let n := count.toNat
  s.cmdStep i (fun h => s.startLoop h i .blank loop 0 id) fun j =>
    if j.cursor ≥ j.tuples then s.jobDone j
    else if j.pos ≥ n then s.setMyJob { j with cursor := j.cursor + 1, pos := 0 }
    else
      let len := if n - j.pos < 32 then n - j.pos else 32
      s.engWrite j ((dst.toNat : Int) + j.off j.cursor + j.pos) (patternBytes pat j.pos len) fun k t =>
        t.setMyJob { j with pos := j.pos + k }

/-! ### Ends -/

/-- COMMAND_PERFORMED: no access is left outstanding, and the command leaves its queue and count (R75, R108). -/
def execCommandPerformed (core : Nat) (q : EngineQ) (s : State) : Host.Outcome State Fault Refusal :=
  let t := s.aim core q
  match t.myJob with
  | none => .next s
  | some j =>
    if !j.done || t.accessing j then .next s
    else
      let c := t.myCore
      .next (s.setCore core { c.leaveCount q 1 with jobs := c.jobs.cut (queueNo q) })

/-- A request of a command that is no longer the one in hand: it has faulted (R179). -/
def Core.lostReq (c : Core) (core : Nat) (q : EngineQ) (r : Req) : Bool :=
  match r.owner with
  | .engine n p stamp => n == core && p == q && (match c.job q with
    | some j => j.cmd.stamp != stamp
    | none => true)
  | .ctx _ _ _ | .stream _ _ _ | .host _ => false

/-- ENGINE_READ_RETURN: the data of a command's read is at hand; an uncorrectable error faults the command (R108, R178). The
data of a read of a command that has faulted is discarded (R179). -/
def execEngineReadReturn (core : Nat) (q : EngineQ) (poisoned : Bool) (s : State) :
    Host.Outcome State Fault Refusal :=
  let t := s.aim core q
  match t.takeOrphan core ((t.core core).lostReq core q) with
  | some u => .next u
  | none =>
  match t.myJob with
  | none => .next s
  | some j =>
    match t.reqs.find? fun r => r.owner == t.jobOwner j && (match r.target with
      | .mem .load _ _ _ _ => true
      | _ => false) with
    | none => .next s
    | some r => match t.takeReply core r with
      | none => .next s
      | some (rep, u) =>
        let v := u.dropReq r.id
        if poisoned || rep.poisoned then .next (v.cmdFault j.cmd.word 6 r.va)
        else .next (v.setMyJob { j with buf := j.buf ++ rep.data })

/-- REJECTED_COMMAND: the head command's word is no command of its queue; the reason is that of R178 (R50, R178, R179). -/
def execRejectedCommand (w : Vec) (s : State) : Host.Outcome State Fault Refusal :=
  match s.myJob, s.headCmd with
  | none, some h =>
    if h.word ≠ w then .next s
    else match decodeCommand s.focus.queue w with
      | .error r => .next (s.cmdFault w r 0)
      | .ok _ => .next s
  | _, _ => .next s

end Sys2Proof.Machine
end

