-- ==== Sys2Proof/Machine/Queues.lean ====
section
/-! DEFINITION. Launch queues: claims, publishes, rings, takes, completions (R332–R337, R342). -/

namespace Sys2Proof.Machine

open Sys2Proof

/-! ### Host traffic in its order (R344) -/

def HostInput.port : HostInput → Option Nat
  | .read p _ _ => some p
  | .write p _ _ => some p
  | .reg p _ _ => some p
  | .publish _ _ p => some p
  | .claim _ => none
  | .ring _ _ _ => none
  | .abort _ => none

/-- An input stays behind an earlier one when both may have come over one port. -/
def HostInput.behind (h earlier : HostInput) : Bool :=
  match h.port, earlier.port with
  | some p, some q => p == q
  | _, _ => true

/-- What a host access does, none while a page of it is being moved; it waits then, and so does what comes behind it (R314,
R344). -/
def State.hostDo (s : State) (h : HostInput) (act : Option State) : Host.Outcome State Fault Refusal :=
  match s.hostHeld.any h.behind, act with
  | false, some t => .next t
  | _, _ => .next { s with hostHeld := s.hostHeld ++ [h] }

/-! ### Claim and publish (R333, R334) -/

/-- A slot is claimed, or the ring is reported full (R333, R334). -/
def State.claimSlot (s : State) (q : Nat) : State :=
  let x := s.queue q
  if x.reserve - x.head = 128 then { s with hostOut := s.hostOut ++ [.value (w64 (2 ^ 63))] }
  else { s.setQueue q { x with reserve := x.reserve + 1 } with
    hostOut := s.hostOut ++ [.value (w64 (x.reserve % 2 ^ 32))] }

/-- QCLAIM: a host read claims the next slot, or reports the ring full (R333, R334). -/
def execQclaim (q : Nat) (s : State) : Host.Outcome State Fault Refusal := s.hostDo (.claim q) (some (s.claimSlot q))

/-- The value head would reach by taking every published slot in order (R334). -/
def tailFrom (pub : List Nat) : Nat → Nat → Nat
  | 0, h => h
  | fuel + 1, h => if pub.contains (h % 128) then tailFrom pub fuel (h + 1) else h

def Queue.tail (q : Queue) : Nat := tailFrom q.pub 128 q.head

/-- A slot lies between tail and reserve (R334). -/
def Queue.claimed (q : Queue) (slot : Nat) : Bool :=
  (List.range (q.reserve - q.tail)).any fun i => (q.tail + i) % 128 == slot

/-- A slot is published over a host port, or badpub is set (R334). -/
def State.publish (s : State) (q n port : Nat) : State :=
  let x := s.queue q
  if x.claimed n then
    s.setQueue q { x with pub := if x.pub.contains n then x.pub else x.pub ++ [n], ports := x.ports.put n port }
  else s.setQueue q { x with badpub := true }

/-- QPUBLISH: a host write over `port` (R333, R334). -/
def execQpublish (q : Nat) (slot : BitVec 7) (port : Nat) (s : State) : Host.Outcome State Fault Refusal :=
  s.hostDo (.publish q slot port) (some (s.publish q slot.toNat port))

/-- Place of a queue's ring in die 0's map area (R332). -/
def ringPlace (q : Nat) : Place := ⟨.die, 0, mapBase + 0x10_0000 + 8192 * q⟩

/-- Bytes that fall on a ring are stored, others are ignored (R333). -/
def State.writeRing (s : State) (q off : Nat) (data : List Byte) : State :=
  let at' := 8192 * q + off
  s.writePlace { ringPlace 0 with off := (ringPlace 0).off + at' : Place } (data.take (0x8_0000 - at'))

/-- What a host read through BAR2 returns: the bytes of the rings, zero beyond them (R333; DESIGN CHOICE, log entry 126). -/
def State.readRing (s : State) (off n : Nat) : List Byte :=
  let k := if n < 0x8_0000 - off then n else 0x8_0000 - off
  s.readPlace { ringPlace 0 with off := (ringPlace 0).off + off : Place } k ++ List.replicate (n - k) 0

/-- HOST_RING_WRITE: a host write through BAR2 (R333, R344). -/
def execHostRingWrite (q off : Nat) (data : List Byte) (s : State) : Host.Outcome State Fault Refusal :=
  s.hostDo (.ring q off data) (some (s.writeRing q off data))

/-! ### Commands (R337) -/

/-- An address field: the space, and whether its unnamed bits are set. -/
def addrSpace (w : Nat) : Nat := bits w 63 60
def addrBad (w : Nat) : Bool := bits w 59 48 != 0 || (addrSpace w != 0 && addrSpace w != 8)

/-- The 64 bytes of a slot as a command (R337). -/
def LaunchCmd.ofBytes (bs : List Byte) : LaunchCmd :=
  let d : Nat → Nat := fun i => leNat (slice bs (8 * i) 8)
  let d0 := d 0
  let kind := bits d0 7 0
  let dflt := bit d0 13
  let rounds := bits d0 31 16
  let mode := bits d0 11 8
  let common := bits d0 15 14 != 0 || bits (d 5) 63 32 != 0 || d 6 != 0 || d 7 != 0 || addrBad (d 3)
  let own := if kind = 1 then dflt || rounds != 0 || mode != 0 || addrBad (d 1) else addrBad (d 2) || (!dflt && rounds == 0)
  { kind, mode, irq := bit d0 12, dflt, rounds, seq := bits d0 63 32, image := w64 (d 1), arg := w64 (d 2),
    rec' := w64 (d 3), arglen := bits (d 4) 63 32, reccap := bits (d 4) 31 0, limit := bits (d 5) 31 0,
    reserved := common || own || (kind != 1 && kind != 2) || decide (2 < mode) }

/-! ### Completion (R334, R342) -/

/-- Die events logged in all dies so far. -/
def State.events (s : State) : Nat := ((List.range 64).map fun d => (s.die d).seq).sum

/-- Where an address field leads for `n` bytes: host memory, or places under the loaded image's page table with the rights
of system mode, as far as they can be reached (R337, R343). -/
inductive Buf where
  | host (a : Nat)
  | device (parts : List (Loc × Nat))
  /-- the offset of the first byte that cannot be reached, and the places before it -/
  | unreached (off : Nat) (parts : List (Loc × Nat))
  /-- a page on the way is being moved (R314) -/
  | busy

/-- Follow the parts of a device buffer. -/
def State.deviceParts (s : State) (a : Acc) (base : Nat) : List (Nat × Nat) → List (Loc × Nat) → Buf
  | [], acc => .device acc.reverse
  | (va, n) :: t, acc =>
    if s.image.isNone then .unreached (va - base) acc.reverse
    else if s.busyAt va then .busy
    else match s.translateDirect .system a va with
      | .inr _ => .unreached (va - base) acc.reverse
      | .inl l => if l.mod ≠ s.moduleId then .unreached (va - base) acc.reverse else s.deviceParts a base t ((l, n) :: acc)

/-- The parts of a run in halves of 64 KiB pages: no place ends within one (R307, R309). -/
def runParts (va n : Nat) : List (Nat × Nat) :=
  let first := 0x8000 - va % 0x8000
  if n ≤ first then (if n = 0 then [] else [(va, n)])
  else
    let rest := n - first
    (va, first) :: (List.range ((rest + 0x7FFF) / 0x8000)).map fun i =>
      (va + first + 0x8000 * i, if rest - 0x8000 * i < 0x8000 then rest - 0x8000 * i else 0x8000)

/-- XLATE_BAD when what ends a direct access at an address is a malformed leaf (R309). -/
def State.noteBad (s : State) (va : Nat) : State :=
  if s.image.isNone then s
  else match s.badLeafAt va with
    | some e => s.logBadLeaf 0 e
    | none => s

def State.buffer (s : State) (a : Acc) (field : Word) (n : Nat) : Buf :=
  let v := field.toNat % 2 ^ 48
  if addrSpace field.toNat = 8 then .host v else s.deviceParts a v (runParts v n) []

/-- The first byte of a run that lies in a unit read as an uncorrectable error. -/
def State.firstPoisoned (s : State) (p : Place) (n : Nat) : Nat :=
  ((List.range n).find? fun i => s.poisoned { p with off := p.off + i : Place } 1).getD 0

/-- Bytes of a buffer; an uncorrectable error counts as unread (R338). -/
def State.readParts (s : State) : List (Loc × Nat) → Nat → List Byte → List Byte ⊕ Nat
  | [], _, acc => .inl acc
  | (l, n) :: t, off, acc =>
    if s.poisoned l.place n then .inr (off + s.firstPoisoned l.place n)
    else s.readParts t (off + n) (acc ++ s.readPlace l.place n)

/-- How the read of an address field ends. -/
inductive FieldRead where
  | bytes (bs : List Byte)
  /-- offset of the first byte that cannot be read -/
  | unread (off : Nat)
  | busy

/-- Read `n` bytes at an address field. -/
def State.readField (s : State) (field : Word) (n : Nat) : FieldRead :=
  match s.buffer accLoad field n with
  | .host a => .bytes (s.hostMem.readN a n)
  | .device ps => (match s.readParts ps 0 [] with
    | .inl bs => .bytes bs
    | .inr off => .unread off)
  | .unreached off ps => (match s.readParts ps 0 [] with
    | .inl _ => .unread off
    | .inr earlier => .unread earlier)
  | .busy => .busy

/-- Write the parts of a device buffer; writes of die management mark no tile (R353). -/
def State.writeParts (s : State) : List (Loc × Nat) → List Byte → State
  | [], _ => s
  | (l, n) :: t, bs => State.writeParts (s.writePlace l.place (bs.take n)) t (bs.drop n)

/-- Write bytes at an address field; REC_FAULT names the address of a record that cannot be written (R342). None while a page
of it is being moved (R314). -/
def State.writeRecord (s : State) (field : Word) (bs : List Byte) : Option State :=
  match s.buffer accStore field bs.length with
  | .host a => some { s with hostMem := s.hostMem.writeN a bs }
  | .device ps => some (s.writeParts ps bs)
  | .unreached off _ => some ((s.noteBad (field.toNat % 2 ^ 48 + off)).log 0 evRecFault 0 none field [])
  | .busy => none

/-- The numbers that follow the record: retired cores, then diverged ones with bit 31 set (R342, R357). -/
def Running.list (r : Running) : List Nat := r.retired ++ (sortNat r.diverged).map fun n => n + 2 ^ 31

/-- The completion record (R342, R357). `late`: late tiles at completion. -/
def State.recordBytes (s : State) (r : Running) (status : Nat) (detail : Word) (late : Nat) : List Byte :=
  let fit := (r.cmd.reccap - 64) / 4
  let l := r.list
  let coppiceBytes :=
    if r.cmd.mode = 2 then natLE 4 r.reexec ++ natLE 4 r.skipped ++ natLE 2 r.iters ++ natLE 1 r.flags ++ natLE 1 0
      ++ natLE 4 r.ranges ++ natLE 4 late ++ natLE 4 r.diverged.length
    else natLE 24 0
  natLE 8 (status + r.cmd.mode * 2 ^ 8 + r.cmd.seq * 2 ^ 32) ++ natLE 8 r.round ++ natLE 8 ((s.now - r.took) * 5 / 6)
    ++ natLE 8 (r.retired.length % 2 ^ 32 + (s.events - r.events0) % 2 ^ 31 * 2 ^ 32 + (if fit < l.length then 2 ^ 63 else 0))
    ++ natLE 8 detail.toNat ++ coppiceBytes ++ (l.take fit).flatMap fun n => natLE 4 n

/-- A command completes: its record, then lastst and progress, then the vector (R334, R342). While a page of the record is
being moved the command stays, with what its record will say (R314). -/
def State.completeCmd (s : State) (r : Running) (status : Nat) (detail : Word) (late : Nat) : State :=
  let written := if r.cmd.reccap < 64 then some (s.log 0 evRecFault 0 none r.cmd.rec' [])
                 else s.writeRecord r.cmd.rec' (s.recordBytes r status detail late)
  match written with
  | none => { s with running := some { r with phase := 4, finish := some (status, detail, late) } }
  | some s1 =>
    let x := s1.queue r.queue
    let s2 := s1.setQueue r.queue { x with progress := x.progress + 1, lastst := status, doneAt := s1.now + 1 }
    { s2 with
      running := none
      hostOut := if r.cmd.irq then s2.hostOut ++ [.msix x.vector] else s2.hostOut }

/-! ### Taking a command (R334–R336) -/

/-- A queue has a command that can be taken. -/
def Queue.takeable (q : Queue) : Bool := q.pub.contains (q.head % 128) && decide (q.head < q.reserve)

/-- Where a queue stands: priority, the time of its last completion, its number; the least is taken (R336, log entry
26). -/
def State.queueKey (s : State) (q : Nat) : List Nat :=
  let x := s.queue q
  [3 - x.prio % 4, x.doneAt, q]

/-- The queue whose command is taken next (R336). -/
def State.nextQueue (s : State) : Option Nat :=
  leastBy (fun j k => lexBefore (s.queueKey j) (s.queueKey k)) ((List.range 64).filter fun q => (s.queue q).takeable)

/-- The queue is switched in and becomes the most recently served of at most 8 (R332, R335). -/
def switchIn (cached : List Nat) (q : Nat) : List Nat := q :: (cached.filter fun k => k != q).take 7

/-- The queue chosen is switched in, and the least recently served of 8 others is switched out for it (R335). -/
def State.switchQueue (s : State) (q : Nat) : State :=
  let now := switchIn s.cached q
  let out := s.cached.filter fun k => !now.contains k
  let s1 := out.foldl (fun t k => t.setQueue k { t.queue k with swapped := true }) s
  { s1.setQueue q { s1.queue q with swapped := false } with cached := now }

/-- A command as taken. -/
def Running.start (queue port : Nat) (cmd : LaunchCmd) (now events : Nat) : Running :=
  { queue, port, cmd, took := now, phase := 0, starts := [], finish := none, round := 0, payload := [], updates := [], sweep := none, sweepAt := 0,
    status := 0, events0 := events, retired := [], reexec := 0, skipped := 0, iters := 0, flags := 0, ranges := 0,
    diverged := [] }

end Sys2Proof.Machine
end

