-- ==== Sys2Proof/Machine/Coppice.lean ====
section
/-! DEFINITION. Coppice relaunch: the sets of a block, the decision sweep and the divergence check (R346–R358). -/

namespace Sys2Proof.Machine

open Sys2Proof

/-! ### Range lists (R346, R356) -/

/-- Order of ranges: space, owner, first tile. -/
def Range.rank (r : Range) : Nat := (r.space * 2 ^ 32 + r.owner) * 2 ^ 32 + r.first

/-- A range into a sorted list that has none joining it. -/
def insertRange (r : Range) : List Range → List Range
  | [] => [r]
  | q :: t => if r.rank ≤ q.rank then r :: q :: t else q :: insertRange r t

/-- Add a range to a sorted union, merging what overlaps or adjoins it (R356). -/
def unite (l : List Range) (r : Range) : List Range :=
  let near := l.filter fun q => q.joins r
  insertRange (near.foldl Range.join r) (l.filter fun q => !q.joins r)

/-- What is left of a range without another. -/
def Range.minus (r q : Range) : List Range :=
  if !r.meets q then [r]
  else
    let rl := r.first + r.cnt
    let ql := q.first + q.cnt
    (if r.first < q.first then [{ r with cnt := q.first - 1 - r.first }] else []) ++
    (if ql < rl then [{ r with first := ql + 1, cnt := rl - (ql + 1) }] else [])

/-- What is left of a list of ranges without another list. -/
def rangesMinus (l m : List Range) : List Range := m.foldl (fun a q => a.flatMap fun r => r.minus q) l

/-- The common part of two ranges. -/
def Range.common (r q : Range) : Option Range :=
  if !r.meets q then none
  else
    let lo := if r.first < q.first then q.first else r.first
    let rl := r.first + r.cnt
    let ql := q.first + q.cnt
    some { r with first := lo, cnt := (if rl < ql then rl else ql) - lo }

/-- The common part of two lists of ranges. -/
def rangesCommon (l m : List Range) : List Range := l.flatMap fun r => m.filterMap r.common

/-- Tiles of a list of ranges that share none. -/
def tileCount (l : List Range) : Nat := (l.map fun r => r.cnt + 1).sum

/-! ### Blocks (R346–R352) -/

/-- Entries of a set in a core's trace store (R346, R347). -/
def State.traceSet (s : State) (n : Nat) (write : Bool) : List Range :=
  let c := s.core n
  let t := c.trace
  (List.range (if write then t.wcnt else t.rcnt)).map fun i =>
    Range.ofNat (leNat (s.readPlace (s.regionPlace c.region (0x3E_0000 + (if write then 0x8000 else 0) + 8 * i)) 8))

/-- The effective read set (R352). -/
def State.readSet (s : State) (n : Nat) : List Range := ⟨1, (s.core n).site, 0, 7⟩ :: s.traceSet n false

/-- The blocks of the loaded image: its cores that are present. -/
def State.blocks (s : State) : List Nat :=
  match s.image with
  | none => []
  | some i => (i.cores.map fun c => c.core).filter fun n => !(s.core n).absent

/-- The token of a block (R355). -/
def token (n : Nat) : Range := ⟨6, n, 0, 0⟩

/-! ### The decision sweep (R355–R357) -/

/-- A block is selected in an iteration (R355). -/
def State.selected (s : State) (d : List Range) (f : List Nat) (b : Nat) : Bool :=
  f.contains b || (s.readSet b).any fun r =>
    d.any fun q => r.meets q || (q.space == 6 && q.owner == b)
      || ((r.space == 4 || r.space == 5) && q.space == 6 && q.owner == r.owner)

/-- What a newly selected block adds to D (R355). -/
def State.addBlock (s : State) (d : List Range) (b : Nat) : List Range :=
  let d1 := (s.traceSet b true).foldl unite (unite d (token b))
  ((s.traceSet b false).filter fun r => r.space == 4).foldl (fun l r => unite l (token r.owner)) d1

/-- How the sweep ends: re-executing blocks, iterations, flags, D. -/
structure SweepEnd where
  blocks : List Nat
  iters  : Nat
  flags  : Nat
  union  : List Range

/-- The iterations of the sweep (R355): at most 64. -/
def State.iterate (s : State) (all f : List Nat) : Nat → Nat → List Range → List Nat → SweepEnd
  | 0, i, d, _ => ⟨all, i, 2, d⟩
  | fuel + 1, i, d, x =>
    let new := (all.filter fun b => !x.contains b).filter (s.selected d f)
    let d1 := new.foldl s.addBlock d
    if d1.length > 65536 then ⟨all, i + 1, 1, d1⟩
    else if new.isEmpty then ⟨x, i + 1, 0, d1⟩
    else State.iterate s all f fuel (i + 1) d1 (x ++ new)

/-- The sweep of a COPPICE launch (R355). -/
def State.sweep (s : State) (cmd : LaunchCmd) (payload : List Word) (updates : List (Nat × Nat × Nat × BitVec 32)) : SweepEnd :=
  let all := s.blocks
  let id := match s.image with
    | some i => i.id
    | none => 0
  let noTrace := !(all.any fun b => (s.core b).trace.valid) || s.coppice.moved
  let changed := match s.coppice.last with
    | none => false
    | some (i, n, w) => i != id || n != cmd.rounds || w != payload
  if noTrace || changed then ⟨all, 0, (if changed then 4 else 0) + (if noTrace then 8 else 0), []⟩
  else
    let f := all.filter fun b =>
      let t := (s.core b).trace
      !t.valid || t.sat || t.isOpen || updates.any fun u => u.1 == b
    let d0 := s.coppice.dirty.foldl unite []
    State.iterate s all f 64 0 (f.foldl (fun d b => unite d (token b)) d0) []

/-! ### Recording (R349) -/

/-- A block begins to record (R349). -/
def State.beginRecording (s : State) (n : Nat) : State :=
  s.setTrace n { Trace.blank with recording := true }

/-- A block's trace at the end of a recording launch (R348, R351). -/
def State.endRecording (s : State) (n : Nat) : State :=
  let t := s.flushTrace n
  let tr := (t.core n).trace
  if tr.recording then t.setTrace n { tr with valid := true, recording := false } else t

/-- Every trace of the module becomes invalid (R354). -/
def State.dropTraces (s : State) : State :=
  { s with cores := s.cores.mapV fun _ c => { c with trace := { c.trace with valid := false, recording := false } } }

/-! ### Logs (R350, R358) -/

/-- A message of a log, from the 128 bytes of its entry: the fields of the header as injected, and the payload (R220, R350). -/
def loggedPacket (bs : List Byte) : Packet :=
  let n := leNat (bs.take 32)
  let marker := bits n 163 160 == 1
  let h : Header := { hdrBlank with
    kind := if marker then .marker else .data, tag := bits n 169 164, round := bits n 185 170, fmt := bits n 193 186
    rch := bits n 199 194, sch := bits n 205 200, gen := bits n 207 206, ssite := bits n 228 208, score := bits n 247 229
    logged := bit n 248, tied := bit n 249, port := bits n 255 252, dsite := bits n 148 128 }
  ⟨h, if marker then .empty else .message ((List.range 8).map fun i => w64 (leNat (slice bs (32 + 8 * i) 8)))⟩

/-- The log of a core, oldest first (R350). -/
def State.logOf (s : State) (n : Nat) : List Packet :=
  let c := s.core n
  (List.range c.trace.logn).map fun i =>
    loggedPacket ((List.range 16).flatMap fun j => s.readPlace (s.regionPlace c.region (c.clogBase + 128 * i + 8 * j)) 8)

/-! ### The divergence check (R358) -/

/-- Tiles a re-executed block wrote that its old write set did not hold. -/
def State.newTiles (s : State) (b : Nat) : List Range :=
  rangesMinus ((s.traceSet b true).foldl unite []) (s.coppice.oldWrites.at b [])

/-- A skipped block's effective read set meets a re-executed block's new tiles. -/
def State.meetsNew (s : State) (skipped b : Nat) : Bool := !(rangesCommon (s.newTiles b) (s.readSet skipped)).isEmpty

/-- The skipped blocks that meet new tiles, and the new tiles of every re-executed block that one of them meets (R358). -/
def State.divergence (s : State) : List Nat × List Range :=
  let re := s.blocks.filter fun b => !s.coppice.skippedSet.contains b
  let skipped := s.coppice.skippedSet
  (skipped.filter fun k => re.any (s.meetsNew k),
   (re.filter fun b => skipped.any fun k => s.meetsNew k b).flatMap s.newTiles)

/-- Dirty bits at the completion of a recording launch: late tiles and kept tiles stay (R354). -/
def State.clearDirty (s : State) (kept : List Range) : State :=
  let late := s.coppice.late
  let stay := (late ++ rangesCommon s.coppice.dirty kept).foldl unite []
  { s with coppice := { s.coppice with dirty := stay, late := [] } }

end Sys2Proof.Machine
end

