-- ==== Sys2Proof/Machine/Digest.lean ====
section
/-! DEFINITION. SHAKE256 (FIPS 202), the digest that R329 names for a graph image. -/

namespace Sys2Proof.Machine

open Sys2Proof

/-- The 25 lanes of a Keccak state; lane (x, y) stands at x + 5y. -/
abbrev Lanes := List Word

def Lanes.lane (a : Lanes) (x y : Nat) : Word := a.getD (x % 5 + 5 * (y % 5)) 0

/-- A state from its lanes. -/
def lanesOf (f : Nat → Nat → Word) : Lanes := (List.range 25).map fun i => f (i % 5) (i / 5)

/-- Rotations of the lanes, by x + 5y. -/
def keccakTurns : List Nat :=
  [0, 1, 62, 28, 27, 36, 44, 6, 55, 20, 3, 10, 43, 25, 39, 41, 45, 15, 21, 8, 18, 2, 61, 56, 14]

/-- The constants of the 24 rounds. -/
def keccakConsts : List Word :=
  [0x1#64, 0x8082#64, 0x800000000000808A#64, 0x8000000080008000#64, 0x808B#64, 0x80000001#64,
   0x8000000080008081#64, 0x8000000000008009#64, 0x8A#64, 0x88#64, 0x80008009#64, 0x8000000A#64,
   0x8000808B#64, 0x800000000000008B#64, 0x8000000000008089#64, 0x8000000000008003#64, 0x8000000000008002#64,
   0x8000000000000080#64, 0x800A#64, 0x800000008000000A#64, 0x8000000080008081#64, 0x8000000000008080#64,
   0x80000001#64, 0x8000000080008008#64]

/-- Theta. -/
def keccakTheta (a : Lanes) : Lanes :=
  let cols : List Word := (List.range 5).map fun x => a.lane x 0 ^^^ a.lane x 1 ^^^ a.lane x 2 ^^^ a.lane x 3 ^^^ a.lane x 4
  let sums : List Word := (List.range 5).map fun x => cols.getD ((x + 4) % 5) 0 ^^^ (cols.getD ((x + 1) % 5) 0).rotateLeft 1
  lanesOf fun x y => a.lane x y ^^^ sums.getD x 0

/-- Rho and pi. -/
def keccakRhoPi (a : Lanes) : Lanes :=
  lanesOf fun x y =>
    let u := (x + 3 * y) % 5
    (a.lane u x).rotateLeft (keccakTurns.getD (u + 5 * x) 0)

/-- Chi. -/
def keccakChi (a : Lanes) : Lanes := lanesOf fun x y => a.lane x y ^^^ (~~~ a.lane (x + 1) y &&& a.lane (x + 2) y)

/-- One round, with its constant added to lane (0, 0). -/
def keccakRound (a : Lanes) (c : Word) : Lanes :=
  match keccakChi (keccakRhoPi (keccakTheta a)) with
  | [] => []
  | l :: t => (l ^^^ c) :: t

/-- Keccak-f[1600]. -/
def keccakF (a : Lanes) : Lanes := keccakConsts.foldl keccakRound a

/-- A little-endian lane of up to 8 bytes. -/
def laneOf : List Byte → Word
  | [] => 0
  | b :: t => (laneOf t <<< 8) ||| b.setWidth 64

/-- A block is added to the state. -/
def absorb (a : Lanes) (block : List Byte) : Lanes :=
  keccakF ((List.range 25).map fun i => a.getD i 0 ^^^ laneOf ((block.drop (8 * i)).take 8))

/-- Absorb blocks of 136 bytes, the last one padded for SHAKE. -/
def absorbAll : Nat → Lanes → List Byte → Lanes
  | 0, a, _ => a
  | fuel + 1, a, bs =>
    if bs.length < 136 then
      let open' := bs ++ 0x1F#8 :: List.replicate (135 - bs.length) 0
      absorb a (open'.take 135 ++ [open'.getD 135 0 ||| 0x80#8])
    else absorbAll fuel (absorb a (bs.take 136)) (bs.drop 136)

/-- SHAKE256 of some bytes, cut to its first 16. -/
def shake256 (bs : List Byte) : BitVec 128 :=
  let a := absorbAll (bs.length / 136 + 1) (List.replicate 25 0) bs
  a.getD 1 0 ++ a.getD 0 0

end Sys2Proof.Machine
end

