-- ==== Sys2Proof/Machine/RouteInstr.lean ====
section
/-! DEFINITION. Route records and the route instructions RTSET, RTINV and RTBIND (R224, R227, R233–R235). -/

namespace Sys2Proof.Machine

/-! ### Route records (R224) -/

/-- A run code's fields (R222). -/
def runOf (c : Nat) : Run :=
  ⟨match bits c 15 14 with
   | 0 => .n | 1 => .e | 2 => .s | _ => .w, bit c 13, bit c 12, bits c 9 0⟩

/-- A route record as it lies in memory: dwords 0 to 3, and 4 to 11 when ext = 1. -/
structure RouteRec where
  codes : List Nat
  fmt   : Nat
  rch   : Nat
  fence : Bool
  ext   : Bool
  nrun  : Nat
  n32   : Bool
  gen   : Nat
  dmod  : Nat
  dsite : Nat
  /-- a reserved bit is set -/
  rsvd  : Bool
  deriving DecidableEq, Repr

/-- The four 16-bit codes of a dword. -/
def codes4 (w : Nat) : List Nat := [bits w 15 0, bits w 31 16, bits w 47 32, bits w 63 48]

/-- The record of a list of dwords (R224). -/
def RouteRec.ofWords (ws : List Word) : RouteRec :=
  let n : Nat → Nat := fun i => (ws.getD i 0).toNat
  let d := n 2
  { codes := (codes4 (n 0)) ++ codes4 (n 1) ++ codes4 (n 4) ++ codes4 (n 5) ++ codes4 (n 6) ++ codes4 (n 7)
      ++ codes4 (n 8) ++ codes4 (n 9)
    fmt := bits d 63 56, rch := bits d 55 50, fence := bit d 49, ext := bit d 48, nrun := bits d 47 43, n32 := bit d 42
    gen := bits d 40 39, dmod := bits d 30 21, dsite := bits d 20 0
    rsvd := bit d 41 || bits d 38 31 != 0 || n 3 != 0 || n 10 != 0 || n 11 != 0 }

/-- Number of runs of the route the record names; 0 when it names none. -/
def RouteRec.count (r : RouteRec) : Nat := if r.n32 then 32 else r.nrun

/-- The record names no route (R224). -/
def RouteRec.isNone (r : RouteRec) : Bool := r.nrun == 0 && !r.n32

/-- nrun, n32 and ext agree (R224). -/
def RouteRec.countOk (r : RouteRec) : Bool :=
  if r.n32 then r.ext && r.nrun == 0
  else if r.ext then decide (9 ≤ r.nrun) else decide (r.nrun ≤ 8)

/-- The record is malformed (R224). -/
def RouteRec.malformed (r : RouteRec) : Bool :=
  r.rsvd || !r.countOk
  || (r.codes.take r.count).any (fun c => bits c 11 10 != 0)
  || (r.codes.drop r.count).any (· != 0)
  || (r.isNone && (r.fmt != 0 || r.rch != 0 || r.fence || r.ext || r.gen != 0 || r.dmod != 0 || r.dsite != 0))

/-- The route a record names (R224). -/
def RouteRec.route (r : RouteRec) : Option Route :=
  if r.isNone then none else some ⟨(r.codes.take r.count).map runOf, r.dsite, r.dmod⟩

/-- TRAPVAL of a route fault raised at issue (R227). There is no packet then: the kind field is 0 (DESIGN CHOICE, log entry 117). -/
def State.routeVal (s : State) (reason : Nat) : Word :=
  w64 (reason * 2 ^ 60 + s.moduleId * 2 ^ 21 + (s.core s.focus.core).site)

/-- Reads of a record at dword `at`: its first 32 bytes, and the 64 bytes of its extension once `ext` is known. -/
def recReads (base : Nat) (ws : Option Word) : List Nat :=
  match ws with
  | some d => if bit d.toNat 48 then [base, base + 4, base + 8] else [base]
  | none => [base]

/-- The records read so far, from the context's gathering: dword `i`, if it has returned. -/
def State.gotWord (s : State) (i : Nat) : Option Word := s.me.gathered.got.look i

/-- The reads of `n` records of 96 bytes each, ascending: a record's extension and the next record are read once its
first block is known (R233, R235). -/
def State.recordReads (s : State) (n : Nat) : List Nat :=
  (List.range n).flatMap fun j =>
    if j = 0 ∨ (s.gotWord (12 * (j - 1) + 2)).isSome then recReads (12 * j) (s.gotWord (12 * j + 2)) else []

/-- The twelve dwords of record `j`, 0 where the extension is absent. -/
def State.recordWords (s : State) (j : Nat) : List Word :=
  (List.range 12).map fun i => (s.gotWord (12 * j + i)).getD 0

/-- How reading records ends: every needed block has returned, or the instruction still reads, stalls or traps. -/
inductive RecordsRes where
  | got (recs : List RouteRec) (s : State)
  | act (a : Act)

/-- Read `n` records upward from `va`; the instruction stalls until the greatest number of reads it may make, three for a
record, fit class LD (R75, R233, R235, log entry 38). -/
def State.readRecords (s : State) (va : Word) (n : Nat) : RecordsRes :=
  match s.gatherAct va 32 (3 * n) (s.recordReads n) with
  | .act a => .act a
  | .got _ t => .got ((List.range n).map fun j => RouteRec.ofWords (t.recordWords j)) t

/-- The instruction completes and its reads are forgotten. -/
def State.passGather (s : State) : State := s.setMe { s.me.next with gather := none }

/-- RTSET after its reads: its checks, then the entry of the key or the least recently used one (R231, R233). -/
def State.rtset (s : State) (key : Word) (fwd ret : RouteRec) : Act :=
  let c := s.myCore
  let retBad := match ret.route with
    | some r => r.dsite != c.site
    | none => false
  match fwd.route with
  | none => .trap s cRouteFault (s.routeVal 6)
  | some f =>
    if bits key.toNat 63 31 != 0 || fwd.malformed || ret.malformed || fwd.dmod * 2 ^ 21 + fwd.dsite != key.toNat || retBad then
      .trap s cRouteFault (s.routeVal 6)
    else .go (s.setMyCore { c with rcache := rcInsert c.rcache ⟨key.toNat, f, ret.route⟩ }).passGather

/-- RTSET (R233). -/
def execRtset (a b : Reg) (s : State) : Host.Outcome State Fault Refusal :=
  let ea := s.x b
  if ea.toNat % 32 ≠ 0 then s.trapOut cMisaligned ea
  else match s.readRecords ea 2 with
    | .act r => r.out
    | .got recs t => match recs with
      | fwd :: ret :: _ => (t.rtset (s.x a) fwd ret).out
      | _ => .next t

/-- RTINV of one key (R234). -/
def execRtinv (a : Reg) (s : State) : Host.Outcome State Fault Refusal :=
  let c := s.myCore
  .next (s.setMyCore { c with rcache := c.rcache.filter fun e => e.key != (s.x a).toNat }).pass

/-- RTINV all (R234). -/
def execRtinvAll (s : State) : Host.Outcome State Fault Refusal :=
  .next (s.setMyCore { s.myCore with rcache := [] }).pass

/-- Some other context of the core holds an uncommitted entry on a slot. -/
def State.othersHold (s : State) (slot : Nat) : Bool :=
  (List.range 4).any fun k => k != s.focus.ctx && (s.ctx s.focus.core k).send.any fun m => m.slot == slot

/-- RTBIND after its read: the fence leaves on the old route, then the slot takes the record's binding (R235). The tag and the round
of the fence's header are 0 (DESIGN CHOICE, log entry 99). -/
def State.rtbind (s : State) (n : Nat) (r : RouteRec) : Act :=
  let c := s.myCore
  let sl := c.slot n
  if r.malformed then .trap s cRouteFault (s.routeVal 6)
  else if s.me.send.any fun m => m.slot == n then .trap s cRouteFault (s.routeVal 7)
  else if s.othersHold n || c.outq.any fun m => m.slot == n then .stall s
  else
    let new : Slot := { sl with route := r.route, rch := r.rch, fmt := r.fmt, gen := r.gen }
    match (if r.fence then sl.route else none) with
    | some old =>
      let t := s.setMyCore { c with slots := c.slots.put n { new with gen := (sl.gen + 1) % 4 } }
      let fence : Packet := ⟨s.msgHeader s.focus.core n 0 .fence sl old, .empty⟩
      .go (t.passGather.emit s.focus.core (t.senderOf t.meOwner) fence)
    | none => .go (s.setMyCore { c with slots := c.slots.put n new }).passGather

/-- RTBIND (R235). -/
def execRtbind (a b : Reg) (s : State) : Host.Outcome State Fault Refusal :=
  let ea := s.x b
  if (s.x a).toNat > 63 then s.trapOut cRouteFault (s.routeVal 6)
  else if ea.toNat % 32 ≠ 0 then s.trapOut cMisaligned ea
  else match s.readRecords ea 1 with
    | .act r => r.out
    | .got recs t => match recs with
      | r :: _ => (t.rtbind (s.x a).toNat r).out
      | [] => .next t

end Sys2Proof.Machine
end

