-- ==== Sys2Proof/Machine/Load.lean ====
section
/-! DEFINITION. LOAD: the checks in their order and the installation of an image (R98, R190, R284, R306, R330, R331). -/

namespace Sys2Proof.Machine

open Sys2Proof

/-! ### Checks (R331) -/

/-- A reserved skip value in the map: the die (R256). -/
def State.badSkip (s : State) : Option Nat :=
  (s.grafts.find? fun e => decide (16 < e.2) && e.2 != 31).map fun e => e.1 / 512

/-- First core that is absent though the image places something on it: a section, or a channel of one that names it as its
target (R260, R331, R364). -/
def State.absentCore (s : State) (img : Image) : Option Nat :=
  let gone : Nat → Bool := fun n => decide (n ≥ Config.numCores) || (s.core n).absent
  img.cores.findSome? fun c =>
    if gone c.core then some c.core
    else (c.slots.filterMap fun e => e.2.target).find? gone

/-- A region of a size below a limit. -/
def fitsBelow (limit : Nat) (r : Nat × Nat) : Bool := decide (r.1 + r.2 ≤ limit)

/-- Limit of what an image places in a DRAM region (R98), in a cluster scratchpad and in a die scratchpad (R99). -/
def dramLimit : Nat := 0x3E_0000
def clusterLimit : Nat := 0x20_0000
def dieLimit : Nat := 0x1B8_0000

/-- The image places something in the core's DRAM region (R371). -/
def CoreImage.usesDram (c : CoreImage) : Bool := !c.dram.isEmpty || c.dramEnd != 0 || c.clog.isSome

/-- `stack` or `spill` is missing or wrongly sized (R14). -/
def CoreImage.badStack (c : CoreImage) : Bool :=
  (match c.stack with
   | some r => decide (r.2 < 256) || r.2 % 64 != 0 || r.1 + r.2 != 0x8000
   | none => true) ||
  (match c.spill with
   | some r => r.2 != 2048 || !fitsBelow 0x8000 r
   | none => true)

/-- What R98 places upward in the scratchpad, up to `stack`, does not fit in its order: contents, `loops`, `spill`, `stack`. An
image holds the placements salld made, so LOAD finds a misfit as placements that run into the next or past it, or as contents
at or above `spill` (DEDUCED, log entry 107). -/
def CoreImage.misplaced (c : CoreImage) : Bool :=
  let spill := c.spill.getD (0, 0)
  let stack := c.stack.getD (0, 0)
  (c.scratch.any fun b => decide (spill.1 ≤ b.1)) || !fitsBelow spill.1 (c.loops.1, 32 * c.loops.2)
  || c.loops.1 % 32 != 0 || spill.1 % 32 != 0 || !fitsBelow stack.1 spill

/-- Contents of the scratchpad or of the DRAM region that do not fit (R98). -/
def CoreImage.tooBig (c : CoreImage) : Bool :=
  c.misplaced
  || (c.dram.any fun e => !fitsBelow dramLimit (e.1, e.2.length)) || decide (dramLimit < c.dramEnd)
  || (match c.clog with
      | some r => !fitsBelow dramLimit r
      | none => false)

/-- A region of space cluster or die that does not fit (R99). -/
def SharedRegion.tooBig (r : SharedRegion) : Bool := !fitsBelow (if r.inDie then dieLimit else clusterLimit) (r.off, r.size)

/-- First core whose regions or contents LOAD refuses (R14, R98, R99, R371). For a region of space cluster or die the spec does
not say which core the detail word names: the first of the region's list, after every core's own check (DESIGN CHOICE, log entry
108). -/
def State.badRegion (s : State) (img : Image) : Option Nat :=
  match img.cores.find? fun c => c.badStack || c.tooBig || (s.bringup.sapling && c.usesDram) with
  | some c => some c.core
  | none => (img.shared.find? SharedRegion.tooBig).map fun r => r.cores.headD 0

/-- A handler-table entry of 32 bytes (R190). -/
def TagEntry.ofVec (v : Vec) : TagEntry :=
  let x := v.toNat
  { handler := bits x 47 0, close := bits x 111 64, join := w64 (bits x 191 128), const := BitVec.ofNat 32 (bits x 255 224)
    valid := bit x 207, gated := bit x 206, serial := bit x 205, queue := bits x 202 200, role := bits x 199 198 }

/-- The tags whose entries have a bit set. -/
def entryBits (t : FMap Vec) (b : Nat) : Word := t.foldl (fun w e => if bit e.2.toNat b then setBit w e.1 else w) 0

/-- A handler-table entry LOAD refuses: which values count as reserved is the model's reading (R190, DEDUCED, log entry 101). -/
def TagEntry.bad (e : TagEntry) : Bool :=
  e.queue == 7 || e.role == 3 || (e.gated && e.join == 0) || e.handler % 4 != 0 || e.close % 4 != 0

/-- First refused entry: core × 64 + tag. -/
def badHandler (img : Image) : Option Nat :=
  img.cores.findSome? fun c => (c.table.find? fun e => (TagEntry.ofVec e.2).bad).map fun e => c.core * 64 + e.1

/-- The site at which runs end; none when they leave the module. -/
def followRuns (site : Nat) : List Run → Option Nat
  | [] => some site
  | r :: t =>
    let go : Nat → Option Nat → Option Nat := fun n o => (List.range n).foldl (fun a _ => a.bind fun x => hop x r.dir) o
    match go (r.len + 1) (some site) with
    | none => none
    | some x => followRuns x t

/-- The route of a `route=` slot leaves the module or ends at a site that carries no core under the map's graft entries
(R266). -/
def State.slotEndBad (s : State) (site : Nat) (e : SlotImage) : Bool :=
  match e.target, (RouteRec.ofWords e.record).route with
  | none, some r =>
    match followRuns site r.runs with
    | none => true
    | some x => (s.graftedCore x).isNone
  | _, _ => false

/-- A slot LOAD refuses: a malformed record, a reserved format tag, or such a route (R224, R125, R266). -/
def State.slotRefused (s : State) (site : Nat) (e : SlotImage) : Bool :=
  let r := RouteRec.ofWords e.record
  r.malformed || tagReserved r.fmt || s.slotEndBad site e

/-- First refused slot: core × 64 + slot. -/
def State.badChannel (s : State) (img : Image) : Option Nat :=
  img.cores.findSome? fun c =>
    let here := (s.placed c.core).1
    (c.slots.find? fun e => s.slotRefused here e.2).map fun e => c.core * 64 + e.1

/-- Groups other than 0 a core's GRP names (R90). -/
def grpList (g : Word) : List Nat :=
  (List.range 4).filterMap fun j => if g.getLsbD (32 + j) then some (bits g.toNat (8 * j + 7) (8 * j)) else none

/-- Members a group has in the image. -/
def memberCount (img : Image) (g : Nat) : Nat :=
  if g = 0 then img.cores.length else (img.cores.filter fun c => (grpList c.grp).contains g).length

/-- A group-table entry of 16 bytes (R283). -/
def Group'.ofBits (v : BitVec 128) : Group' :=
  let x := v.toNat
  { phase := 0, valid := bit x 63, level := bits x 58 56, home := bits x 53 48, members := bits x 19 0 }

/-- A reserved field of a group-table entry is not zero (R283, R284). -/
def groupReserved (v : BitVec 128) : Bool :=
  let x := v.toNat
  bits x 127 96 != 0 || bits x 62 59 != 0 || bits x 55 54 != 0 || bits x 47 20 != 0

/-- The entry of a group in an image. -/
def Image.group (img : Image) (g : Nat) : Group' := Group'.ofBits (img.groups.at g 0)

/-- An entry of the group table breaks R284. -/
def groupBad (img : Image) (g : Nat) : Bool :=
  let e := img.group g
  let sharesLevel := img.cores.any fun c =>
    let l := grpList c.grp
    l.contains g && l.any fun h => h != g && (img.group h).level == e.level
  groupReserved (img.groups.at g 0) ||
  (if g = 0 then !e.valid || e.level != 0 || e.members != memberCount img 0
   else if e.valid then e.level == 0 || e.members != memberCount img g || sharesLevel || e.members == 0
   else memberCount img g != 0)

/-- First group whose entry breaks R284. -/
def firstBadGroup (img : Image) : Option Nat := (List.range 256).find? (groupBad img)

/-- Entries of a table of `n` entries at a die-scratchpad offset: index and value, the zero ones left out. -/
def tableOf (pages : Memory) (off n : Nat) : List (Nat × Nat) :=
  (entriesOf ((pages.part off (8 * n)).map fun c => c.1 - off)).map fun o => (o / 8, leNat (pages.readN (off + o) 8))

/-- A leaf's target is one its range of addresses allows (R306). -/
def targetAllowed (va e : Nat) : Bool :=
  let t := bits e 32 30
  if va < 2 ^ 32 then false
  else if va < 0x1_8000_0000 then t == 3 && siteDie (bits e 53 33) == (va - 2 ^ 32) / 0x200_0000
  else if va < 0x400_0000_0000 then t ≤ 3 || t == 5
  else if va < 0x800_0000_0000 then t == 0 || t == 1 || t == 5
  else if va < 0x8000_0000_0000 then t ≤ 3 || t == 5
  else t == 4

/-- A leaf is malformed, covers a disabled row, or names a target its range forbids (R306, R309). -/
def State.pageBad (s : State) (va e level : Nat) : Bool := !leafOk e level || s.rowDisabled e || !targetAllowed va e

/-- First page of a table tree that is malformed or forbidden: its virtual address (R306, R309). -/
def State.firstBadPage (s : State) (pages : Memory) : Option Nat :=
  (tableOf pages rootTable 4096).findSome? fun (i0, e0) =>
    let v0 := i0 * 2 ^ 36
    if !bit e0 0 then none
    else if bit e0 1 then some v0
    else (tableOf pages (tableOff e0) 1024).findSome? fun (i1, e1) =>
      let v1 := v0 + i1 * 2 ^ 26
      if !bit e1 0 then none
      else if bit e1 1 then (if s.pageBad v1 e1 1 then some v1 else none)
      else (tableOf pages (tableOff e1) 32).findSome? fun (i2, e2) =>
        let v2 := v1 + i2 * 2 ^ 21
        if !bit e2 0 then none
        else if bit e2 1 then (if s.pageBad v2 e2 2 then some v2 else none)
        else (tableOf pages (tableOff e2) 32).findSome? fun (i3, e3) =>
          let v3 := v2 + i3 * 2 ^ 16
          if !bit e3 0 then none else if !bit e3 1 || s.pageBad v3 e3 3 then some v3 else none

/-- The bytes of an image after its header (R329); with the header they fill no more than a host address of 48 bits names
(R337). -/
def Image.rest (img : Image) : List Byte :=
  (Config.sectionBytes img.cores img.shared img.groups img.pages img.dflt).take (2 ^ 48 - 64)

/-- Magic, version, length or digest is wrong: where in the header. The length is that of the image's bytes and the one the
command gives, `n` (R329, R331, R337). -/
def Image.badHdr (img : Image) (n : Nat) : Option Nat :=
  if img.magic ≠ 0x494C_4251 then some (Config.headerOffset 0)
  else if img.version ≠ 1 then some (Config.headerOffset 1)
  else if img.length ≠ 64 + img.rest.length ∨ n ≠ img.length then some (Config.headerOffset 2)
  else if img.digest ≠ shake256 img.rest then some (Config.headerOffset 3)
  else none

/-- The status and detail of the first check that fails (R331). `n`: the length the command gives. -/
def State.loadCheck (s : State) (img : Image) (n : Nat) : Option (Nat × Nat) :=
  match img.badHdr n with
  | some o => some (0x11, o)
  | none => match s.badSkip with
    | some d => some (0x12, d)
    | none => if img.graftGen ≠ s.graftGen then some (0x13, s.graftGen)
      else match s.absentCore img with
        | some n => some (0x14, n)
        | none => match s.badRegion img with
          | some n => some (0x15, n)
          | none => match badHandler img with
            | some x => some (0x16, x)
            | none => match s.badChannel img with
              | some x => some (0x17, x)
              | none => match firstBadGroup img with
                | some g => some (0x18, g)
                | none => (s.firstBadPage img.pages).map fun va => (0x19, va)

/-! ### Installation (R330) -/

/-- A core as LOAD leaves one the image does not name: placement and the registers LOAD does not write stay (R330). -/
def Core.unloaded (c : Core) (n : Nat) : Core :=
  { Core.blank n with site := c.site, region := c.region, absent := c.absent, trapvec := c.trapvec,
                      mxfmta := c.mxfmta, mxfmtb := c.mxfmtb, mxsca := c.mxsca, mxscb := c.mxscb, mxflags := c.mxflags }

/-- A channel slot as LOAD installs it: generation and round counter 0 (R232, R330). -/
def SlotImage.slot (e : SlotImage) : Slot :=
  let r := RouteRec.ofWords e.record
  { route := r.route, rch := r.rch, fmt := r.fmt, gen := 0, round := 0, logged := e.logged, tied := e.tied }

/-- An initial route-cache entry; one whose forward record names no route is none (R329). -/
def rcOf (e : Nat × List Word × List Word) : Option RcEntry :=
  (RouteRec.ofWords e.2.1).route.map fun f => ⟨e.1, f, (RouteRec.ofWords e.2.2).route⟩

/-- A core of the image from its section; reserved bits of GRP and TRAPVEC read as zero (R6, R90, R93, R330). Of its initial
route-cache entries the first listed counts as the most recently used, and only the first 64 are taken (DESIGN CHOICE, log entry
109). -/
def Core.loaded (c : Core) (i : CoreImage) : Core :=
  let table : FMap TagEntry := i.table.mapV fun _ v => TagEntry.ofVec v
  { c.unloaded i.core with
    named := true, tagen := entryBits i.table 204, tagpend := entryBits i.table 203, grp := i.grp &&& 0xF_FFFF_FFFF
    trapvec := i.trapvec &&& ~~~ 3#64, table
    slots := i.slots.mapV fun _ e => e.slot
    rcache := (i.rcache.filterMap rcOf).take 64, bound := i.bound
    rounds := table.filterMap fun e => if e.2.valid && e.2.gated then some (e.1, RoundState.blank) else none
    stackEnd := (i.stack.getD (0, 0)).1 + (i.stack.getD (0, 0)).2, stackSize := (i.stack.getD (0, 0)).2
    spillBase := (i.spill.getD (0, 0)).1, loopsBase := i.loops.1, loopsN := i.loops.2
    clogBase := (i.clog.getD (0, 0)).1, clogSize := (i.clog.getD (0, 0)).2 }

/-- Bytes are written upward from an offset of a site's DRAM region, wherever its banks lie (R98, R310). -/
def State.writeRegion (s : State) (site : Nat) : Nat → List Byte → State
  | _, [] => s
  | off, b :: t => State.writeRegion (s.writePlace (s.regionPlace site off) [b]) site (off + 1) t

/-- The memory contents of one core's section: all of its scratchpad, and the extents of its DRAM section. -/
def State.installCore (s : State) (i : CoreImage) : State :=
  let c := s.core i.core
  let sp := (⟨.scratch, c.site, 0⟩ : Place).phys
  let s1 : State := { s.setCore i.core (c.loaded i) with
    mem := s.mem.splice sp 0x8000 (Memory.ofCells i.scratch), poison := unpoison s.poison sp 0x8000 }
  i.dram.foldl (fun t e => t.writeRegion c.region e.1 e.2) s1

/-- One die's copy of the page table, and its engine's sync space at 0. `table`: the table's bytes from its root. -/
def installDie (table : Memory) (m : Memory) (d : Nat) : Memory :=
  (m.splice (⟨.die, d, rootTable⟩ : Place).phys 0x20_0000 table).lose (⟨.sync, d, 0⟩ : Place).phys 0x400_0000

/-- The page-table bytes of an image, from the root's offset. -/
def tableBytes (pages : List Host.Cell) : Memory :=
  Memory.ofCells ((pages.filter fun c => decide (rootTable ≤ c.1)).map fun c => (c.1 - rootTable, c.2))

/-- A site at LOAD: no core is paired or moving any more (R330). -/
def Site.unloaded (e : Site) : Site :=
  { e with state := if e.shadowOf.isSome then .spare else e.state, shadowOf := none, migTarget := none }

/-- Installation of an image that passed every check (R330, R354). -/
def State.install (s : State) (img : Image) : State :=
  let s1 : State := { s with
    cores := s.cores.mapV fun n c => c.unloaded n
    ctxs := s.ctxs.mapV fun _ x => { x.freed with ld := 0, st := 0, sy := 0, blocks := [] }
    reqs := [], reports := [], engRoutes := s.engineRoutes, pageMove := none
    mem := (List.range 64).foldl (installDie (tableBytes img.pages)) s.mem
    dies := s.dies.mapV fun _ d => { Die.blank with seq := d.seq, place := d.place, logAt := d.logAt, logged := d.logged, soft := d.soft, softAt := d.softAt, convHold := d.convHold, convDark := d.convDark, attach := d.attach }
    sites := s.sites.mapV fun _ e => e.unloaded
    stateGen := if s.sites.any fun e => e.2.shadowOf.isSome then s.stateGen + 1 else s.stateGen
    groups := img.groups.mapV fun _ g => Group'.ofBits g
    members := img.cores.foldl (fun m c => m.put c.core (c.grp &&& 0xF_FFFF_FFFF)) []
    coppice := { s.coppice with dirty := [], late := [], skippedSet := [], oldWrites := [], replays := [] }
    image := some img }
  img.cores.foldl State.installCore s1

/-- The image at an address field: in host memory, since LOAD's is a host address (R337). -/
def State.imageAt (s : State) (field : Word) : Option Image :=
  if addrSpace field.toNat = 8 then s.hostImages.look (field.toNat % 2 ^ 48) else none

/-- LOAD: the image at the command's host address is checked and installed; a refused one leaves none loaded, and so does an
address with no image (R330, R331, log entry 35). -/
def execLoad (s : State) : Host.Outcome State Fault Refusal :=
  match s.running with
  | none => .next s
  | some r =>
    if r.cmd.kind ≠ 1 ∨ r.phase ≠ 0 then .next s
    else
      let t : State := { s with image := none, members := [] }
      match s.imageAt r.cmd.image with
      | none => .next (t.completeCmd r 0x11 0 0)
      | some img => match s.loadCheck img r.cmd.arg.toNat with
        | some (status, detail) => .next (t.completeCmd r status (w64 detail) 0)
        | none => .next ((s.install img).completeCmd r 0 (w64 img.id) 0)

end Sys2Proof.Machine
end

