-- ==== Sys2Proof/Machine/Launch.lean ====
section
/-! DEFINITION. A launch: its checks and argument tile, rounds and start messages, quiescence, abort and time limit, log
replay and completion (R337–R342, R349, R354–R358). -/

namespace Sys2Proof.Machine

open Sys2Proof

def State.setRun (s : State) (r : Running) : State := { s with running := some r }

/-! ### The argument tile (R338) -/

/-- An update entry: core, tag, round, constant (R338). -/
def updateOf (bs : List Byte) : Nat × Nat × Nat × BitVec 32 :=
  let lo := leNat (bs.take 8)
  (bits lo 18 0, bits lo 29 24, bits lo 47 32, BitVec.ofNat 32 (leNat (slice bs 8 4)))

/-- The cause an entry is refused for (R338). -/
def State.updateCause (s : State) (rounds : Nat) (u : Nat × Nat × Nat × BitVec 32) : Option Nat :=
  let c := s.core u.1
  if c.absent then some 3
  else if !(c.table.at u.2.1 .blank).valid then some 4
  else if u.2.2.1 ≥ rounds then some 5
  else none

/-- First failing entry: cause and index. -/
def State.firstBadUpdate (s : State) (rounds : Nat) : List (Nat × Nat × Nat × BitVec 32) → Nat → Option (Nat × Nat)
  | [], _ => none
  | u :: t, i => match s.updateCause rounds u with
    | some c => some (c, i)
    | none => s.firstBadUpdate rounds t (i + 1)

/-- Detail word of an ARGS refusal (R338). -/
def argsDetail (cause value : Nat) : Word := w64 (cause * 2 ^ 56 + value % 2 ^ 32)

/-- How the read of the argument tile ends. -/
inductive TileRead where
  | tile (payload : List Word) (updates : List (Nat × Nat × Nat × BitVec 32))
  /-- the offset of the first byte not read -/
  | unread (off : Nat)
  /-- the detail of the refusal -/
  | refused (detail : Word)
  /-- a page of it is being moved -/
  | busy

/-- The argument tile (R338). -/
def State.readTile (s : State) (cmd : LaunchCmd) : TileRead :=
  let len := if cmd.arglen < 72 then 72 else cmd.arglen
  match s.readField cmd.arg len with
  | .busy => .busy
  | .unread off => .unread off
  | .bytes bs =>
    let u := leNat (slice bs 64 4)
    if cmd.arglen < 72 + 16 * u then .refused (argsDetail 2 u)
    else
      let es := (List.range u).map fun i => updateOf (slice bs (72 + 16 * i) 16)
      match s.firstBadUpdate cmd.rounds es 0 with
      | some (c, i) => .refused (argsDetail c i)
      | none => .tile ((List.range 8).map fun i => w64 (leNat (slice bs (8 * i) 8))) es

/-! ### The checks and round 0 (R337, R339, R355) -/

/-- The default launch command of an image, none when its slot is zero (R329, R337). -/
def Image.default' (i : Image) : Option LaunchCmd :=
  if i.dflt.all fun b => b == 0 then none else some (LaunchCmd.ofBytes i.dflt)

/-- A LAUNCH takes its fields from a default launch command that is not as R337 lists it (DEDUCED, log entry 121). -/
def State.badDefault (s : State) (c : LaunchCmd) : Bool :=
  match c.dflt, s.image.bind Image.default' with
  | true, some d => d.reserved || d.kind != 2 || d.dflt
  | _, _ => false

/-- Why a LAUNCH completes before any start, or the command it performs (R337, R339, R371). -/
def State.launchCheck (s : State) (c : LaunchCmd) : LaunchCmd ⊕ (Nat × Word) :=
  let own := c.mode != 0 || c.rounds != 0 || c.arg != 0 || c.rec' != 0 || c.arglen != 0 || c.reccap != 0
  if (c.dflt && own) || (s.bringup.sapling && c.mode != 0) then .inr (0x23, 0)
  else match s.image with
    | none => .inr (0x21, 0)
    | some img =>
      let resolved : Option LaunchCmd :=
        if !c.dflt then some c
        else img.default'.map fun d => { c with mode := d.mode, rounds := d.rounds, arg := d.arg, rec' := d.rec', arglen := d.arglen, reccap := d.reccap }
      match resolved with
      | none => .inr (0x23, 0)
      | some k =>
        if s.badDefault c || (s.bringup.sapling && k.mode != 0) || decide (2 < k.mode) || k.rounds == 0 then .inr (0x23, 0)
        else if k.image ≠ w64 img.id then .inr (0x21, 0)
        else if img.graftGen ≠ s.graftGen then .inr (0x13, w64 s.graftGen)
        else .inl k

/-- The record of a refusal goes where the resolved command says. -/
def State.recordCmd (s : State) (c : LaunchCmd) : LaunchCmd :=
  match c.dflt && c.kind == 2, s.image with
  | true, some img => match img.default' with
    | some d => { c with rec' := d.rec', reccap := d.reccap, mode := d.mode }
    | none => c
  | _, _ => c

/-- What every launch starts with: round counters of every channel slot are 0, but for the blocks that are skipped, and QSTAT and the
QERR records stand at reset (R72, R158, R339, R358). -/
def State.clearRounds (s : State) (skipped : List Nat) : State :=
  { s with cores := s.cores.mapV fun n c =>
      { c with
        slots := if skipped.contains n then c.slots else c.slots.mapV fun _ sl => { sl with round := 0 }
        qstat := 0, qerrm := 0, qerrc0 := 0, qerrc1 := 0 } }

/-- A recording launch begins: which blocks re-execute, their old write sets, and fresh traces (R349, R355, R358). -/
def State.beginBlocks (s0 : State) (r : Running) (x : SweepEnd) : State :=
  let all := s0.blocks
  let skipped := all.filter fun b => !x.blocks.contains b
  let s := s0.clearRounds skipped
  let old : FMap (List Range) := x.blocks.foldl (fun m b => m.put b ((s.traceSet b true).foldl unite [])) []
  let s1 := x.blocks.foldl State.beginRecording s
  { s1.setRun { r with reexec := x.blocks.length, skipped := skipped.length, iters := x.iters, flags := x.flags, ranges := x.union.length } with
    coppice := { s1.coppice with
      skippedSet := skipped, oldWrites := old, replays := [], moved := false
      union := if r.cmd.mode = 2 then x.union else s1.coppice.union } }

/-- LAUNCH: the checks, the argument tile, round state, and the sweep of a COPPICE launch (R337–R339, R355). -/
def execLaunch (s : State) : Host.Outcome State Fault Refusal :=
  match s.running with
  | none => .next s
  | some r0 =>
    if r0.cmd.kind ≠ 2 ∨ r0.phase ≠ 0 then .next s
    else match s.launchCheck r0.cmd with
      | .inr (status, detail) => .next (s.completeCmd { r0 with cmd := s.recordCmd r0.cmd } status detail 0)
      | .inl cmd => match s.readTile cmd with
        | .busy => .next s
        | .unread off =>
          .next ((s.noteBad (cmd.arg.toNat % 2 ^ 48 + off)).completeCmd { r0 with cmd } 0x22 (argsDetail 1 off) 0)
        | .refused detail => .next (s.completeCmd { r0 with cmd } 0x22 detail 0)
        | .tile payload updates =>
          let r := { r0 with cmd, payload, updates, phase := 1 }
          if cmd.mode = 1 then .next (s.beginBlocks r ⟨s.blocks, 0, 0, []⟩)
          else if cmd.mode = 2 then .next (s.beginBlocks r (s.sweep cmd payload updates))
          else .next ((s.clearRounds []).setRun r)

/-! ### Rounds (R339, R358) -/

/-- A start message enters the inbox through the core's own network interface; none while its queue has no room (R188, R339). -/
def State.startMessage (s : State) (n round : Nat) (payload : List Word) : Option State :=
  let c := s.core n
  let m : Msg := { hdr := { hdrBlank with tag := 1, round }, payload, seq := c.arrivals, ovf := false, replayed := false,
                   queue := (c.table.at 1 .blank).queue, post := none, lock := none }
  (s.countArrival n).enqueue n m

/-- Start messages still to be delivered enter in ascending core number; in a die one that cannot enter yet holds up those behind it
(DEDUCED, log entry 124). With the last of them the grid of the sweeps begins (R339, R340). -/
def State.deliverStarts (s : State) (r : Running) : State :=
  let q := r.starts.foldl (fun (a : State × List Nat) n =>
    if a.2.any fun k => coreDie k == coreDie n then (a.1, a.2 ++ [n])
    else match a.1.startMessage n r.round r.payload with
      | some t => (t, a.2)
      | none => (a.1, a.2 ++ [n])) (s, [])
  q.1.setRun { r with phase := 2, starts := q.2, sweep := none, sweepAt := s.now + 2048 }

/-- The module a slot's message goes to: that of its current route, or the own one (R358). -/
def State.slotModule (s : State) (n slot : Nat) : Nat :=
  match ((s.core n).slot slot).route with
  | some r => r.dmod
  | none => s.moduleId

/-- Log entries of a skipped block that its core re-injects in a round: those whose destination re-executes (R358). -/
def State.replayList (s : State) (n round : Nat) : List Packet :=
  (s.logOf n).filter fun p =>
    p.hdr.round == round && s.slotModule n p.hdr.sch == s.moduleId && (match (s.site p.hdr.dsite).core with
      | some d => !s.coppice.skippedSet.contains d
      | none => false)

/-- ROUND_START: updates of the round are staged, log replay is prepared, and the start messages are delivered in
ascending core number; those that could not enter follow (R198, R339, R358). -/
def execRoundStart (s : State) : Host.Outcome State Fault Refusal :=
  match s.running with
  | none => .next s
  | some r =>
    if r.phase = 2 then .next (if r.starts.isEmpty then s else s.deliverStarts r)
    else if r.phase ≠ 1 then .next s
    else
      let skip := s.coppice.skippedSet
      let mine := r.updates.filter fun u => u.2.2.1 == r.round && !skip.contains u.1
      let s1 := mine.foldl (fun t u =>
        let c := t.core u.1
        t.setCore u.1 { c with staged := c.staged.put u.2.1 u.2.2.2 }) s
      let starts := s1.blocks.filter fun n => !skip.contains n && ((s1.core n).table.at 1 .blank).valid
      let lists : FMap (List Packet) := skip.foldl (fun m n =>
        match s1.replayList n r.round with
        | [] => m
        | e :: l => m.put n (m.at n [] ++ e :: l)) s1.coppice.replays
      .next ({ s1 with coppice := { s1.coppice with replays := lists } }.deliverStarts { r with starts := sortNat starts })

/-- LOG_REPLAY: copy engine 0 of a skipped block re-injects its next logged message on the slot's current route, when its turn has
come among the engine's agents (R171, R358). -/
def execLogReplay (core : Nat) (s0 : State) : Host.Outcome State Fault Refusal :=
  let s := s0.setCore core ((s0.core core).tookTurn 0 9)
  match s.coppice.replays.at core [] with
  | [] => .next s0
  | p :: rest =>
    if !(s0.core core).turnOf 0 9 (s0.ready core 0) then .next s0 else
    let lists := if rest.isEmpty then s.coppice.replays.cut core else s.coppice.replays.put core rest
    let s1 : State := { s with coppice := { s.coppice with replays := lists } }
    match ((s1.core core).slot p.hdr.sch).route with
    | some r =>
      let h := s1.mkHeader p.hdr.kind 0 core (s1.core core).site r
      let hdr := { p.hdr with runs := h.runs, cur := 0, last := h.last, fin := h.fin, ext := h.ext, dsite := h.dsite, dmod := h.dmod, ssite := h.ssite }
      .next (s1.emit core none { p with hdr := { hdr with smod := s.moduleId } })
    | none =>
      let s2 := s1.logCore core evCoppiceDrop 0 (hdrDwords p.hdr)
      match (s2.site p.hdr.dsite).core with
      | some d => .next (s2.diverge d)
      | none => .next s2

/-! ### The end of a round and of a launch (R340, R342, R354) -/

/-- A core is idle (R340). Committed messages still to be injected count as not idle (log entry 28). -/
def State.idle (s : State) (n : Nat) : Bool :=
  let c := s.core n
  s.quiet n && (c.queues.all fun q => q.2.isEmpty) && (c.rings.all fun q => q.2.isEmpty) && c.hold.isEmpty && c.genHold.isEmpty
  && ((List.range 64).all fun t => !(c.tagpend.getLsbD t && c.tagen.getLsbD t && (c.table.at t .blank).valid))
  && (c.rounds.all fun e => !s.closeDue n e.1) && c.queuesDrained
  && ((List.range 4).all fun k => let x := s.ctx n k; x.ld == 0 && x.st == 0 && x.sy == 0)
  && (c.streams.all fun e => !e.2.bound) && c.outq.isEmpty && c.sysq.isEmpty && c.standing.isEmpty
  && (s.coppice.replays.at n []).isEmpty

/-- A launch that has run its rounds completes: with the record written, a PLAIN one makes every trace invalid, and a
recording one clears the dirty and late bits but for those that stay. While a page of the record is being moved, all of it
waits (R314, R342, R354, R358). -/
def State.closeLaunch (s : State) (r : Running) (status : Nat) (detail : Word) : State :=
  let t := s.completeCmd r status detail (tileCount s.coppice.late)
  if t.running.isSome then t
  else if r.cmd.mode = 0 then t.dropTraces
  else
    let u := t.clearDirty (if r.cmd.mode = 2 then s.divergence.2 else [])
    { u with coppice := { u.coppice with
        last := u.image.map fun i => (i.id, r.cmd.rounds, r.payload), skippedSet := [], oldWrites := [], replays := [] } }

/-- The launch ends after its last round (R342, R351, R357, R358). -/
def State.finishLaunch (s : State) (r : Running) : State :=
  if r.cmd.mode = 0 then s.closeLaunch r (if r.retired.isEmpty then 0 else 1) 0
  else
    let s1 := s.blocks.foldl State.endRecording s
    let d := s1.divergence
    let more := if r.cmd.mode = 2 then d.1.filter fun b => !r.diverged.contains b else []
    let r1 := { r with diverged := r.diverged ++ more }
    let status := if !r1.diverged.isEmpty then 4 else if r.retired.isEmpty then 0 else 1
    s1.closeLaunch r1 status 0

/-- The round ends: coalescing buffers are flushed, and the next round or the completion follows (R339, R348). -/
def State.endRound (s : State) (r : Running) : State :=
  let s1 := s.blocks.foldl (fun t n => if (t.core n).trace.recording then t.flushTrace n else t) s
  let r1 := { r with round := r.round + 1, phase := 1, sweep := none }
  if r1.round < r.cmd.rounds then s1.setRun r1 else s1.finishLaunch r1

/-! ### Taking a command (R334, R336) -/

/-- A command that has ended and waits to write its record. -/
def State.finishing (s : State) : Option (Running × Nat × Word × Nat) :=
  s.running.bind fun r => r.finish.map fun f => (r, f)

/-- QUEUE_TAKE: with no command running, the chosen queue's command is read, its slot is free again, and a command that
is not as listed completes at once (R334, R336, R337). A command that waits to write its record completes first, with the late tiles of that time (R357). -/
def execQueueTake (s : State) : Host.Outcome State Fault Refusal :=
  match s.finishing with
  | some (r, status, detail, late) =>
    if r.cmd.kind = 2 ∧ (status < 2 ∨ status = 4) then .next (s.closeLaunch r status detail)
    else .next (s.completeCmd r status detail (if status = 2 ∨ status = 3 then tileCount s.coppice.late else late))
  | none =>
  if s.running.isSome || !s.accepting then .next s
  else match s.nextQueue with
    | none => .next s
    | some q =>
      let x := s.queue q
      let slot := x.head % 128
      let p : Place := { ringPlace q with off := (ringPlace q).off + 64 * slot }
      let cmd := LaunchCmd.ofBytes (s.readPlace p 64)
      let s1 := (s.switchQueue q).setQueue q { x with swapped := false, pub := x.pub.filter fun k => k != slot, head := x.head + 1 }
      let r := Running.start q (x.ports.at slot 0) cmd s.now s.events
      let s2 := { s1 with running := some r }
      if cmd.reserved then .next (s2.completeCmd { r with cmd := s2.recordCmd cmd } 0x23 0 0) else .next s2

/-! ### Quiescence (R340) -/

/-- Every inbox message and queued engine command is discarded (R341). -/
def State.discardWork (s : State) : State :=
  { s with cores := s.cores.mapV fun _ c => { c with
      queues := [], rings := [], hold := [], genHold := [], cmds := [], jobs := [], cp := 0, mx := 0, sysq := [] } }

/-- Counts of R340 agree and nothing is left to inject. -/
def State.netQuiet (s : State) : Bool := s.injected == s.consumed && s.cores.all fun e => e.2.outq.isEmpty

/-- QUIESCENCE_SWEEP: a sweep of the die engines at a point of the grid of 2,048 cycles; two at consecutive points that agree
end the round, and an aborted launch ends when the counts agree (R340, R341). -/
def execQuiescenceSweep (s : State) : Host.Outcome State Fault Refusal :=
  match s.running with
  | none => .next s
  | some r =>
    if r.phase = 3 then
      if s.netQuiet then .next (s.discardWork.completeCmd r r.status 0 (tileCount s.coppice.late)) else .next s
    else if r.phase ≠ 2 ∨ !r.starts.isEmpty ∨ s.now < r.sweepAt ∨ (s.now - r.sweepAt) % 2048 ≠ 0 then .next s
    else
      let next := s.now + 2048
      if (s.blocks.all s.idle) && s.injected == s.consumed then
        if s.now = r.sweepAt ∧ r.sweep = some (s.injected, s.consumed) then .next (s.endRound r)
        else .next (s.setRun { r with sweep := some (s.injected, s.consumed), sweepAt := next })
      else .next (s.setRun { r with sweep := none, sweepAt := next })

/-! ### Abort and time limit (R341) -/

/-- An activation of an aborted launch ends: an app one is aborted without a trap context and what started it is discarded,
a system one ends as TRET discard would end it (R341). -/
def State.endForLaunch (s : State) (core ctx : Nat) : State :=
  match (s.ctx core ctx).act with
  | none => s
  | some a =>
    let x := s.ctx core ctx
    let t := s.setCore core ((s.core core).standPhase ctx x)
    match a.mode with
    | .system => (t.trapReturn core ctx false).afterTrap core ctx x.epoch
    | .app => (t.setCore core ((((t.core core).unbindAll ctx).discardHeld ctx a).endTwin ctx x.epoch)).setCtx core ctx x.freed

/-- What would be replayed has ended with the launch: closes and activations awaited for a replay, and the senders of packets
whose twins are still to be compared (R205, R341). -/
def Core.endReplays (c : Core) : Core :=
  { c with
    reclose := [], outq := c.outq.map fun m => { m with sender := none }
    pair := c.pair.map fun p => { p with again := [], waiting := p.waiting.map fun w => { w with sender := none } } }

def State.endReplays (s : State) : State := { s with cores := s.cores.mapV fun _ c => c.endReplays }

/-- The launch is ended with a status: activations end, work is discarded, and traces are flushed and become invalid (R341, R348,
R354). -/
def State.stopLaunch (s : State) (r : Running) (status : Nat) : State :=
  let s1 := (s.ctxs.foldl (fun t e => t.endForLaunch (e.1 / 4) (e.1 % 4)) s).endReplays
  let s2 := s1.blocks.foldl (fun t n => if (t.core n).trace.recording then t.flushTrace n else t) s1
  let s3 := s2.discardWork.dropTraces
  { s3.setRun { r with phase := 3, status, starts := [], cmd := if r.phase = 0 then s.recordCmd r.cmd else r.cmd } with
    coppice := { s3.coppice with skippedSet := [], oldWrites := [], replays := [] } }

/-- A launch that can be ended is running: from its take on (R341). -/
def Running.stoppable (r : Running) : Bool := r.cmd.kind == 2 && decide (r.phase ≤ 2)

/-- A write to LABORT (R333, R341). -/
def State.abortLaunch (s : State) (v : Word) : State :=
  match s.running with
  | none => s
  | some r => if v.getLsbD 0 && r.stoppable then s.stopLaunch r 2 else s

/-- LABORT: a host write of 1 to bit 0 (R333, R341). -/
def execLabort (v : Word) (s : State) : Host.Outcome State Fault Refusal := s.hostDo (.abort v) (some (s.abortLaunch v))

/-- LAUNCH_TIMEOUT: `limit` µs have passed since the take (R341). -/
def execLaunchTimeout (s : State) : Host.Outcome State Fault Refusal :=
  match s.running with
  | none => .next s
  | some r =>
    if r.stoppable && r.cmd.limit != 0 && decide (r.took + r.cmd.limit * usec ≤ s.now) then .next (s.stopLaunch r 3)
    else .next s

end Sys2Proof.Machine
end

