-- ==== Sys2Proof/Machine/Fabric.lean ====
section
/-! DEFINITION. Optical ports (R377–R399): training and going down, groups and replay, keys, loss of light and restriping,
lasers, PTP, rotations and slots. -/

namespace Sys2Proof.Machine

open Sys2Proof

/-! ### Events (R387, R395) -/

def evLos : Nat := 0x40
def evRestripe : Nat := 0x41
def evPortDown : Nat := 0x42
def evReplay : Nat := 0x43
def evRekeyDue : Nat := 0x44
def evKeyExhausted : Nat := 0x45
def evLaserAge : Nat := 0x46
def evSlotOverrun : Nat := 0x47
def evPtpLost : Nat := 0x48

/-- The site a port's events name: its span site 0 (R399). -/
def portSite (p : Nat) : Nat := (spanSite p 0).1

/-- Log an event of a port: port number, lane mask, count (R395, R398). -/
def State.logPort (s : State) (p code mask count : Nat) : State :=
  s.log (siteDie (portSite p)) code (portSite p) none (w64 (p % 64 + mask % 2 ^ 16 * 2 ^ 16 + count % 2 ^ 32 * 2 ^ 32)) []

/-- A bit of PEVT sets; when it was clear, the port's vector is raised (R387). -/
def State.raise (s : State) (p i : Nat) : State :=
  let q := s.port p
  if bit q.evt i then s
  else
    let t := s.setPort p { q with evt := q.evt + 2 ^ i }
    { t with hostOut := t.hostOut ++ [.msix q.vector] }

/-- Lanes of a mask. -/
def laneCount (m : Nat) : Nat := ((List.range 16).filter fun i => bit m i).length

/-- Lanes of `m` that are not in `k`. -/
def lanesLess (m k : Nat) : Nat := ((List.range 16).filter fun i => bit m i && !bit k i).foldl (fun n i => n + 2 ^ i) 0

/-- A count that stops at 2^32 − 1 (R387). -/
def addSat (x n : Nat) : Nat := if x + n < 2 ^ 32 then x + n else 2 ^ 32 - 1

/-! ### Contexts of a port -/

def State.fabCtx (s : State) (p c : Nat) : FabCtx := (s.port p).ctxs.at c .blank
def State.setFabCtx (s : State) (p c : Nat) (x : FabCtx) : State :=
  let q := s.port p
  s.setPort p { q with ctxs := q.ctxs.put c x }

/-- A port sends a frame. -/
def State.sendFrame (s : State) (p : Nat) (f : Frame) : State :=
  let q := s.port p
  s.setPort p { q with sent := q.sent ++ [f] }

/-! ### Training and going down (R380, R384, R387) -/

/-- The packets that wait for a port, oldest first, with their span sites. -/
def State.waitingAt (s : State) (p : Nat) : List (Nat × Flight) :=
  s.net.filterMap fun f => match f.spot with
    | .egress q i => if q = p then some (i, f) else none
    | .queued | .buffer | .eject _ | .parked _ _ _ | .replay _ _ | .intake => none

/-- A packet that has left its span site, for a report from there. -/
def ghost (id p span cls : Nat) (pkt : Packet) : Flight :=
  let site := (spanSite p span).1
  Flight.unhopped ⟨id, id, pkt, site, 0, none, 4, cls, false, true, .buffer, false, []⟩ site

/-- The packet whose first flits have left in a group, and which waits with the others. -/
def splitPacket (l : List FabFlit) : Option (Nat × Nat × Packet) :=
  match l with
  | .flit span pkt cls _ _ :: _ => some (span, cls, pkt)
  | .null :: _ => none
  | [] => none

/-- What waits for a port is dropped with reason 3 (R226, R380). -/
def State.dropEgress (s : State) (p : Nat) : State :=
  let s1 := (s.waitingAt p).foldl (fun t f =>
    let g := f.2.unhopped f.2.site
    (t.setFlight g).dropFlight g 3) s
  (s1.port p).ctxs.foldl (fun t e => match splitPacket e.2.filling with
    | some (span, cls, pkt) => t.dropFlight (ghost t.fresh p span cls pkt) 3
    | none => t) s1

/-- A port goes down (R380): PORT_DOWN with the stripe map it had, the span links marked down, what waits dropped. -/
def State.portDown (s : State) (p : Nat) : State :=
  let q := s.port p
  if q.state < 2 then s.setPort p { q with state := 0 }
  else
    let s1 := (s.setPort p { q with state := 0, lanes := 0, txLanes := 0, slot := none }).logPort p evPortDown q.lanes 0
    let s2 := (List.range 16).foldl (fun t i => t.markDown (spanSite p i).1 (spanSite p i).2) s1
    let s3 := s2.dropEgress p
    let r := s3.port p
    (s3.setPort p { r with ctxs := r.ctxs.mapV fun _ x => { x with filling := [] } }).raise p 2

/-- A context at training: counters, keys in use and held groups start afresh; what is staged stays (log entry 29). -/
def FabCtx.trained (x : FabCtx) : FabCtx :=
  { FabCtx.blank with staging := x.staging, pending := x.pending, peerPend := x.peerPend }

/-- Training begins on a port that is down and whose mode is not off (R387, log entry 29). -/
def State.trainPort (s : State) (p : Nat) : State :=
  let q := s.port p
  if q.state ≠ 0 ∨ q.mode = 0 then s.setPort p { q with enable := true }
  else s.setPort p { q with
    enable := true, state := 1, cryptOn := q.crypt, ctxs := q.ctxs.mapV fun _ x => FabCtx.trained x, credits := [], back := []
    lost := 0, unlit := 0, slot := none }

/-- A port is taken down by software (R387). -/
def State.disablePort (s : State) (p : Nat) : State :=
  let t := s.portDown p
  t.setPort p { t.port p with enable := false }

/-- PORT_TRAIN (R387). -/
def execPortTrain (p : Nat) (s : State) : Host.Outcome State Fault Refusal := .next (s.trainPort p)

/-- PORT_DISABLE (R387). -/
def execPortDisable (p : Nat) (s : State) : Host.Outcome State Fault Refusal := .next (s.disablePort p)

/-- A span link is up again, unless the manifest faults it (R328). -/
def State.markUp (s : State) (site : Nat) (d : Dir) : State :=
  let e := s.site site
  let b := downBit d
  if bit (s.manifest.at site .blank).links b || !bit e.down b then s else s.setSite site { e with down := e.down - 2 ^ b }

/-! ### Keys (R388, R390) -/

/-- The key of an index, current or pending. -/
def FabCtx.keyNamed (x : FabCtx) (idx : Nat) : Option Key :=
  match x.cur with
  | some k => if k.idx = idx then some k else x.pending.filter fun k => k.idx == idx
  | none => x.pending.filter fun k => k.idx == idx

/-- The receiver goes over to the announced key once every group of the old one has been accepted (R383, R390). -/
def FabCtx.rxTurn (x : FabCtx) : FabCtx :=
  match x.rxSwitch with
  | some (idx, n) =>
    if x.expected ≠ n then x
    else match x.keyNamed idx with
      | some k => { x with rxKey := some k, rxSwitch := none, expected := 0, nakSent := false, fails := [] }
      | none => x
  | none => x

/-- Largest counter no group takes (R390). -/
def lastCounter : Nat := 2 ^ 40 - 1

/-- The transmitter applies its pending key, which uses up the peer's report (R390). -/
def State.switchKey (s : State) (p c : Nat) (k : Key) : State :=
  let x := s.fabCtx p c
  let s1 := (s.setFabCtx p c { x with cur := some k, pending := none, peerPend := none, ctr := 0 }).sendFrame p (.keySwitch c k.idx x.ctr)
  let q := s1.port p
  if q.state = 3 ∧ !(q.ctxs.any fun e => e.2.ctr == lastCounter) then s1.setPort p { q with state := 2 } else s1

/-- The peer holds a pending key of the index that is pending here (R388). -/
def FabCtx.peerSame (x : FabCtx) : Bool :=
  match x.pending, x.peerPend with
  | some k, some i => k.idx == i
  | _, _ => false

/-- The switch is made on a port that encrypts and is up once both ends hold a pending key of one index (R390). -/
def State.trySwitch (s : State) (p c : Nat) : State :=
  let q := s.port p
  match (s.fabCtx p c).pending with
  | some k => if (s.fabCtx p c).peerSame && q.cryptOn && decide (2 ≤ q.state) then s.switchKey p c k else s
  | none => s

/-- A PSALT write stages key, salt and index, and the peer is told of the pending index (R388, R390). -/
def State.stageKey (s : State) (p : Nat) (v : Word) : State :=
  let c := (s.port p).sel
  let x := s.fabCtx p c
  let idx := bits v.toNat 63 56
  ((s.setFabCtx p c { x with pending := some ⟨x.staging, v.setWidth 56, idx⟩ }).sendFrame p (.keyPending c idx)).trySwitch p c

/-- KEY_STAGE (R388). -/
def execKeyStage (p : Nat) (v : Word) (s : State) : Host.Outcome State Fault Refusal := .next (s.stageKey p v)

/-- The peer's pending key is one no more when the peer has switched to it (R388). -/
def FabCtx.peerSwitched (x : FabCtx) (idx : Nat) : FabCtx := { x with peerPend := if x.peerPend = some idx then none else x.peerPend }

/-- KEY_SWITCH: a frame reports the peer's pending index, and the switch is made when it is this end's; or, with `count`,
announces that the peer has switched after so many groups (R390). -/
def execKeySwitch (p c idx : Nat) (count : Option Nat) (s : State) : Host.Outcome State Fault Refusal :=
  let x := s.fabCtx p c
  match count with
  | some n => .next (s.setFabCtx p c (FabCtx.rxTurn { x.peerSwitched idx with rxSwitch := some (idx, n) }))
  | none => .next ((s.setFabCtx p c { x with peerPend := some idx }).trySwitch p c)

/-- PORT_TRAINED: training ends with these lanes; with fewer than 4 the port stays down. Die management enters the fibre the port
has found, and keys that both ends staged before are switched to (R380, R387, R390, R394, log entry 104). -/
def execPortTrained (p : Nat) (lanes : BitVec 16) (s : State) : Host.Outcome State Fault Refusal :=
  let q := s.port p
  if q.state ≠ 1 then .next s
  else if laneCount lanes.toNat < 4 then .next (s.setPort p { q with state := 0 })
  else
    let s1 := s.setPort p { q with state := 2, lanes := lanes.toNat, txLanes := lanes.toNat, mapped := true }
    let s2 := (List.range 16).foldl (fun t i => t.markUp (spanSite p i).1 (spanSite p i).2) s1
    .next (q.ctxs.foldl (fun t e => t.trySwitch p e.1) s2)

/-! ### PTP, rotations and slots (R391–R393) -/

/-- PTP nanoseconds now (log entry 3). -/
def State.ptpNow (s : State) : Nat := s.ptp.time + (s.now - s.ptp.lastSync) * 5 / 6

/-- A second in cycles (log entry 3). -/
def secondCycles : Nat := 1200000000

def ptpGood (o : Int) : Bool := decide (o ≤ 50) && decide (-50 ≤ o)

/-- PTP_SYNC: a Sync message brings the time and the offset (R391). -/
def execPtpSync (offset : Int) (time : Nat) (s : State) : Host.Outcome State Fault Refusal :=
  .next { s with ptp := { s.ptp with
    offset, time, lastSync := s.now
    goodSince := if ptpGood offset then some (s.ptp.goodSince.getD s.now) else none } }

/-- PTP_LOST: slotted ports send no new group, and each tells of it (R391). -/
def execPtpLost (s : State) : Host.Outcome State Fault Refusal :=
  if s.ptp.lost || (ptpGood s.ptp.offset && decide (s.now ≤ s.ptp.lastSync + 2 * secondCycles)) then .next s
  else
    let s1 := { s with ptp := { s.ptp with lost := true, goodSince := none } }
    .next ((List.range 64).foldl (fun t p =>
      if (t.port p).mode = 2 then (t.logPort p evPtpLost 0 0).raise p 7 else t) s1)

/-- PTP_RESUME (R391). -/
def execPtpResume (s : State) : Host.Outcome State Fault Refusal :=
  match s.ptp.goodSince with
  | some t => .next (if s.ptp.lost && decide (t + secondCycles ≤ s.now) then { s with ptp := { s.ptp with lost := false } } else s)
  | none => .next s

/-- Sum of the durations of entries. -/
def durations (l : List SlotEntry) : Nat := (l.map fun e => e.duration).sum

/-- The table as SLOTCTL has it run. -/
def State.tableNow (s : State) : List SlotEntry := (List.range s.slotN).map fun i => s.slotTable.at i .blank

/-- End of the rotation in progress. -/
def State.rotationEnd (s : State) : Nat :=
  match s.rotation with
  | some (t, l) => t + durations l
  | none => 0

/-- ROTATION_START: the rotation that PTP time has reached starts, and the table is read (R392). -/
def execRotationStart (s : State) : Host.Outcome State Fault Refusal :=
  let l := s.tableNow
  let r := durations l
  let t := s.ptpNow
  if !s.slotRun then .next { s with rotation := none }
  else if r = 0 ∨ t < s.slotEpoch ∨ t < s.rotationEnd then .next s
  else .next { s with rotation := some (s.slotEpoch + (t - s.slotEpoch) / r * r, l) }

/-- Start and end of a slot of the rotation in progress. -/
def State.slotTimes (s : State) (i : Nat) : Option (Nat × Nat) :=
  match s.rotation with
  | some (t, l) => match l[i]? with
    | some e => some (t + durations (l.take i), t + durations (l.take i) + e.duration)
    | none => none
  | none => none

/-- SLOT_START: a port's slot begins; what it holds unacknowledged for the slot's peer is sent again first (R393). -/
def execSlotStart (p slot : Nat) (s : State) : Host.Outcome State Fault Refusal :=
  let q := s.port p
  match s.slotTimes slot with
  | none => .next s
  | some (a, b) =>
    if q.mode ≠ 2 ∨ s.ptpNow < a ∨ b ≤ s.ptpNow ∨ q.slot = some (slot, b) then .next s
    else
      let s1 := s.setPort p { q with slot := some (slot, b) }
      match SlotEntry.peer (s.slotEntries.getD slot .blank) p with
      | none => .next s1
      | some m =>
        let c := s1.peerCtx p m
        let x := s1.fabCtx p c
        .next (s1.setFabCtx p c { x with resend := if x.held.isEmpty then none else some 0 })

/-- The sending window of a slotted port to the peer of a context: from the slot's start and guard to its end; a fibre port
always sends on context 0 (R393). -/
def State.window (s : State) (p c : Nat) : Bool :=
  let q := s.port p
  if q.mode ≠ 2 then c == 0
  else match q.slot with
    | none => false
    | some (i, stop) =>
      let e := s.slotEntries.getD i .blank
      let t := s.ptpNow
      decide (stop + e.guard ≤ t + e.duration) && decide (t < stop)
        && (match SlotEntry.peer e p with
            | some m => s.peerCtx p m == c
            | none => false)

/-- The `n`-th group from now can end in time: by slot end − (230 + 10 L) ns, 17 flits taking 23.12 / A ns on A lanes (R382,
R393). -/
def State.endsInTime (s : State) (p n : Nat) : Bool :=
  let q := s.port p
  match q.mode, q.slot with
  | 2, some (_, stop) =>
    let a := laneCount q.txLanes
    decide (s.ptpNow * (100 * a) + n * 2312 + (230 + 10 * q.metres) * (100 * a) ≤ stop * (100 * a))
  | _, _ => true

/-! ### Sending groups (R381, R383, R390) -/

def flitsOf (span : Nat) (f : Flight) : List FabFlit :=
  let n := pktFlits f.pkt
  (List.range n).map fun i => .flit span f.pkt f.cls i (i + 1 == n)

def insertStamp (a : Nat × Flight) : List (Nat × Flight) → List (Nat × Flight)
  | [] => [a]
  | b :: t => if a.2.stamp ≤ b.2.stamp then a :: b :: t else b :: insertStamp a t

def sortStamp : List (Nat × Flight) → List (Nat × Flight)
  | [] => []
  | a :: t => insertStamp a (sortStamp t)

/-- Packets that wait for a context of a port, in the order they left their span routers. -/
def State.waitingFor (s : State) (p c : Nat) : List (Nat × Flight) :=
  sortStamp ((s.waitingAt p).filter fun f => s.peerCtx p f.2.pkt.hdr.dmod == c)

/-- The packets that credits of the peer's receive buffer let go, in their order; one that waits for credits keeps back those
of its lane (R379). -/
def withCredits (left : Nat → Nat) : List (Nat × Flight) → List (Nat × Flight)
  | [] => []
  | (span, f) :: t =>
    let n := pktFlits f.pkt
    if n ≤ left f.lane then (span, f) :: withCredits (fun l => if l = f.lane then left l - n else left l) t
    else withCredits (fun l => if l = f.lane then 0 else left l) t

/-- Packets that may go into a group now: those of a fibre port have their credits, those of a slotted one need them (R379,
R393, log entry 50). -/
def State.sendable (s : State) (p c : Nat) : List (Nat × Flight) :=
  let q := s.port p
  if q.mode = 2 then withCredits (fun l => q.credits.at (creditKey c l) receiveFlits) (s.waitingFor p c) else s.waitingFor p c

/-- The packet goes into a group of a slotted port and takes its credits (R379, R393). -/
def State.takeCredits (s : State) (p c : Nat) (f : Flight) : State :=
  let q := s.port p
  let k := creditKey c f.lane
  if q.mode = 2 then s.setPort p { q with credits := q.credits.put k (q.credits.at k receiveFlits - pktFlits f.pkt) } else s

/-- Packets taken into the next group: all flits in order, and the packets started. A packet starts when the group of its
last flit ends in time. -/
def fillGroup (inTime : Nat → Bool) : List (Nat × Flight) → List FabFlit → List FabFlit × List Nat
  | [], acc => (acc, [])
  | (span, f) :: t, acc =>
    if acc.length ≥ 16 ∨ !inTime ((acc.length + pktFlits f.pkt + 15) / 16) then (acc, [])
    else
      let r := fillGroup inTime t (acc ++ flitsOf span f)
      (r.1, f.id :: r.2)

/-- The events of a counter's limits (R390). -/
def State.counterLimit (s : State) (p ctr : Nat) : State :=
  if !(s.port p).cryptOn then s
  else if ctr = 2 ^ 39 then (s.logPort p evRekeyDue 0 0).raise p 3
  else if ctr = lastCounter then ((s.setPort p { s.port p with state := 3 }).logPort p evKeyExhausted 0 0).raise p 4
  else s

/-- A new data group of these flits leaves: it is numbered, sealed and held (R381, R383, R390). -/
def State.newGroup (s : State) (p c : Nat) (flits left : List FabFlit) : State :=
  let q := s.port p
  let x := s.fabCtx p c
  let k := x.cur.getD ⟨0, 0, 0⟩
  let full := flits ++ List.replicate (16 - flits.length) FabFlit.null
  let g : Group := ⟨c, x.ctr, k.idx, k.key, k.salt, q.cryptOn, full⟩
  let ctr := (x.ctr + 1) % 2 ^ 40
  let s1 := s.setFabCtx p c { x with ctr, held := x.held ++ [g], filling := left, fillAt := s.now }
  (s1.sendFrame p (.group g)).counterLimit p ctr

/-- A new group may be sent (R380, R383, R390, R391). -/
def State.mayStart (s : State) (p : Nat) (x : FabCtx) : Bool :=
  let q := s.port p
  q.state == 2 && decide (x.held.length < 512) && !(q.mode == 2 && s.ptp.lost)
    && (!q.cryptOn || (x.cur.isSome && x.ctr != lastCounter))

/-- A packet cannot end in its slot: SLOT_OVERRUN, at most once a rotation (R393). -/
def State.overrun (s : State) (p : Nat) : State :=
  let q := s.port p
  let rot := s.rotation.map fun r => r.1
  if q.overrunRot = rot then s
  else ((s.setPort p { q with overrunRot := rot }).logPort p evSlotOverrun 0 0).raise p 6

/-- A packet that has not started behind `n` flits can no longer end in its slot, whatever holds it: time, the replay buffer,
credits, the keys (R393). -/
def State.heldPast (s : State) (p n : Nat) (w : List (Nat × Flight)) : Bool :=
  w.any fun f => !s.endsInTime p ((n + pktFlits f.2.pkt + 15) / 16)

/-- GROUP_SEND: held groups that are to be resent go first; then a group that is full, or 20 ns old. What waits behind a group
that cannot end in its slot is held too (R381, R383, R393). -/
def execGroupSend (p c : Nat) (s : State) : Host.Outcome State Fault Refusal :=
  let x := s.fabCtx p c
  if (s.port p).state < 2 ∨ !s.window p c then .next s
  else match x.resend with
    | some i => match x.held[i]? with
      | some g =>
        if s.endsInTime p 1 then
          .next ((s.setFabCtx p c { x with resend := if i + 1 < x.held.length then some (i + 1) else none }).sendFrame p (.group g))
        else .next (if (s.waitingFor p c).isEmpty then s else s.overrun p)
      | none => .next (s.setFabCtx p c { x with resend := none })
    | none =>
      if !s.mayStart p x then .next (if s.heldPast p x.filling.length (s.waitingFor p c) then s.overrun p else s)
      else
        let w := s.sendable p c
        let r := fillGroup (s.endsInTime p) w x.filling
        let left := (s.waitingFor p c).filter fun f => !r.2.contains f.2.id
        let s1 := if r.1.length < 16 ∧ s.heldPast p r.1.length left = true then s.overrun p else s
        if r.1.length ≥ 16 ∨ (r.1 ≠ [] ∧ x.fillAt + 24 ≤ s.now) then
          let s2 := (w.filter fun f => r.2.contains f.2.id).foldl (fun t f => t.takeCredits p c f.2) s1
          .next ((r.2.foldl State.consume s2).newGroup p c (r.1.take 16) (r.1.drop 16))
        else .next s1

/-! ### Receiving groups (R378, R383, R384) -/

/-- A packet comes in at its span site: the ingress port is recorded, and it stands at the first hop of a run (R378). -/
def State.ingress (s : State) (p span cls : Nat) (pkt : Packet) : State :=
  let a := spanSite p span
  let h : Header := { pkt.hdr with ingress := pkt.hdr.ingress ++ [p] }
  { s with
    net := s.net ++ [{ id := s.fresh, stamp := s.fresh, pkt := { pkt with hdr := h }, site := a.1, came := s.now,
                       inDir := some a.2, inPort := 0, cls, nonW := false, first := true, spot := .buffer, treated := false }]
    fresh := s.fresh + 1, injected := s.injected + 1 }

/-- The flits of an accepted group go to the span routers; a packet is there with its tail (R383). -/
def State.takeFlits (s : State) (p : Nat) (l : List FabFlit) : State :=
  l.foldl (fun t f => match f with
    | .flit span pkt cls _ true => t.ingress p span cls pkt
    | .flit _ _ _ _ false => t
    | .null => t) s

/-- The group is sealed under the key the receiver expects, or neither end seals (R383, R390). -/
def Group.verifies (g : Group) (cryptOn : Bool) (k : Option Key) : Bool :=
  match cryptOn, k with
  | false, _ => !g.sealed
  | true, some k => g.sealed && g.key == k.key && g.salt == k.salt
  | true, none => false

def rxIndex (x : FabCtx) : Nat := match x.rxKey with
  | some k => k.idx
  | none => 0

/-- A group's counter lies ahead of the expected one, or under a key still to come. -/
def FabCtx.ahead (x : FabCtx) (g : Group) : Bool :=
  g.keyIdx != rxIndex x || (g.counter != x.expected && decide ((g.counter + 2 ^ 40 - x.expected) % 2 ^ 40 < 2 ^ 39))

/-- A discarded group: one NAK, and down after 16 failures of the same group (R383, R384). -/
def State.discardGroup (s : State) (p : Nat) (g : Group) (intact : Bool) : State :=
  let x := s.fabCtx p g.ctx
  let n := x.fails.at g.counter 0 + 1
  let nak := !x.nakSent && !(intact && x.ahead g)
  let s1 := s.setFabCtx p g.ctx { x with fails := x.fails.put g.counter n, nakSent := x.nakSent || nak }
  let s2 := if nak then s1.sendFrame p (.nak g.ctx (rxIndex x) x.expected) else s1
  if n ≥ 16 then s2.portDown p else s2

/-- Lanes without light, detected or not yet (R385, R398). -/
def Port.noLight (q : Port) : Nat := q.lost + lanesLess q.unlit q.lost

/-- Dark lanes of the receive map: every group has flits on each lane of the map (R382, R398). -/
def Port.dark (q : Port) : Nat := lanesLess q.lanes (lanesLess 0xFFFF q.noLight)

/-- GROUP_RECEIVE: a group arrives, with the checks of its CRC and of its flits, and the mask of the lanes whose codeword was
uncorrectable (R382–R384). Flits of such a codeword and flits on a dark lane are bad; what a dark lane carries is not counted
from the cycle its light stops arriving (R382, R398, log entry 72). -/
def execGroupReceive (p : Nat) (g : Group) (crcGood flitsGood : Bool) (uncorr : Nat) (s : State) :
    Host.Outcome State Fault Refusal :=
  let q := s.port p
  if q.state < 2 then .next s
  else
    let wrong := lanesLess (uncorr % 2 ^ 16) q.noLight
    let s1 := s.setPort p { q with uncorr := addSat q.uncorr (laneCount wrong) }
    let x := s1.fabCtx p g.ctx
    let whole := crcGood && flitsGood && wrong == 0 && q.dark == 0
    let intact := whole && Group.verifies g q.cryptOn x.rxKey
    if intact && g.counter == x.expected then
      let x1 : FabCtx := { x with expected := (x.expected + 1) % 2 ^ 40, nakSent := false, fails := x.fails.cut g.counter }
      let s2 := (s1.setFabCtx p g.ctx x1.rxTurn).sendFrame p (.ack g.ctx g.keyIdx g.counter)
      .next (s2.takeFlits p g.flits)
    else .next (s1.discardGroup p g whole)

/-! ### Acknowledgements, NAKs, credits (R379, R383, R398) -/

/-- Index of the held group a control frame names. -/
def heldIndex (l : List Group) (key counter : Nat) : Option Nat := l.findIdx? fun g => g.keyIdx == key && g.counter == counter

/-- ACK_FRAME: every held group up to the named one is free (R383). -/
def execAckFrame (p c key upto : Nat) (s : State) : Host.Outcome State Fault Refusal :=
  let x := s.fabCtx p c
  match heldIndex x.held key upto with
  | none => .next s
  | some i =>
    let left := x.held.drop (i + 1)
    .next (s.setFabCtx p c { x with
      held := left
      resend := match x.resend with
        | some j => if left.isEmpty then none else some (j - (i + 1))
        | none => none })

/-- A replay starts: it is counted, and REPLAY falls due (R384, R398). -/
def State.countReplay (s : State) (p : Nat) : State :=
  let q := s.port p
  s.setPort p { q with
    replays := addSat q.replays 1, replayN := q.replayN + 1, replayAt := some (q.replayAt.getD s.now) }

/-- NAK_FRAME: the transmitter goes back to the named group (R383). -/
def execNakFrame (p c key counter : Nat) (s : State) : Host.Outcome State Fault Refusal :=
  let x := s.fabCtx p c
  match heldIndex x.held key counter with
  | none => .next s
  | some i => .next ((s.setFabCtx p c { x with resend := some i }).countReplay p)

/-- The context of the peer whose control frames reach a port now: in slotted mode of the peer of the slot in progress (R393). -/
def State.frameCtx (s : State) (p : Nat) : Nat :=
  match (s.port p).mode, (s.port p).slot with
  | 2, some (i, _) => (match SlotEntry.peer (s.slotEntries.getD i .blank) p with
    | some m => s.peerCtx p m
    | none => 0)
  | _, _ => 0

/-- FABRIC_CREDIT_FRAME: credits of a lane of the peer's receive buffer return (R379, R393). -/
def execFabricCreditFrame (p lane n : Nat) (s : State) : Host.Outcome State Fault Refusal :=
  let q := s.port p
  let k := creditKey (s.frameCtx p) lane
  let c := q.credits.at k receiveFlits + n
  .next (s.setPort p { q with credits := q.credits.put k (if c < receiveFlits then c else receiveFlits) })

/-- REPLAY_LOG: 1 ms after the first replay since the last event (R384, R398). -/
def execReplayLog (p : Nat) (s : State) : Host.Outcome State Fault Refusal :=
  let q := s.port p
  match q.replayAt with
  | none => .next s
  | some t =>
    if s.now < t + 1000 * usec then .next s
    else .next ((s.setPort p { q with replayAt := none, replayN := 0 }).logPort p evReplay 0 q.replayN)

/-! ### Light (R385, R398) -/

/-- LOS: the light of lanes stops arriving, which the port does not know yet; given again, the loss is detected. The ends agree a map
without the lanes lost; with fewer than 4 left the port goes down (R380, R385, R398; that LOS runs in these two steps is the model's,
DESIGN CHOICE, log entry 122). -/
def execLos (p : Nat) (lanes : BitVec 16) (s : State) : Host.Outcome State Fault Refusal :=
  let q := s.port p
  let gone := lanesLess lanes.toNat q.lost
  let dark := lanesLess gone q.unlit
  let new := lanesLess gone dark
  let back := (List.range 16).foldl (fun b i => if bit gone i then b.cut i else b) q.back
  if q.state < 2 ∨ gone = 0 then .next s
  else if new = 0 then .next (s.setPort p { q with unlit := q.unlit + dark, back })
  else
    let lost := q.lost + new
    let s1 := ((s.setPort p { q with lost, unlit := lanesLess q.unlit new + dark, back }).logPort p evLos new 0).raise p 0
    let left := lanesLess q.lanes lost
    .next (if laneCount left < 4 then s1.portDown p else s1.sendFrame p (.stripe left))

/-- Cycles a lane holds light before it rejoins (R385, log entry 3). -/
def rejoinCycles : Nat := 120000000

/-- A lane may stand in a new receive map: it stands in the present one with light, or has held light for 100 ms (R385). -/
def Port.laneReady (q : Port) (now i : Nat) : Bool :=
  match q.back.look i with
  | some t => decide (t + rejoinCycles ≤ now)
  | none => bit q.lanes i && !bit q.lost i

/-- A new map of one direction takes effect (R385, R398); too few lanes take the port down (R380). -/
def State.restripeTo (s : State) (p : Nat) (rx : Bool) (lanes : Nat) : State :=
  let q := s.port p
  if rx then
    let m := ((List.range 16).filter fun i => bit lanes i && q.laneReady s.now i).foldl (fun n i => n + 2 ^ i) 0
    let back := (List.range 16).foldl (fun b i => if bit m i then b.cut i else b) q.back
    let s1 := ((s.setPort p { q with lanes := m, back }).logPort p evRestripe m 0).raise p 1
    if laneCount m < 4 then s1.portDown p else s1
  else
    let s1 := ((s.setPort p { q with txLanes := lanes }).logPort p evRestripe lanes 0).raise p 1
    if laneCount lanes < 4 then s1.portDown p
    else
      let s2 := s1.setPort p { s1.port p with ctxs := q.ctxs.mapV fun _ x => if x.held.isEmpty then x else { x with resend := some 0 } }
      if q.ctxs.any fun e => !e.2.held.isEmpty then s2.countReplay p else s2

/-- RESTRIPE (R385, R398). -/
def execRestripe (p : Nat) (rx : Bool) (lanes : BitVec 16) (s : State) : Host.Outcome State Fault Refusal :=
  if (s.port p).state < 2 then .next s else .next (s.restripeTo p rx lanes.toNat)

/-- LANE_REJOIN: a lane's light is back; once it has held for 100 ms the ends agree a map with it, which takes effect at a restripe
(R385). -/
def execLaneRejoin (p lane : Nat) (s : State) : Host.Outcome State Fault Refusal :=
  let q := s.port p
  if q.state < 2 ∨ (q.back.look lane).isNone && bit q.lanes lane && !bit q.noLight lane then .next s
  else match q.back.look lane with
    | none => .next (s.setPort p { q with
        back := if bit q.lost lane || !bit q.lanes lane then q.back.put lane s.now else q.back
        lost := lanesLess q.lost (2 ^ lane), unlit := lanesLess q.unlit (2 ^ lane) })
    | some t =>
      if s.now < t + rejoinCycles then .next s
      else .next (s.sendFrame p (.stripe (if bit q.lanes lane then q.lanes else q.lanes + 2 ^ lane)))

/-! ### Lasers (R389, R398) -/

/-- The lanes a source feeds (R380). -/
def sourceLanes (l : Nat) : Nat := 15 * 2 ^ (4 * l)

/-- LASER_AGE (R389). -/
def State.laserAge (s : State) (p l : Nat) : State := (s.logPort p evLaserAge (sourceLanes l) 0).raise p 5

/-- LASER_FAILURE_DETECT (R398). -/
def execLaserFailureDetect (p l : Nat) (s : State) : Host.Outcome State Fault Refusal :=
  let q := s.port p
  let x := q.lasers.at l .blank
  if x.failed then .next s
  else
    let y : Laser := { x with failed := true, rem := 0, power := 0xF060 }
    .next ((s.setPort p { q with lasers := q.lasers.put l y }).laserAge p l)

/-- LREM (R389); `none` where the quotient does not fit the field. -/
def laserRem (b0 bias : Nat) (trend : Int) : Option Nat :=
  if trend ≤ 0 then some 0xFFFF_FFFF
  else if 3 * b0 ≤ 2 * bias then some 0
  else
    let r := (3 * b0 - 2 * bias) * 1000 / (2 * trend.toNat)
    if r < 2 ^ 32 then some r else none

/-- LASER_MONITOR_UPDATE: die management updates a source's registers (R389). B0 is recorded by the first update; where that one
came after the first powered hour it is a free value, as is a remaining time that does not fit its field (log entries 8, 74). -/
def execLaserMonitorUpdate (p l : Nat) (bias power temp hours trend drift : Word) (s : State) :
    Host.Outcome State Fault Refusal :=
  let q := s.port p
  let x := q.lasers.at l .blank
  let low : Word → Nat → Word := fun v n => w64 (v.toNat % 2 ^ n)
  let b := bias.toNat % 2 ^ 32
  let b0 := x.b0.getD (if hours.toNat % 2 ^ 32 ≤ 1 then b else (Config.freeWord (s.fresh + 1)).toNat % 2 ^ 32)
  let rem : Word := if x.failed then 0 else match laserRem b0 b (sextNat trend.toNat 32) with
    | some r => w64 r
    | none => w64 ((Config.freeWord s.fresh).toNat % 2 ^ 32)
  let y : Laser := ⟨low bias 32, low power 16, low temp 16, low hours 32, low trend 32, rem, drift, some b0, x.failed⟩
  let s1 := (s.setPort p { q with lasers := q.lasers.put l y }).tick.tick
  .next (if 1000 ≤ x.rem.toNat ∧ rem.toNat < 1000 then s1.laserAge p l else s1)

end Sys2Proof.Machine
end

