-- ==== Sys2Proof/Machine/Host.lean ====
section
/-! DEFINITION. What the host reaches: the aperture of BAR4 (R343), the registers of BAR0 as they read and as they are
written (R6, R7, R333, R370, R372, R386–R389, R392), and SPDM (R375). -/

namespace Sys2Proof.Machine

open Sys2Proof

def State.toHost (s : State) (m : HostMsg) : State := { s with hostOut := s.hostOut ++ [m] }

/-! ### BAR4 (R343) -/

/-- Device address of an offset in a port's aperture. -/
def State.hostAddr (s : State) (port off : Nat) : Nat := s.hwin.at port 0 * 2 ^ 36 + off

/-- The bytes, or Unsupported Request when some byte cannot be reached or is in error; none while a page of them is being moved
(R314, R343, R373). -/
def State.hostRead (s : State) (port off n : Nat) : Option State :=
  let va := s.hostAddr port off
  match s.deviceParts accLoad va (runParts va n) [] with
  | .device ps => (match s.readParts ps 0 [] with
    | .inl bs => some (s.toHost (.readData port bs))
    | .inr _ => some (s.toHost (.unsupported port)))
  | .host _ => some (s.toHost (.unsupported port))
  | .unreached off _ => some ((s.noteBad (va + off)).toHost (.unsupported port))
  | .busy => none

/-- HOST_READ: a host read through BAR4 (R343, R344). -/
def execHostRead (port off n : Nat) (s : State) : Host.Outcome State Fault Refusal :=
  s.hostDo (.read port off n) (s.hostRead port off n)

/-- Bytes of a run as its aligned 8-byte units: offset and length, upward from `va` (R270). -/
def hostUnits (va n : Nat) : List (Nat × Nat) :=
  if n = 0 then []
  else
    let first := 8 - va % 8
    if n ≤ first then [(0, n)]
    else (0, first) :: (List.range ((n - first + 7) / 8)).map fun i =>
      (first + 8 * i, if n - first - 8 * i < 8 then n - first - 8 * i else 8)

/-- One unit of a host write; a TRACKED page's tiles are marked with no core as their writer (R343, R353). -/
def State.hostUnit (s : State) (va : Nat) (bs : List Byte) : State :=
  match s.translateDirect .system accStore va with
  | .inl l => (s.writePlace l.place bs).markWrite l.place bs.length none l.tracked
  | .inr _ => s

/-- Performed in units of aligned 8 B, or dropped with HOST_FAULT; none while a page of it is being moved (R314, R343). -/
def State.hostWrite (s : State) (port off : Nat) (data : List Byte) : Option State :=
  let va := s.hostAddr port off
  match s.deviceParts accStore va (runParts va data.length) [] with
  | .device _ => some ((hostUnits va data.length).foldl (fun t u => t.hostUnit (va + u.1) (slice data u.1 u.2)) s)
  | .host _ => some (s.log 0 evHostFault 0 none 0 [])
  | .unreached off _ => some ((s.noteBad (va + off)).log 0 evHostFault 0 none 0 [])
  | .busy => none

/-- HOST_WRITE: a host write through BAR4 (R343, R344). -/
def execHostWrite (port off : Nat) (data : List Byte) (s : State) : Host.Outcome State Fault Refusal :=
  s.hostDo (.write port off data) (s.hostWrite port off data)

/-! ### Registers as they read -/

/-- QPROG and QCTL (R333, R335). -/
def State.readQueue (s : State) (q off : Nat) : Word :=
  let x := s.queue q
  if off = 0x10 then w64 (b2n x.swapped * 2 ^ 63 + x.lastst % 256 * 2 ^ 32 + x.progress % 2 ^ 32)
  else if off = 0x18 then w64 (x.vector % 4096 * 2 ^ 8 + b2n x.badpub * 4 + x.prio % 4)
  else 0

/-- Word `i` of a slot-table entry (R392). -/
def SlotEntry.word (e : SlotEntry) (i : Nat) : Word :=
  if i = 0 then w64 (e.guard % 2 ^ 16 * 2 ^ 32 + e.duration % 2 ^ 32)
  else if i < 17 then w64 ((List.range 4).foldr (fun k n => e.peers.at (4 * (i - 1) + k) 0 % 2 ^ 16 + 2 ^ 16 * n) 0)
  else 0

/-- PSTAT, PCNT, PKSTAT (R387, R388). -/
def Port.stat (q : Port) : Word := w64 (q.lanes % 2 ^ 16 * 2 ^ 32 + q.lost % 2 ^ 16 * 2 ^ 16 + q.state % 4)
def Port.cnt (q : Port) : Word := w64 (q.replays % 2 ^ 32 * 2 ^ 32 + q.uncorr % 2 ^ 32)
def Port.keyStat (q : Port) : Word :=
  let x := q.ctxs.at q.sel .blank
  let pidx := match x.pending with
    | some k => k.idx
    | none => 0
  let cidx := match x.cur with
    | some k => k.idx
    | none => 0
  w64 (b2n x.peerSame * 2 ^ 56 + pidx % 256 * 2 ^ 48 + cidx % 256 * 2 ^ 40 + x.ctr % 2 ^ 40)

/-- Register `i` of a laser source (R389). -/
def Laser.word (x : Laser) : Nat → Word
  | 0 => x.bias | 1 => x.power | 2 => x.temp | 3 => x.hours | 4 => x.trend | 5 => x.rem | 6 => x.drift | _ => 0

/-- A port's page; what triggers an action reads zero, and so does what is not listed (R7, R386–R389). -/
def Port.readReg (q : Port) (off : Nat) : Word :=
  if off = 0 then w64 (q.vector % 4096 * 2 ^ 16 + b2n q.crypt * 8 + q.mode % 4 * 2 + b2n q.enable)
  else if off = 8 then q.stat
  else if off = 0x10 then q.cnt
  else if off = 0x18 then w64 (q.evt % 256)
  else if off = 0x20 then w64 (q.sel % 64)
  else if off = 0x68 then q.keyStat
  else if 0x100 ≤ off ∧ off < 0x200 ∧ off % 8 = 0 then (q.lasers.at ((off - 0x100) / 0x40) .blank).word (off % 0x40 / 8)
  else 0

/-- The record window: the live record of a die, or its part of a flash copy, as HEVT chooses (R372). -/
def State.readRecord (s : State) (off : Nat) : Word :=
  let d := bits s.hevt 5 0
  let bs := if bit s.hevt 8 then (s.flash.at (bits s.hevt 7 6) []).readN (0x4_0000 * d + off) 8
            else s.readPlace ⟨.die, d, recordBase + off⟩ 8
  w64 (leNat bs)

/-- Offsets of BAR0 that hold the pages of the optical ports (R386). -/
def inPortPages (off : Nat) : Bool := decide (0x10_0000 ≤ off) && decide (off < 0x14_0000)

/-- Who reaches an offset of BAR0: the four host ports all of it; die management of die `port - 4`, for a system context, the pages
of the optical ports (R386, log entry 76). -/
def reachesReg (port off : Nat) : Bool := decide (port < 4) || inPortPages off

/-- A doubleword of BAR0 as a read returns it. A read of QCLAIM claims a slot, which is QCLAIM's own step. -/
def State.readReg (s : State) (port off : Nat) : Word :=
  if !reachesReg port off then 0
  else if off < 0x4_0000 then s.readQueue (off / 0x1000) (off % 0x1000)
  else if off = 0x4_0008 then w64 (s.hwin.at port 0 % 4096 * 2 ^ 36)
  else if off = 0x4_0010 then s.bringupWord
  else if off = 0x4_0018 then w64 (s.hevt % 512)
  else if off = 0x4_0020 then w64 (b2n s.slotRun * 256 + s.slotN % 128)
  else if off = 0x4_0028 then w64 s.slotEpoch
  else if 0x6_0000 ≤ off ∧ off < 0x6_4000 then (s.slotTable.at ((off - 0x6_0000) / 256) .blank).word (off % 256 / 8)
  else if 0x8_0000 ≤ off ∧ off < 0xC_0000 then s.readRecord (off - 0x8_0000)
  else if inPortPages off then (s.port ((off - 0x10_0000) / 0x1000)).readReg (off % 0x1000)
  else 0

/-! ### Registers as they are written (R6, R7) -/

/-- A write to a queue's page over a host port; QPUBLISH publishes (R333–R335). -/
def State.writeQueue (s : State) (q off port v : Nat) : State :=
  if off = 8 then s.publish q (v % 128) port
  else if off = 0x18 then
    let x := s.queue q
    s.setQueue q { x with vector := bits v 19 8, prio := bits v 1 0, badpub := x.badpub && !bit v 2 }
  else s

/-- Write dword `i` of a slot entry. A duration outside 1,000 to 10^9 ns and a guard not below the duration are not listed
and leave their fields (R6, R392, log entry 30). -/
def SlotEntry.put (e : SlotEntry) (i v : Nat) : SlotEntry :=
  if i = 0 then
    let d := bits v 31 0
    let dur := if 1000 ≤ d ∧ d ≤ 10 ^ 9 then d else e.duration
    let g := bits v 47 32
    { e with duration := dur, guard := if g < dur then g else e.guard }
  else if i < 17 then
    { e with peers := (List.range 4).foldl (fun (m : FMap Nat) k =>
        m.put (4 * (i - 1) + k) (bits v (16 * k + 15) (16 * k + 15) * 2 ^ 15 + bits v (16 * k + 9) (16 * k))) e.peers }
  else e

/-- A write to PCTL: vector, crypt and a listed mode; then `enable` trains the port or takes it down, and so does
mode 0 (R6, R387, log entry 30). -/
def State.writePctl (s : State) (p v : Nat) : State :=
  let q := s.port p
  let s1 := s.setPort p { q with vector := bits v 27 16, crypt := bit v 3, mode := if bits v 2 1 = 3 then q.mode else bits v 2 1 }
  if bit v 0 then (if (s1.port p).mode = 0 then s1.portDown p else s1).trainPort p
  else if q.enable then s1.disablePort p else s1

/-- A write to a port's page (R386–R388). -/
def State.writePort (s : State) (p off v : Nat) : State :=
  let q := s.port p
  if off = 0 then s.writePctl p v
  else if off = 0x10 then s.setPort p { q with replays := bits v 63 32, uncorr := bits v 31 0 }
  else if off = 0x18 then s.setPort p { q with evt := (List.range 8).foldl (fun n i => if bit q.evt i && !bit v i then n + 2 ^ i else n) 0 }
  else if off = 0x20 then s.setPort p { q with sel := bits v 5 0 }
  else if 0x40 ≤ off ∧ off ≤ 0x58 ∧ off % 8 = 0 then
    let x := s.fabCtx p q.sel
    let i := (off - 0x40) / 8
    let k := x.staging.toNat
    let old := bits k (64 * i + 63) (64 * i)
    s.setFabCtx p q.sel { x with staging := BitVec.ofNat 256 (k - old * 2 ^ (64 * i) + v % 2 ^ 64 * 2 ^ (64 * i)) }
  else if off = 0x60 then s.stageKey p (w64 v)
  else s

/-- A doubleword write to BAR0; what is not listed or read-only is ignored (R6, R7). -/
def State.writeReg (s : State) (port off v : Nat) : State :=
  if !reachesReg port off then s
  else if off < 0x4_0000 then s.writeQueue (off / 0x1000) (off % 0x1000) port v
  else if off = 0x4_0000 then s.abortLaunch (w64 v)
  else if off = 0x4_0008 then { s with hwin := s.hwin.put port (bits v 47 36) }
  else if off = 0x4_0018 then { s with hevt := bits v 8 0 }
  else if off = 0x4_0020 then
    let n := bits v 6 0
    { s with slotRun := bit v 8, slotN := if 1 ≤ n ∧ n ≤ 64 then n else s.slotN }
  else if off = 0x4_0028 then { s with slotEpoch := v }
  else if 0x6_0000 ≤ off ∧ off < 0x6_4000 then
    let i := (off - 0x6_0000) / 256
    { s with slotTable := s.slotTable.put i (SlotEntry.put (s.slotTable.at i .blank) (off % 256 / 8) v) }
  else if inPortPages off then s.writePort ((off - 0x10_0000) / 0x1000) (off % 0x1000) v
  else s

/-- REGISTER_WRITE: a write by the host, or by die management for a system context, sets a register's writable fields (R6, R7,
R386). -/
def execRegisterWrite (port off : Nat) (v : Word) (s : State) : Host.Outcome State Fault Refusal :=
  s.hostDo (.reg port off v) (some (s.writeReg port off v.toNat))

/-! ### Held host accesses (R314, R344) -/

/-- What a host access does, none while a page of it is being moved. -/
def State.hostAct (s : State) : HostInput → Option State
  | .read p off n => s.hostRead p off n
  | .write p off data => s.hostWrite p off data
  | .reg p off v => some (s.writeReg p off v.toNat)
  | .publish q slot p => some (s.publish q slot.toNat p)
  | .claim q => some (s.claimSlot q)
  | .ring q off data => some (s.writeRing q off data)
  | .abort v => some (s.abortLaunch v)

/-- The first held access that no earlier one keeps back and whose pages are no longer being moved: those before it, its effect,
and those after it. -/
def State.hostFree (s : State) : List HostInput → List HostInput → Option (List HostInput × State)
  | _, [] => none
  | before, h :: rest =>
    match before.any h.behind, s.hostAct h with
    | false, some t => some (before ++ rest, t)
    | _, _ => State.hostFree s (before ++ [h]) rest

/-- A held host access is performed as soon as it can be. -/
def execHostRetry (s : State) : Host.Outcome State Fault Refusal :=
  match s.hostFree [] s.hostHeld with
  | some (l, t) => .next { t with hostHeld := l }
  | none => .next s

/-! ### SPDM (R375, log entry 5) -/

/-- A request out of order is answered with ERROR UnexpectedRequest, as SPDM 1.3 has it. -/
def State.unexpected (s : State) (port : Nat) : State := s.toHost (.spdm port 0x7F [0x04])

/-- Answer a request that needs so much of the connection agreed. -/
def State.spdmAnswer (s : State) (port need : Nat) (code : Nat) (body : List Byte) : State :=
  if s.spdm.at port 0 < need then s.unexpected port else s.toHost (.spdm port code body)

/-- The connection has come at least so far. -/
def State.spdmReach (s : State) (port need now' : Nat) : State :=
  if s.spdm.at port 0 < need then s else { s with spdm := s.spdm.put port now' }

/-- SPDM_GET_VERSION: version 1.3, and the connection starts afresh. -/
def execSpdmGetVersion (port : Nat) (s : State) : Host.Outcome State Fault Refusal :=
  .next ({ s with spdm := s.spdm.put port 1 }.toHost (.spdm port 0x04 [0x13]))

/-- SPDM_GET_CAPABILITIES: certificates, challenge and signed measurements. -/
def execSpdmGetCapabilities (port : Nat) (s : State) : Host.Outcome State Fault Refusal :=
  .next ((s.spdmAnswer port 1 0x61 (natLE 4 0x16)).spdmReach port 1 2)

/-- SPDM_NEGOTIATE_ALGORITHMS: ECDSA P-384 with SHA-384. -/
def execSpdmNegotiateAlgorithms (port : Nat) (s : State) : Host.Outcome State Fault Refusal :=
  .next ((s.spdmAnswer port 2 0x63 (natLE 4 0x80 ++ natLE 4 0x02)).spdmReach port 2 3)

/-- SPDM_GET_DIGESTS. -/
def execSpdmGetDigests (port : Nat) (s : State) : Host.Outcome State Fault Refusal :=
  .next (s.spdmAnswer port 3 0x01 (Config.spdmCertificate 0))

/-- SPDM_GET_CERTIFICATE. -/
def execSpdmGetCertificate (port : Nat) (s : State) : Host.Outcome State Fault Refusal :=
  .next (s.spdmAnswer port 3 0x02 (Config.spdmCertificate 1))

/-- SPDM_CHALLENGE: a signature. -/
def execSpdmChallenge (port : Nat) (s : State) : Host.Outcome State Fault Refusal :=
  .next (s.spdmAnswer port 3 0x03 (Config.spdmSignature s.fresh)).tick

/-- A manifest record (R328). -/
def Manifest.word (m : Manifest) : Nat :=
  b2n m.bad + m.fbin % 16 * 2 + m.links % 16 * 2 ^ 5 + m.rows % 128 * 2 ^ 9 + b2n m.sram * 2 ^ 16 + m.banks % 256 * 2 ^ 17

/-- The manifest in flash: one record per site, in site-id order (R328). -/
def State.manifestBytes (s : State) : List Byte :=
  (List.range Config.numSites).flatMap fun i =>
    natLE 8 (s.manifest.at (mkSite (i % Config.sitesX) (i / Config.sitesX)) .blank).word

/-- The four measurement blocks of R375. -/
def State.measurements (s : State) : List Byte :=
  Config.measurementDigest 1
  ++ Config.measurementDigest 2 ++ natLE 8 s.bringup.version
  ++ Config.manifestDigest s.manifestBytes ++ [if s.manifestOk then 1 else 0]
  ++ natLE 8 s.graftGen

/-- SPDM_GET_MEASUREMENTS: the four blocks and a signature. -/
def execSpdmGetMeasurements (port : Nat) (s : State) : Host.Outcome State Fault Refusal :=
  .next (s.spdmAnswer port 3 0x60 (s.measurements ++ Config.spdmSignature s.fresh)).tick

/-- SPDM_UNSUPPORTED: any other request is answered with ERROR UnsupportedRequest, which names the request's code. -/
def execSpdmUnsupported (port code : Nat) (s : State) : Host.Outcome State Fault Refusal :=
  .next (s.toHost (.spdm port 0x7F [0x07, BitVec.ofNat 8 code]))

end Sys2Proof.Machine
end

