-- ==== Sys2Proof/Machine/VectorMemory.lean ====
section
/-! DEFINITION. Vector loads and stores: element addresses, checks of every active element before any access, counts and
grouped completion (R146–R150). -/

namespace Sys2Proof.Machine

/-- Active elements of an element type under a predicate, ascending (R128). -/
def Ctx.active (x : Ctx) (et : ElemTy) (k : BitVec 3) : List Nat :=
  (List.range et.nelem).filter fun i => bit (x.readK k) i

/-- Post the loads of the elements as one operation (R150). -/
def State.postLoads (s : State) (d n : Nat) (l : List ElemAcc) : State :=
  let g := s.fresh + 1
  let t := l.foldl (fun u e => u.post { Req.blank with
      group := g, owner := u.meOwner, cls := some .ld, va := e.va, pc := u.me.pc,
      target := .mem .load e.loc.place n [] 0, dest := .vec d (n * e.i) n, route := e.route,
      tracked := e.loc.tracked }) s
  (t.charge .ld 1).pass

/-- Post the stores of the elements; `joint` makes them one operation (R150). -/
def State.postStores (s : State) (v : Vec) (n : Nat) (joint : Bool) (l : List ElemAcc) : State :=
  let g := s.fresh + 1
  let t := l.foldl (fun u e => u.post { Req.blank with
      group := if joint then g else 0, owner := u.meOwner, cls := some .st, va := e.va, pc := u.me.pc,
      target := .mem .store e.loc.place n (natLE n (lane v (8 * n) e.i)) allBytes, route := e.route,
      tracked := e.loc.tracked }) s
  (t.charge .st (if joint then 1 else l.length)).pass

/-- Byte mask of the active elements of a block. -/
def byteMask (n : Nat) (l : List Nat) : Nat := l.foldl (fun m i => m ||| ((2 ^ n - 1) <<< (n * i))) 0

/-- Byte offset of VLD and VST (R147). -/
def blockOff (imm : BitVec 5) : Word := (imm.signExtend 64) <<< 5

/-- VLD and VST after their port and alignment checks: one access in own scratchpad, else one per element (R147, R150).
A fault of the check names `ea`, also where element 0 is inactive (DESIGN CHOICE, log entry 90). -/
def State.blockAct (s : State) (load : Bool) (et : ElemTy) (d : Reg) (ea : Word) (act : List Nat) : Act :=
  let n := et.width / 8
  let low := ea.toNat + n * act.headD 0
  if s.full (if load then .ld else .st) 1 then .stall s
  else match s.checkElems (if load then accLoad else accStore) 32 load [(0, ea)] with
    | .stop a => a
    | .ok t l =>
      match l with
      | [] => .go t.pass
      | e :: _ =>
        if e.loc.place.space = .scratch ∧ e.loc.place.owner = t.myCore.site then
          let u := t
          let r : Req := { Req.blank with
            owner := u.meOwner, va := low, pc := u.me.pc, route := e.route, tracked := e.loc.tracked }
          if load then
            .go ((u.post { r with cls := some .ld, target := .mem .load e.loc.place 32 [] 0, dest := .block d.toNat (byteMask n act) }).charge .ld 1).pass
          else
            .go ((u.post { r with cls := some .st, target := .mem .store e.loc.place 32 (vecBytes (u.me.readV d.toNat)) (w64 (byteMask n act)) }).charge .st 1).pass
        else
          let es := act.map fun i =>
            { e with i := i, va := ea.toNat + n * i, loc := { e.loc with place := { e.loc.place with off := e.loc.place.off + n * i } } }
          if load then .go (t.postLoads d.toNat n es) else .go (t.postStores (t.me.readV d.toNat) n true es)

/-- VLD (R147). -/
def execVld (et : ElemTy) (d a : Reg) (imm : BitVec 5) (k : BitVec 3) (s : State) : Host.Outcome State Fault Refusal :=
  let ea := s.x a + blockOff imm
  let act := s.me.active et k
  if act.isEmpty then .next s.pass
  else if ea.toNat % 32 ≠ 0 then s.trapOut cMisaligned ea
  else match portOf ea.toNat with
    | some q => match s.portLoad q 32 (k == 0#3) with
      | .fault v => s.trapOut cStream v
      | .stall => .next s
      | .data bs c => .next ((s.setMyCore c).putV d (bytesVec bs))
    | none => (s.blockAct true et d ea act).out

/-- VST: vd is the data register (R147). -/
def execVst (et : ElemTy) (d a : Reg) (imm : BitVec 5) (k : BitVec 3) (s : State) : Host.Outcome State Fault Refusal :=
  let ea := s.x a + blockOff imm
  let act := s.me.active et k
  if act.isEmpty then .next s.pass
  else if ea.toNat % 32 ≠ 0 then s.trapOut cMisaligned ea
  else match portOf ea.toNat with
    | some q => match s.portStore q 32 (k == 0#3) (vecBytes (s.me.readV d.toNat)) with
      | .fault v => s.trapOut cStream v
      | .stall => .next s
      | .data _ c => .next (s.setMyCore c).pass
    | none => (s.blockAct false et d ea act).out

/-- VLDS, VLDX: one operation in class LD (R148–R150). -/
def State.gatherLoad (s : State) (et : ElemTy) (d : Reg) (addrs : List (Nat × Word)) : Act :=
  let n := et.width / 8
  if addrs.isEmpty then .go s.pass
  else if s.full .ld 1 then .stall s
  else match s.checkElems accLoad n true addrs with
    | .stop a => a
    | .ok t l => .go (t.postLoads d.toNat n l)

/-- VSTS, VSTX: one operation in class ST per active element (R148–R150). -/
def State.scatterStore (s : State) (et : ElemTy) (d : Reg) (addrs : List (Nat × Word)) : Act :=
  let n := et.width / 8
  if addrs.isEmpty then .go s.pass
  else if s.full .st addrs.length then .stall s
  else match s.checkElems accStore n false addrs with
    | .stop a => a
    | .ok t l => .go (t.postStores (t.me.readV d.toNat) n false l)

/-- Addresses at a byte stride (R148). -/
def State.strided (s : State) (et : ElemTy) (a b : Reg) (k : BitVec 3) : List (Nat × Word) :=
  (s.me.active et k).map fun i => (i, s.x a + w64 i * s.x b)

/-- Addresses at signed element offsets (R149). -/
def State.indexed (s : State) (et : ElemTy) (a b : Reg) (k : BitVec 3) : List (Nat × Word) :=
  (s.me.active et k).map fun i => (i, s.x a + BitVec.ofInt 64 (slane (s.me.readV b.toNat) et.width i))

/-- VLDS (R148). -/
def execVlds (et : ElemTy) (d a b : Reg) (k : BitVec 3) (s : State) : Host.Outcome State Fault Refusal :=
  (s.gatherLoad et d (s.strided et a b k)).out

/-- VSTS (R148). -/
def execVsts (et : ElemTy) (d a b : Reg) (k : BitVec 3) (s : State) : Host.Outcome State Fault Refusal :=
  (s.scatterStore et d (s.strided et a b k)).out

/-- VLDX (R149). -/
def execVldx (et : ElemTy) (d a b : Reg) (k : BitVec 3) (s : State) : Host.Outcome State Fault Refusal :=
  if et.width < 32 then s.trapOut cIllegal (wordOf (.vldx et d a b k))
  else (s.gatherLoad et d (s.indexed et a b k)).out

/-- VSTX (R149). -/
def execVstx (et : ElemTy) (d a b : Reg) (k : BitVec 3) (s : State) : Host.Outcome State Fault Refusal :=
  if et.width < 32 then s.trapOut cIllegal (wordOf (.vstx et d a b k))
  else (s.scatterStore et d (s.indexed et a b k)).out

end Sys2Proof.Machine
end

