-- ==== Sys2Proof/Machine/Dispatch.lean ====
section
/-! DEFINITION. The one match from an instruction to its meaning. -/

namespace Sys2Proof.Machine

open Sys2Proof

/-- The meaning of an instruction or machine step, for the context, queue or parties the state and operands name. -/
def exec (i : Instr) (s : State) : Host.Outcome State Fault Refusal :=
  match i with
  | .lui d imm => Sys2Proof.Machine.execLui d imm s
  | .auipc d imm => Sys2Proof.Machine.execAuipc d imm s
  | .jal d imm => Sys2Proof.Machine.execJal d imm s
  | .jalr d a imm => Sys2Proof.Machine.execJalr d a imm s
  | .beq a b imm => Sys2Proof.Machine.execBeq a b imm s
  | .bne a b imm => Sys2Proof.Machine.execBne a b imm s
  | .blt a b imm => Sys2Proof.Machine.execBlt a b imm s
  | .bge a b imm => Sys2Proof.Machine.execBge a b imm s
  | .bltu a b imm => Sys2Proof.Machine.execBltu a b imm s
  | .bgeu a b imm => Sys2Proof.Machine.execBgeu a b imm s
  | .lb d a imm => Sys2Proof.Machine.execLb d a imm s
  | .lh d a imm => Sys2Proof.Machine.execLh d a imm s
  | .lw d a imm => Sys2Proof.Machine.execLw d a imm s
  | .ld d a imm => Sys2Proof.Machine.execLd d a imm s
  | .lbu d a imm => Sys2Proof.Machine.execLbu d a imm s
  | .lhu d a imm => Sys2Proof.Machine.execLhu d a imm s
  | .lwu d a imm => Sys2Proof.Machine.execLwu d a imm s
  | .sb b a imm => Sys2Proof.Machine.execSb b a imm s
  | .sh b a imm => Sys2Proof.Machine.execSh b a imm s
  | .sw b a imm => Sys2Proof.Machine.execSw b a imm s
  | .sd b a imm => Sys2Proof.Machine.execSd b a imm s
  | .addi d a imm => Sys2Proof.Machine.execAddi d a imm s
  | .slti d a imm => Sys2Proof.Machine.execSlti d a imm s
  | .sltiu d a imm => Sys2Proof.Machine.execSltiu d a imm s
  | .xori d a imm => Sys2Proof.Machine.execXori d a imm s
  | .ori d a imm => Sys2Proof.Machine.execOri d a imm s
  | .andi d a imm => Sys2Proof.Machine.execAndi d a imm s
  | .slli d a sh => Sys2Proof.Machine.execSlli d a sh s
  | .srli d a sh => Sys2Proof.Machine.execSrli d a sh s
  | .srai d a sh => Sys2Proof.Machine.execSrai d a sh s
  | .addiw d a imm => Sys2Proof.Machine.execAddiw d a imm s
  | .slliw d a sh => Sys2Proof.Machine.execSlliw d a sh s
  | .srliw d a sh => Sys2Proof.Machine.execSrliw d a sh s
  | .sraiw d a sh => Sys2Proof.Machine.execSraiw d a sh s
  | .add d a b => Sys2Proof.Machine.execAdd d a b s
  | .sll d a b => Sys2Proof.Machine.execSll d a b s
  | .slt d a b => Sys2Proof.Machine.execSlt d a b s
  | .sltu d a b => Sys2Proof.Machine.execSltu d a b s
  | .xor d a b => Sys2Proof.Machine.execXor d a b s
  | .srl d a b => Sys2Proof.Machine.execSrl d a b s
  | .or d a b => Sys2Proof.Machine.execOr d a b s
  | .and d a b => Sys2Proof.Machine.execAnd d a b s
  | .sub d a b => Sys2Proof.Machine.execSub d a b s
  | .sra d a b => Sys2Proof.Machine.execSra d a b s
  | .mul d a b => Sys2Proof.Machine.execMul d a b s
  | .mulh d a b => Sys2Proof.Machine.execMulh d a b s
  | .mulhsu d a b => Sys2Proof.Machine.execMulhsu d a b s
  | .mulhu d a b => Sys2Proof.Machine.execMulhu d a b s
  | .div d a b => Sys2Proof.Machine.execDiv d a b s
  | .divu d a b => Sys2Proof.Machine.execDivu d a b s
  | .rem d a b => Sys2Proof.Machine.execRem d a b s
  | .remu d a b => Sys2Proof.Machine.execRemu d a b s
  | .addw d a b => Sys2Proof.Machine.execAddw d a b s
  | .sllw d a b => Sys2Proof.Machine.execSllw d a b s
  | .srlw d a b => Sys2Proof.Machine.execSrlw d a b s
  | .subw d a b => Sys2Proof.Machine.execSubw d a b s
  | .sraw d a b => Sys2Proof.Machine.execSraw d a b s
  | .mulw d a b => Sys2Proof.Machine.execMulw d a b s
  | .divw d a b => Sys2Proof.Machine.execDivw d a b s
  | .divuw d a b => Sys2Proof.Machine.execDivuw d a b s
  | .remw d a b => Sys2Proof.Machine.execRemw d a b s
  | .remuw d a b => Sys2Proof.Machine.execRemuw d a b s
  | .fence fm pred succ => Sys2Proof.Machine.execFence fm pred succ s
  | .fenceI => Sys2Proof.Machine.execFenceI s
  | .ecall => Sys2Proof.Machine.execEcall s
  | .ebreak => Sys2Proof.Machine.execEbreak s
  | .csrrw d a csr => Sys2Proof.Machine.execCsrrw d a csr s
  | .csrrs d a csr => Sys2Proof.Machine.execCsrrs d a csr s
  | .csrrc d a csr => Sys2Proof.Machine.execCsrrc d a csr s
  | .csrrwi d u csr => Sys2Proof.Machine.execCsrrwi d u csr s
  | .csrrsi d u csr => Sys2Proof.Machine.execCsrrsi d u csr s
  | .csrrci d u csr => Sys2Proof.Machine.execCsrrci d u csr s
  | .wcall off => Sys2Proof.Machine.execWcall off s
  | .wcallr a => Sys2Proof.Machine.execWcallr a s
  | .wret => Sys2Proof.Machine.execWret s
  | .done => Sys2Proof.Machine.execDone s
  | .tretReplay => Sys2Proof.Machine.execTretReplay s
  | .tretDiscard => Sys2Proof.Machine.execTretDiscard s
  | .send tag ch pl => Sys2Proof.Machine.execSend tag ch pl s
  | .sendi tag ch pl => Sys2Proof.Machine.execSendi tag ch pl s
  | .sendm ch => Sys2Proof.Machine.execSendm ch s
  | .tagopEnSet d tag => Sys2Proof.Machine.execTagopEnSet d tag s
  | .tagopEnClr d tag => Sys2Proof.Machine.execTagopEnClr d tag s
  | .tagopPdSet d tag => Sys2Proof.Machine.execTagopPdSet d tag s
  | .tagopPdClr d tag => Sys2Proof.Machine.execTagopPdClr d tag s
  | .tagopEnSetMask d a => Sys2Proof.Machine.execTagopEnSetMask d a s
  | .tagopEnClrMask d a => Sys2Proof.Machine.execTagopEnClrMask d a s
  | .tagopPdSetMask d a => Sys2Proof.Machine.execTagopPdSetMask d a s
  | .tagopPdClrMask d a => Sys2Proof.Machine.execTagopPdClrMask d a s
  | .waitc sy mx cp st ld => Sys2Proof.Machine.execWaitc sy mx cp st ld s
  | .enq a q => Sys2Proof.Machine.execEnq a q s
  | .enqm a q => Sys2Proof.Machine.execEnqm a q s
  | .sbind n a => Sys2Proof.Machine.execSbind n a s
  | .sunbind n => Sys2Proof.Machine.execSunbind n s
  | .trctlStatus d => Sys2Proof.Machine.execTrctlStatus d s
  | .trctlMarkr a => Sys2Proof.Machine.execTrctlMarkr a s
  | .trctlMarkw a => Sys2Proof.Machine.execTrctlMarkw a s
  | .trctlSat => Sys2Proof.Machine.execTrctlSat s
  | .trctlFlush => Sys2Proof.Machine.execTrctlFlush s
  | .pair west => Sys2Proof.Machine.execPair west s
  | .unpair => Sys2Proof.Machine.execUnpair s
  | .migrateCtx a => Sys2Proof.Machine.execMigrateCtx a s
  | .migrateFull a => Sys2Proof.Machine.execMigrateFull a s
  | .rdcnt d c => Sys2Proof.Machine.execRdcnt d c s
  | .rdqf d q => Sys2Proof.Machine.execRdqf d q s
  | .rdstrm d n => Sys2Proof.Machine.execRdstrm d n s
  | .rdid d item => Sys2Proof.Machine.execRdid d item s
  | .ldp d a p imm => Sys2Proof.Machine.execLdp d a p imm s
  | .stp d a p imm => Sys2Proof.Machine.execStp d a p imm s
  | .ldacq d a w g => Sys2Proof.Machine.execLdacq d a w g s
  | .strel d a w g => Sys2Proof.Machine.execStrel d a w g s
  | .amoAdd d a b w aq rl => Sys2Proof.Machine.execAmoAdd d a b w aq rl s
  | .amoAnd d a b w aq rl => Sys2Proof.Machine.execAmoAnd d a b w aq rl s
  | .amoOr d a b w aq rl => Sys2Proof.Machine.execAmoOr d a b w aq rl s
  | .amoXor d a b w aq rl => Sys2Proof.Machine.execAmoXor d a b w aq rl s
  | .amoMin d a b w aq rl => Sys2Proof.Machine.execAmoMin d a b w aq rl s
  | .amoMax d a b w aq rl => Sys2Proof.Machine.execAmoMax d a b w aq rl s
  | .amoMinu d a b w aq rl => Sys2Proof.Machine.execAmoMinu d a b w aq rl s
  | .amoMaxu d a b w aq rl => Sys2Proof.Machine.execAmoMaxu d a b w aq rl s
  | .amoSwap d a b w aq rl => Sys2Proof.Machine.execAmoSwap d a b w aq rl s
  | .amoFadd d a b aq rl => Sys2Proof.Machine.execAmoFadd d a b aq rl s
  | .amoAddPeer d a p w aq rl => Sys2Proof.Machine.execAmoAddPeer d a p w aq rl s
  | .amoAndPeer d a p w aq rl => Sys2Proof.Machine.execAmoAndPeer d a p w aq rl s
  | .amoOrPeer d a p w aq rl => Sys2Proof.Machine.execAmoOrPeer d a p w aq rl s
  | .amoXorPeer d a p w aq rl => Sys2Proof.Machine.execAmoXorPeer d a p w aq rl s
  | .amoMinPeer d a p w aq rl => Sys2Proof.Machine.execAmoMinPeer d a p w aq rl s
  | .amoMaxPeer d a p w aq rl => Sys2Proof.Machine.execAmoMaxPeer d a p w aq rl s
  | .amoMinuPeer d a p w aq rl => Sys2Proof.Machine.execAmoMinuPeer d a p w aq rl s
  | .amoMaxuPeer d a p w aq rl => Sys2Proof.Machine.execAmoMaxuPeer d a p w aq rl s
  | .amoSwapPeer d a p w aq rl => Sys2Proof.Machine.execAmoSwapPeer d a p w aq rl s
  | .amoFaddPeer d a p aq rl => Sys2Proof.Machine.execAmoFaddPeer d a p aq rl s
  | .cas d a b w aq rl => Sys2Proof.Machine.execCas d a b w aq rl s
  | .push d a v win => Sys2Proof.Machine.execPush d a v win s
  | .pop d a v win => Sys2Proof.Machine.execPop d a v win s
  | .popw d a v win => Sys2Proof.Machine.execPopw d a v win s
  | .objinit a b => Sys2Proof.Machine.execObjinit a b s
  | .barinit a b => Sys2Proof.Machine.execBarinit a b s
  | .bararr a => Sys2Proof.Machine.execBararr a s
  | .barwait d a => Sys2Proof.Machine.execBarwait d a s
  | .decz a b => Sys2Proof.Machine.execDecz a b s
  | .phase mask g => Sys2Proof.Machine.execPhase mask g s
  | .rtset a b => Sys2Proof.Machine.execRtset a b s
  | .rtinv a => Sys2Proof.Machine.execRtinv a s
  | .rtinvAll => Sys2Proof.Machine.execRtinvAll s
  | .rtbind a b => Sys2Proof.Machine.execRtbind a b s
  | .vadd et d a b k => Sys2Proof.Machine.execVadd et d a b k s
  | .vsub et d a b k => Sys2Proof.Machine.execVsub et d a b k s
  | .vmul et d a b k => Sys2Proof.Machine.execVmul et d a b k s
  | .vfma et d a b k => Sys2Proof.Machine.execVfma et d a b k s
  | .vfms et d a b k => Sys2Proof.Machine.execVfms et d a b k s
  | .vfnma et d a b k => Sys2Proof.Machine.execVfnma et d a b k s
  | .vmin et d a b k => Sys2Proof.Machine.execVmin et d a b k s
  | .vmax et d a b k => Sys2Proof.Machine.execVmax et d a b k s
  | .vand et d a b k => Sys2Proof.Machine.execVand et d a b k s
  | .vor et d a b k => Sys2Proof.Machine.execVor et d a b k s
  | .vxor et d a b k => Sys2Proof.Machine.execVxor et d a b k s
  | .vshl et d a b k => Sys2Proof.Machine.execVshl et d a b k s
  | .vshr et d a b k => Sys2Proof.Machine.execVshr et d a b k s
  | .vsra et d a b k => Sys2Proof.Machine.execVsra et d a b k s
  | .vcmp c et kd a b k => Sys2Proof.Machine.execVcmp c et kd a b k s
  | .vabs et d a k => Sys2Proof.Machine.execVabs et d a k s
  | .vneg et d a k => Sys2Proof.Machine.execVneg et d a k s
  | .vrcp et d a k => Sys2Proof.Machine.execVrcp et d a k s
  | .vsqrt et d a k => Sys2Proof.Machine.execVsqrt et d a k s
  | .vrsq et d a k => Sys2Proof.Machine.execVrsq et d a k s
  | .vexp2 et d a k => Sys2Proof.Machine.execVexp2 et d a k s
  | .vclz et d a k => Sys2Proof.Machine.execVclz et d a k s
  | .vpopc et d a k => Sys2Proof.Machine.execVpopc et d a k s
  | .vredAdd et d a k => Sys2Proof.Machine.execVredAdd et d a k s
  | .vredMin et d a k => Sys2Proof.Machine.execVredMin et d a k s
  | .vredMax et d a k => Sys2Proof.Machine.execVredMax et d a k s
  | .vld et d a imm k => Sys2Proof.Machine.execVld et d a imm k s
  | .vst et d a imm k => Sys2Proof.Machine.execVst et d a imm k s
  | .vlds et d a b k => Sys2Proof.Machine.execVlds et d a b k s
  | .vsts et d a b k => Sys2Proof.Machine.execVsts et d a b k s
  | .vldx et d a b k => Sys2Proof.Machine.execVldx et d a b k s
  | .vstx et d a b k => Sys2Proof.Machine.execVstx et d a b k s
  | .vcvtTo et d a code k => Sys2Proof.Machine.execVcvtTo et d a code k s
  | .vcvtFrom et d a code k => Sys2Proof.Machine.execVcvtFrom et d a code k s
  | .vpack et d a b k => Sys2Proof.Machine.execVpack et d a b k s
  | .vunpk et d a hi k => Sys2Proof.Machine.execVunpk et d a hi k s
  | .vperm et d a b k => Sys2Proof.Machine.execVperm et d a b k s
  | .vbcast et d a k => Sys2Proof.Machine.execVbcast et d a k s
  | .vins et d a n => Sys2Proof.Machine.execVins et d a n s
  | .vext et d a n => Sys2Proof.Machine.execVext et d a n s
  | .vsel et d a b k => Sys2Proof.Machine.execVsel et d a b k s
  | .vdot et d a b k => Sys2Proof.Machine.execVdot et d a b k s
  | .vmma64 d a b => Sys2Proof.Machine.execVmma64 d a b s
  | .kand kd ka kb => Sys2Proof.Machine.execKand kd ka kb s
  | .kor kd ka kb => Sys2Proof.Machine.execKor kd ka kb s
  | .kxor kd ka kb => Sys2Proof.Machine.execKxor kd ka kb s
  | .knot kd ka => Sys2Proof.Machine.execKnot kd ka s
  | .kmovKK kd ka => Sys2Proof.Machine.execKmovKK kd ka s
  | .kmovKX kd a => Sys2Proof.Machine.execKmovKX kd a s
  | .kmovXK d ka => Sys2Proof.Machine.execKmovXK d ka s
  | .qnop => Sys2Proof.Machine.execQnop s
  | .qfence mask => Sys2Proof.Machine.execQfence mask s
  | .qsignalAdd addr v => Sys2Proof.Machine.execQsignalAdd addr v s
  | .qsignalDecz addr => Sys2Proof.Machine.execQsignalDecz addr s
  | .qsignalBararr addr => Sys2Proof.Machine.execQsignalBararr addr s
  | .qwait eq addr v => Sys2Proof.Machine.execQwait eq addr v s
  | .qwaitPoll core q => Sys2Proof.Machine.execQwaitPoll core q s
  | .mxloadb m sel loop a sc => Sys2Proof.Machine.execMxloadb m sel loop a sc s
  | .mxloada sel loop a sc => Sys2Proof.Machine.execMxloada sel loop a sc s
  | .mxrun bank two sparse sel pat => Sys2Proof.Machine.execMxrun bank two sparse sel pat s
  | .mxout bank ty loop a => Sys2Proof.Machine.execMxout bank ty loop a s
  | .mxzero bank w => Sys2Proof.Machine.execMxzero bank w s
  | .mxcfg op1 op2 => Sys2Proof.Machine.execMxcfg op1 op2 s
  | .mxswap => Sys2Proof.Machine.execMxswap s
  | .cpy loop src dst count => Sys2Proof.Machine.execCpy loop src dst count s
  | .cpyg src dst idx => Sys2Proof.Machine.execCpyg src dst idx s
  | .cpys src dst idx => Sys2Proof.Machine.execCpys src dst idx s
  | .cpyfill loop dst count pat => Sys2Proof.Machine.execCpyfill loop dst count pat s
  | .commandPerformed core q => Sys2Proof.Machine.execCommandPerformed core q s
  | .activationStart core queue => Sys2Proof.Machine.execActivationStart core queue s
  | .pendingStart core tag => Sys2Proof.Machine.execPendingStart core tag s
  | .codeletStart core => Sys2Proof.Machine.execCodeletStart core s
  | .closeStart core tag => Sys2Proof.Machine.execCloseStart core tag s
  | .managementStart core => Sys2Proof.Machine.execManagementStart core s
  | .routeFaultReport core frame => Sys2Proof.Machine.execRouteFaultReport core frame s
  | .movedNotice core frame => Sys2Proof.Machine.execMovedNotice core frame s
  | .acttime core ctx => Sys2Proof.Machine.execActtime core ctx s
  | .messageInjection core => Sys2Proof.Machine.execMessageInjection core s
  | .messageArrival core flight => Sys2Proof.Machine.execMessageArrival core flight s
  | .heldMessageAccept core flight => Sys2Proof.Machine.execHeldMessageAccept core flight s
  | .subringRefill core queue => Sys2Proof.Machine.execSubringRefill core queue s
  | .roundMarkerArrival core flight => Sys2Proof.Machine.execRoundMarkerArrival core flight s
  | .fenceMarkerArrival core flight => Sys2Proof.Machine.execFenceMarkerArrival core flight s
  | .argumentUpdateEffect core tag => Sys2Proof.Machine.execArgumentUpdateEffect core tag s
  | .routerHeaderStep flight => Sys2Proof.Machine.execRouterHeaderStep flight s
  | .creditReturn site dir lane => Sys2Proof.Machine.execCreditReturn site dir lane s
  | .flitCrcError site dir => Sys2Proof.Machine.execFlitCrcError site dir s
  | .linkReplay site dir => Sys2Proof.Machine.execLinkReplay site dir s
  | .linkDown site dir => Sys2Proof.Machine.execLinkDown site dir s
  | .memoryRequestArrival at' => Sys2Proof.Machine.execMemoryRequestArrival at' s
  | .deczHome at' => Sys2Proof.Machine.execDeczHome at' s
  | .loadReply at' => Sys2Proof.Machine.execLoadReply at' s
  | .storeAck at' => Sys2Proof.Machine.execStoreAck at' s
  | .syReply at' => Sys2Proof.Machine.execSyReply at' s
  | .syncOperation die => Sys2Proof.Machine.execSyncOperation die s
  | .dieArrival die g => Sys2Proof.Machine.execDieArrival die g s
  | .phaseReleaseArrival die g => Sys2Proof.Machine.execPhaseReleaseArrival die g s
  | .pairingArrival flight => Sys2Proof.Machine.execPairingArrival flight s
  | .parkedDeparture site => Sys2Proof.Machine.execParkedDeparture site s
  | .strelInject id => Sys2Proof.Machine.execStrelInject id s
  | .streamElementAccess core q => Sys2Proof.Machine.execStreamElementAccess core q s
  | .walkComplete die page => Sys2Proof.Machine.execWalkComplete die page s
  | .missRetry die r page => Sys2Proof.Machine.execMissRetry die r page s
  | .busyRetry die r page => Sys2Proof.Machine.execBusyRetry die r page s
  | .pageUpdate va leaf move => Sys2Proof.Machine.execPageUpdate va leaf move s
  | .twinCompare core mismatch => Sys2Proof.Machine.execTwinCompare core mismatch s
  | .twinTimeout core => Sys2Proof.Machine.execTwinTimeout core s
  | .migrationDrainTimeout core => Sys2Proof.Machine.execMigrationDrainTimeout core s
  | .migrationAbandon core targetError => Sys2Proof.Machine.execMigrationAbandon core targetError s
  | .migrationTransfer core crcOk badUnits badMsgs => Sys2Proof.Machine.execMigrationTransfer core crcOk badUnits badMsgs s
  | .forwardPacket site flight => Sys2Proof.Machine.execForwardPacket site flight s
  | .regPhase cluster => Sys2Proof.Machine.execRegPhase cluster s
  | .regDark cluster => Sys2Proof.Machine.execRegDark cluster s
  | .holdupEnd cluster => Sys2Proof.Machine.execHoldupEnd cluster s
  | .powerStageStart cluster => Sys2Proof.Machine.execPowerStageStart cluster s
  | .powerStageEnd cluster => Sys2Proof.Machine.execPowerStageEnd cluster s
  | .powerWait cluster => Sys2Proof.Machine.execPowerWait cluster s
  | .convFail die => Sys2Proof.Machine.execConvFail die s
  | .thermalSample cluster junction dram => Sys2Proof.Machine.execThermalSample cluster junction dram s
  | .trayUndervoltage volts us => Sys2Proof.Machine.execTrayUndervoltage volts us s
  | .coolantLowFlow mlPerMin us => Sys2Proof.Machine.execCoolantLowFlow mlPerMin us s
  | .softErr die => Sys2Proof.Machine.execSoftErr die s
  | .dramScrub site => Sys2Proof.Machine.execDramScrub site s
  | .coldReset => Sys2Proof.Machine.execColdReset s
  | .stagePower firmwareOk version manifestOk supplyOk => Sys2Proof.Machine.execStagePower firmwareOk version manifestOk supplyOk s
  | .stageDramTraining badBanks ok => Sys2Proof.Machine.execStageDramTraining badBanks ok s
  | .stageLinkTest failing ok => Sys2Proof.Machine.execStageLinkTest failing ok s
  | .stageGraft => Sys2Proof.Machine.execStageGraft s
  | .qclaim q => Sys2Proof.Machine.execQclaim q s
  | .qpublish q slot port => Sys2Proof.Machine.execQpublish q slot port s
  | .queueTake => Sys2Proof.Machine.execQueueTake s
  | .load => Sys2Proof.Machine.execLoad s
  | .launch => Sys2Proof.Machine.execLaunch s
  | .roundStart => Sys2Proof.Machine.execRoundStart s
  | .logReplay core => Sys2Proof.Machine.execLogReplay core s
  | .quiescenceSweep => Sys2Proof.Machine.execQuiescenceSweep s
  | .labort v => Sys2Proof.Machine.execLabort v s
  | .launchTimeout => Sys2Proof.Machine.execLaunchTimeout s
  | .hostRead port off n => Sys2Proof.Machine.execHostRead port off n s
  | .hostWrite port off data => Sys2Proof.Machine.execHostWrite port off data s
  | .registerWrite port off v => Sys2Proof.Machine.execRegisterWrite port off v s
  | .spdmGetVersion port => Sys2Proof.Machine.execSpdmGetVersion port s
  | .spdmGetCapabilities port => Sys2Proof.Machine.execSpdmGetCapabilities port s
  | .spdmNegotiateAlgorithms port => Sys2Proof.Machine.execSpdmNegotiateAlgorithms port s
  | .spdmGetDigests port => Sys2Proof.Machine.execSpdmGetDigests port s
  | .spdmGetCertificate port => Sys2Proof.Machine.execSpdmGetCertificate port s
  | .spdmChallenge port => Sys2Proof.Machine.execSpdmChallenge port s
  | .spdmGetMeasurements port => Sys2Proof.Machine.execSpdmGetMeasurements port s
  | .spdmUnsupported port code => Sys2Proof.Machine.execSpdmUnsupported port code s
  | .portTrain p => Sys2Proof.Machine.execPortTrain p s
  | .portDisable p => Sys2Proof.Machine.execPortDisable p s
  | .portTrained p lanes => Sys2Proof.Machine.execPortTrained p lanes s
  | .keyStage p v => Sys2Proof.Machine.execKeyStage p v s
  | .groupSend p c => Sys2Proof.Machine.execGroupSend p c s
  | .groupReceive p g crcGood flitsGood uncorr => Sys2Proof.Machine.execGroupReceive p g crcGood flitsGood uncorr s
  | .ackFrame p c key upto => Sys2Proof.Machine.execAckFrame p c key upto s
  | .nakFrame p c key counter => Sys2Proof.Machine.execNakFrame p c key counter s
  | .fabricCreditFrame p lane n => Sys2Proof.Machine.execFabricCreditFrame p lane n s
  | .keySwitch p c idx count => Sys2Proof.Machine.execKeySwitch p c idx count s
  | .los p lanes => Sys2Proof.Machine.execLos p lanes s
  | .restripe p rx lanes => Sys2Proof.Machine.execRestripe p rx lanes s
  | .laneRejoin p lane => Sys2Proof.Machine.execLaneRejoin p lane s
  | .replayLog p => Sys2Proof.Machine.execReplayLog p s
  | .laserFailureDetect p l => Sys2Proof.Machine.execLaserFailureDetect p l s
  | .laserMonitorUpdate p l bias power temp hours trend drift => Sys2Proof.Machine.execLaserMonitorUpdate p l bias power temp hours trend drift s
  | .ptpSync offset time => Sys2Proof.Machine.execPtpSync offset time s
  | .ptpLost => Sys2Proof.Machine.execPtpLost s
  | .ptpResume => Sys2Proof.Machine.execPtpResume s
  | .rotationStart => Sys2Proof.Machine.execRotationStart s
  | .slotStart p slot => Sys2Proof.Machine.execSlotStart p slot s
  | .illegalEncoding w => Sys2Proof.Machine.execIllegalEncoding w s
  | .rejectedCommand w => Sys2Proof.Machine.execRejectedCommand w s
  | .hostRingWrite q off data => Sys2Proof.Machine.execHostRingWrite q off data s
  | .streamElementArrival core q poisoned => Sys2Proof.Machine.execStreamElementArrival core q poisoned s
  | .engineReadReturn core q poisoned => Sys2Proof.Machine.execEngineReadReturn core q poisoned s
  | .fetchBlockReturn core ctx poisoned => Sys2Proof.Machine.execFetchBlockReturn core ctx poisoned s
  | .graftRewrite rows remaps => Sys2Proof.Machine.execGraftRewrite rows remaps s
  | .forwardingEntryRetire site => Sys2Proof.Machine.execForwardingEntryRetire site s

end Sys2Proof.Machine
end

