-- ==== Sys2Proof/Machine/Hazard.lean ====
section
/-! DEFINITION. The registers an instruction reads or writes, and the stall on a register whose value is still to be written
(R58, R67, R291, R295). -/

namespace Sys2Proof.Machine

open Sys2Proof

/-- The registers o0 to o7. -/
def outputs : List Nat := [24, 25, 26, 27, 28, 29, 30, 31]

/-- Scalar registers an instruction reads or writes. -/
def xRegs : Instr → List Nat
  | .lui d _ => [d.toNat]
  | .auipc d _ => [d.toNat]
  | .jal d _ => [d.toNat]
  | .jalr d a _ => [d.toNat, a.toNat]
  | .beq a b _ => [a.toNat, b.toNat]
  | .bne a b _ => [a.toNat, b.toNat]
  | .blt a b _ => [a.toNat, b.toNat]
  | .bge a b _ => [a.toNat, b.toNat]
  | .bltu a b _ => [a.toNat, b.toNat]
  | .bgeu a b _ => [a.toNat, b.toNat]
  | .lb d a _ => [d.toNat, a.toNat]
  | .lh d a _ => [d.toNat, a.toNat]
  | .lw d a _ => [d.toNat, a.toNat]
  | .ld d a _ => [d.toNat, a.toNat]
  | .lbu d a _ => [d.toNat, a.toNat]
  | .lhu d a _ => [d.toNat, a.toNat]
  | .lwu d a _ => [d.toNat, a.toNat]
  | .sb b a _ => [b.toNat, a.toNat]
  | .sh b a _ => [b.toNat, a.toNat]
  | .sw b a _ => [b.toNat, a.toNat]
  | .sd b a _ => [b.toNat, a.toNat]
  | .addi d a _ => [d.toNat, a.toNat]
  | .slti d a _ => [d.toNat, a.toNat]
  | .sltiu d a _ => [d.toNat, a.toNat]
  | .xori d a _ => [d.toNat, a.toNat]
  | .ori d a _ => [d.toNat, a.toNat]
  | .andi d a _ => [d.toNat, a.toNat]
  | .slli d a _ => [d.toNat, a.toNat]
  | .srli d a _ => [d.toNat, a.toNat]
  | .srai d a _ => [d.toNat, a.toNat]
  | .addiw d a _ => [d.toNat, a.toNat]
  | .slliw d a _ => [d.toNat, a.toNat]
  | .srliw d a _ => [d.toNat, a.toNat]
  | .sraiw d a _ => [d.toNat, a.toNat]
  | .add d a b => [d.toNat, a.toNat, b.toNat]
  | .sll d a b => [d.toNat, a.toNat, b.toNat]
  | .slt d a b => [d.toNat, a.toNat, b.toNat]
  | .sltu d a b => [d.toNat, a.toNat, b.toNat]
  | .xor d a b => [d.toNat, a.toNat, b.toNat]
  | .srl d a b => [d.toNat, a.toNat, b.toNat]
  | .or d a b => [d.toNat, a.toNat, b.toNat]
  | .and d a b => [d.toNat, a.toNat, b.toNat]
  | .sub d a b => [d.toNat, a.toNat, b.toNat]
  | .sra d a b => [d.toNat, a.toNat, b.toNat]
  | .mul d a b => [d.toNat, a.toNat, b.toNat]
  | .mulh d a b => [d.toNat, a.toNat, b.toNat]
  | .mulhsu d a b => [d.toNat, a.toNat, b.toNat]
  | .mulhu d a b => [d.toNat, a.toNat, b.toNat]
  | .div d a b => [d.toNat, a.toNat, b.toNat]
  | .divu d a b => [d.toNat, a.toNat, b.toNat]
  | .rem d a b => [d.toNat, a.toNat, b.toNat]
  | .remu d a b => [d.toNat, a.toNat, b.toNat]
  | .addw d a b => [d.toNat, a.toNat, b.toNat]
  | .sllw d a b => [d.toNat, a.toNat, b.toNat]
  | .srlw d a b => [d.toNat, a.toNat, b.toNat]
  | .subw d a b => [d.toNat, a.toNat, b.toNat]
  | .sraw d a b => [d.toNat, a.toNat, b.toNat]
  | .mulw d a b => [d.toNat, a.toNat, b.toNat]
  | .divw d a b => [d.toNat, a.toNat, b.toNat]
  | .divuw d a b => [d.toNat, a.toNat, b.toNat]
  | .remw d a b => [d.toNat, a.toNat, b.toNat]
  | .remuw d a b => [d.toNat, a.toNat, b.toNat]
  | .csrrw d a _ => [d.toNat, a.toNat]
  | .csrrs d a _ => [d.toNat, a.toNat]
  | .csrrc d a _ => [d.toNat, a.toNat]
  | .csrrwi d _ _ => [d.toNat]
  | .csrrsi d _ _ => [d.toNat]
  | .csrrci d _ _ => [d.toNat]
  | .wcallr a => [a.toNat]
  | .wret => [23]
  | .send _ _ pl => if pl = 0#5 then outputs else []
  | .sendi _ _ pl => if pl = 0#5 then outputs else []
  | .tagopEnSet d _ => [d.toNat]
  | .tagopEnClr d _ => [d.toNat]
  | .tagopPdSet d _ => [d.toNat]
  | .tagopPdClr d _ => [d.toNat]
  | .tagopEnSetMask d a => [d.toNat, a.toNat]
  | .tagopEnClrMask d a => [d.toNat, a.toNat]
  | .tagopPdSetMask d a => [d.toNat, a.toNat]
  | .tagopPdClrMask d a => [d.toNat, a.toNat]
  | .enqm a _ => [a.toNat]
  | .sbind _ a => [a.toNat]
  | .trctlStatus d => [d.toNat]
  | .trctlMarkr a => [a.toNat]
  | .trctlMarkw a => [a.toNat]
  | .migrateCtx a => [a.toNat]
  | .migrateFull a => [a.toNat]
  | .rdcnt d _ => [d.toNat]
  | .rdqf d _ => [d.toNat]
  | .rdstrm d _ => [d.toNat]
  | .rdid d _ => [d.toNat]
  | .ldp d a p _ => [d.toNat, a.toNat, p.toNat]
  | .stp d a p _ => [d.toNat, a.toNat, p.toNat]
  | .ldacq d a _ _ => [d.toNat, a.toNat]
  | .strel d a _ _ => [d.toNat, a.toNat]
  | .amoAdd d a b _ _ _ => [d.toNat, a.toNat, b.toNat]
  | .amoAnd d a b _ _ _ => [d.toNat, a.toNat, b.toNat]
  | .amoOr d a b _ _ _ => [d.toNat, a.toNat, b.toNat]
  | .amoXor d a b _ _ _ => [d.toNat, a.toNat, b.toNat]
  | .amoMin d a b _ _ _ => [d.toNat, a.toNat, b.toNat]
  | .amoMax d a b _ _ _ => [d.toNat, a.toNat, b.toNat]
  | .amoMinu d a b _ _ _ => [d.toNat, a.toNat, b.toNat]
  | .amoMaxu d a b _ _ _ => [d.toNat, a.toNat, b.toNat]
  | .amoSwap d a b _ _ _ => [d.toNat, a.toNat, b.toNat]
  | .amoFadd d a b _ _ => [d.toNat, a.toNat, b.toNat]
  | .amoAddPeer d a p _ _ _ => [d.toNat, a.toNat, p.toNat]
  | .amoAndPeer d a p _ _ _ => [d.toNat, a.toNat, p.toNat]
  | .amoOrPeer d a p _ _ _ => [d.toNat, a.toNat, p.toNat]
  | .amoXorPeer d a p _ _ _ => [d.toNat, a.toNat, p.toNat]
  | .amoMinPeer d a p _ _ _ => [d.toNat, a.toNat, p.toNat]
  | .amoMaxPeer d a p _ _ _ => [d.toNat, a.toNat, p.toNat]
  | .amoMinuPeer d a p _ _ _ => [d.toNat, a.toNat, p.toNat]
  | .amoMaxuPeer d a p _ _ _ => [d.toNat, a.toNat, p.toNat]
  | .amoSwapPeer d a p _ _ _ => [d.toNat, a.toNat, p.toNat]
  | .amoFaddPeer d a p _ _ => [d.toNat, a.toNat, p.toNat]
  | .cas d a b _ _ _ => [d.toNat, a.toNat, b.toNat]
  | .push d a v _ => if v then [a.toNat] else [d.toNat, a.toNat]
  | .pop d a v _ => if v then [a.toNat] else [d.toNat, a.toNat]
  | .popw d a v _ => if v then [a.toNat] else [d.toNat, a.toNat]
  | .objinit a b => [a.toNat, b.toNat]
  | .barinit a b => [a.toNat, b.toNat]
  | .bararr a => [a.toNat]
  | .barwait d a => [d.toNat, a.toNat]
  | .decz a b => [a.toNat, b.toNat]
  | .rtset a b => [a.toNat, b.toNat]
  | .rtinv a => [a.toNat]
  | .rtbind a b => [a.toNat, b.toNat]
  | .vld _ _ a _ _ => [a.toNat]
  | .vst _ _ a _ _ => [a.toNat]
  | .vlds _ _ a b _ => [a.toNat, b.toNat]
  | .vsts _ _ a b _ => [a.toNat, b.toNat]
  | .vldx _ _ a _ _ => [a.toNat]
  | .vstx _ _ a _ _ => [a.toNat]
  | .vbcast _ _ a _ => [a.toNat]
  | .vins _ _ a _ => [a.toNat]
  | .vext _ d _ _ => [d.toNat]
  | .kmovKX _ a => [a.toNat]
  | .kmovXK d _ => [d.toNat]
  | .fence _ _ _ | .fenceI | .ecall | .ebreak | .wcall _ | .done | .tretReplay | .tretDiscard | .sendm _
  | .waitc _ _ _ _ _ | .enq _ _ | .sunbind _ | .trctlSat | .trctlFlush | .pair _ | .unpair | .phase _ _ | .rtinvAll
  | .vadd _ _ _ _ _ | .vsub _ _ _ _ _ | .vmul _ _ _ _ _ | .vfma _ _ _ _ _ | .vfms _ _ _ _ _ | .vfnma _ _ _ _ _
  | .vmin _ _ _ _ _ | .vmax _ _ _ _ _ | .vand _ _ _ _ _ | .vor _ _ _ _ _ | .vxor _ _ _ _ _ | .vshl _ _ _ _ _
  | .vshr _ _ _ _ _ | .vsra _ _ _ _ _ | .vcmp _ _ _ _ _ _ | .vabs _ _ _ _ | .vneg _ _ _ _ | .vrcp _ _ _ _
  | .vsqrt _ _ _ _ | .vrsq _ _ _ _ | .vexp2 _ _ _ _ | .vclz _ _ _ _ | .vpopc _ _ _ _ | .vredAdd _ _ _ _
  | .vredMin _ _ _ _ | .vredMax _ _ _ _ | .vcvtTo _ _ _ _ _ | .vcvtFrom _ _ _ _ _ | .vpack _ _ _ _ _
  | .vunpk _ _ _ _ _ | .vperm _ _ _ _ _ | .vsel _ _ _ _ _ | .vdot _ _ _ _ _ | .vmma64 _ _ _ | .kand _ _ _
  | .kor _ _ _ | .kxor _ _ _ | .knot _ _ | .kmovKK _ _ | .qnop | .qfence _ | .qsignalAdd _ _ | .qsignalDecz _
  | .qsignalBararr _ | .qwait _ _ _ | .qwaitPoll _ _ | .mxloadb _ _ _ _ _ | .mxloada _ _ _ _ | .mxrun _ _ _ _ _
  | .mxout _ _ _ _ | .mxzero _ _ | .mxcfg _ _ | .mxswap | .cpy _ _ _ _ | .cpyg _ _ _ | .cpys _ _ _ | .cpyfill _ _ _ _
  | .commandPerformed _ _ | .activationStart _ _ | .pendingStart _ _ | .codeletStart _ | .closeStart _ _
  | .managementStart _ | .routeFaultReport _ _ | .movedNotice _ _ | .acttime _ _ | .messageInjection _
  | .messageArrival _ _ | .heldMessageAccept _ _ | .subringRefill _ _ | .roundMarkerArrival _ _
  | .fenceMarkerArrival _ _ | .argumentUpdateEffect _ _ | .routerHeaderStep _ | .creditReturn _ _ _
  | .flitCrcError _ _ | .linkReplay _ _ | .linkDown _ _ | .memoryRequestArrival _ | .deczHome _ | .loadReply _
  | .storeAck _ | .syReply _ | .syncOperation _ | .dieArrival _ _ | .phaseReleaseArrival _ _ | .pairingArrival _
  | .parkedDeparture _ | .strelInject _ | .streamElementAccess _ _ | .walkComplete _ _ | .missRetry _ _ _
  | .busyRetry _ _ _ | .pageUpdate _ _ _ | .twinCompare _ _ | .twinTimeout _ | .migrationDrainTimeout _
  | .migrationAbandon _ _ | .migrationTransfer _ _ _ _ | .forwardPacket _ _ | .regPhase _ | .regDark _ | .holdupEnd _
  | .powerStageStart _ | .powerStageEnd _ | .powerWait _ | .convFail _ | .thermalSample _ _ _ | .trayUndervoltage _ _
  | .coolantLowFlow _ _ | .softErr _ | .dramScrub _ | .coldReset | .stagePower _ _ _ _ | .stageDramTraining _ _
  | .stageLinkTest _ _ | .stageGraft | .qclaim _ | .qpublish _ _ _ | .queueTake | .load | .launch | .roundStart
  | .logReplay _ | .quiescenceSweep | .labort _ | .launchTimeout | .hostRead _ _ _ | .hostWrite _ _ _
  | .registerWrite _ _ _ | .spdmGetVersion _ | .spdmGetCapabilities _ | .spdmNegotiateAlgorithms _
  | .spdmGetDigests _ | .spdmGetCertificate _ | .spdmChallenge _ | .spdmGetMeasurements _ | .spdmUnsupported _ _
  | .portTrain _ | .portDisable _ | .portTrained _ _ | .keyStage _ _ | .groupSend _ _ | .groupReceive _ _ _ _ _
  | .ackFrame _ _ _ _ | .nakFrame _ _ _ _ | .fabricCreditFrame _ _ _ | .keySwitch _ _ _ _ | .los _ _
  | .restripe _ _ _ | .laneRejoin _ _ | .replayLog _ | .laserFailureDetect _ _ | .laserMonitorUpdate _ _ _ _ _ _ _ _
  | .ptpSync _ _ | .ptpLost | .ptpResume | .rotationStart | .slotStart _ _ | .illegalEncoding _ | .rejectedCommand _
  | .hostRingWrite _ _ _ | .streamElementArrival _ _ _ | .engineReadReturn _ _ _ | .fetchBlockReturn _ _ _
  | .graftRewrite _ _ | .forwardingEntryRetire _ => []

/-- Vector registers an instruction reads or writes. -/
def vRegs : Instr → List Nat
  | .send _ _ pl => if pl = 0#5 then [] else [2 * (pl.toNat % 16), 2 * (pl.toNat % 16) + 1]
  | .sendi _ _ pl => if pl = 0#5 then [] else [2 * (pl.toNat % 16), 2 * (pl.toNat % 16) + 1]
  | .enq a _ => [a.toNat]
  | .push d _ v _ => if v then [d.toNat] else []
  | .pop d _ v _ => if v then [d.toNat] else []
  | .popw d _ v _ => if v then [d.toNat] else []
  | .vadd _ d a b _ => [d.toNat, a.toNat, b.toNat]
  | .vsub _ d a b _ => [d.toNat, a.toNat, b.toNat]
  | .vmul _ d a b _ => [d.toNat, a.toNat, b.toNat]
  | .vfma _ d a b _ => [d.toNat, a.toNat, b.toNat]
  | .vfms _ d a b _ => [d.toNat, a.toNat, b.toNat]
  | .vfnma _ d a b _ => [d.toNat, a.toNat, b.toNat]
  | .vmin _ d a b _ => [d.toNat, a.toNat, b.toNat]
  | .vmax _ d a b _ => [d.toNat, a.toNat, b.toNat]
  | .vand _ d a b _ => [d.toNat, a.toNat, b.toNat]
  | .vor _ d a b _ => [d.toNat, a.toNat, b.toNat]
  | .vxor _ d a b _ => [d.toNat, a.toNat, b.toNat]
  | .vshl _ d a b _ => [d.toNat, a.toNat, b.toNat]
  | .vshr _ d a b _ => [d.toNat, a.toNat, b.toNat]
  | .vsra _ d a b _ => [d.toNat, a.toNat, b.toNat]
  | .vcmp _ _ _ a b _ => [a.toNat, b.toNat]
  | .vabs _ d a _ => [d.toNat, a.toNat]
  | .vneg _ d a _ => [d.toNat, a.toNat]
  | .vrcp _ d a _ => [d.toNat, a.toNat]
  | .vsqrt _ d a _ => [d.toNat, a.toNat]
  | .vrsq _ d a _ => [d.toNat, a.toNat]
  | .vexp2 _ d a _ => [d.toNat, a.toNat]
  | .vclz _ d a _ => [d.toNat, a.toNat]
  | .vpopc _ d a _ => [d.toNat, a.toNat]
  | .vredAdd _ d a _ => [d.toNat, a.toNat]
  | .vredMin _ d a _ => [d.toNat, a.toNat]
  | .vredMax _ d a _ => [d.toNat, a.toNat]
  | .vld _ d _ _ _ => [d.toNat]
  | .vst _ d _ _ _ => [d.toNat]
  | .vlds _ d _ _ _ => [d.toNat]
  | .vsts _ d _ _ _ => [d.toNat]
  | .vldx _ d _ b _ => [d.toNat, b.toNat]
  | .vstx _ d _ b _ => [d.toNat, b.toNat]
  | .vcvtTo _ d a _ _ => [d.toNat, a.toNat]
  | .vcvtFrom _ d a _ _ => [d.toNat, a.toNat]
  | .vpack _ d a b _ => [d.toNat, a.toNat, b.toNat]
  | .vunpk _ d a _ _ => [d.toNat, a.toNat]
  | .vperm _ d a b _ => [d.toNat, a.toNat, b.toNat]
  | .vbcast _ d _ _ => [d.toNat]
  | .vins _ d _ _ => [d.toNat]
  | .vext _ _ a _ => [a.toNat]
  | .vsel _ d a b _ => [d.toNat, a.toNat, b.toNat]
  | .vdot _ d a b _ => [d.toNat, a.toNat, b.toNat]
  | .vmma64 d a b => [d.toNat, d.toNat + 1, d.toNat + 2, d.toNat + 3, a.toNat, b.toNat]
  | .lui _ _ | .auipc _ _ | .jal _ _ | .jalr _ _ _ | .beq _ _ _ | .bne _ _ _ | .blt _ _ _ | .bge _ _ _ | .bltu _ _ _
  | .bgeu _ _ _ | .lb _ _ _ | .lh _ _ _ | .lw _ _ _ | .ld _ _ _ | .lbu _ _ _ | .lhu _ _ _ | .lwu _ _ _ | .sb _ _ _
  | .sh _ _ _ | .sw _ _ _ | .sd _ _ _ | .addi _ _ _ | .slti _ _ _ | .sltiu _ _ _ | .xori _ _ _ | .ori _ _ _
  | .andi _ _ _ | .slli _ _ _ | .srli _ _ _ | .srai _ _ _ | .addiw _ _ _ | .slliw _ _ _ | .srliw _ _ _ | .sraiw _ _ _
  | .add _ _ _ | .sll _ _ _ | .slt _ _ _ | .sltu _ _ _ | .xor _ _ _ | .srl _ _ _ | .or _ _ _ | .and _ _ _
  | .sub _ _ _ | .sra _ _ _ | .mul _ _ _ | .mulh _ _ _ | .mulhsu _ _ _ | .mulhu _ _ _ | .div _ _ _ | .divu _ _ _
  | .rem _ _ _ | .remu _ _ _ | .addw _ _ _ | .sllw _ _ _ | .srlw _ _ _ | .subw _ _ _ | .sraw _ _ _ | .mulw _ _ _
  | .divw _ _ _ | .divuw _ _ _ | .remw _ _ _ | .remuw _ _ _ | .fence _ _ _ | .fenceI | .ecall | .ebreak
  | .csrrw _ _ _ | .csrrs _ _ _ | .csrrc _ _ _ | .csrrwi _ _ _ | .csrrsi _ _ _ | .csrrci _ _ _ | .wcall _ | .wcallr _
  | .wret | .done | .tretReplay | .tretDiscard | .sendm _ | .tagopEnSet _ _ | .tagopEnClr _ _ | .tagopPdSet _ _
  | .tagopPdClr _ _ | .tagopEnSetMask _ _ | .tagopEnClrMask _ _ | .tagopPdSetMask _ _ | .tagopPdClrMask _ _
  | .waitc _ _ _ _ _ | .enqm _ _ | .sbind _ _ | .sunbind _ | .trctlStatus _ | .trctlMarkr _ | .trctlMarkw _
  | .trctlSat | .trctlFlush | .pair _ | .unpair | .migrateCtx _ | .migrateFull _ | .rdcnt _ _ | .rdqf _ _
  | .rdstrm _ _ | .rdid _ _ | .ldp _ _ _ _ | .stp _ _ _ _ | .ldacq _ _ _ _ | .strel _ _ _ _ | .amoAdd _ _ _ _ _ _
  | .amoAnd _ _ _ _ _ _ | .amoOr _ _ _ _ _ _ | .amoXor _ _ _ _ _ _ | .amoMin _ _ _ _ _ _ | .amoMax _ _ _ _ _ _
  | .amoMinu _ _ _ _ _ _ | .amoMaxu _ _ _ _ _ _ | .amoSwap _ _ _ _ _ _ | .amoFadd _ _ _ _ _ | .amoAddPeer _ _ _ _ _ _
  | .amoAndPeer _ _ _ _ _ _ | .amoOrPeer _ _ _ _ _ _ | .amoXorPeer _ _ _ _ _ _ | .amoMinPeer _ _ _ _ _ _
  | .amoMaxPeer _ _ _ _ _ _ | .amoMinuPeer _ _ _ _ _ _ | .amoMaxuPeer _ _ _ _ _ _ | .amoSwapPeer _ _ _ _ _ _
  | .amoFaddPeer _ _ _ _ _ | .cas _ _ _ _ _ _ | .objinit _ _ | .barinit _ _ | .bararr _ | .barwait _ _ | .decz _ _
  | .phase _ _ | .rtset _ _ | .rtinv _ | .rtinvAll | .rtbind _ _ | .kand _ _ _ | .kor _ _ _ | .kxor _ _ _ | .knot _ _
  | .kmovKK _ _ | .kmovKX _ _ | .kmovXK _ _ | .qnop | .qfence _ | .qsignalAdd _ _ | .qsignalDecz _ | .qsignalBararr _
  | .qwait _ _ _ | .qwaitPoll _ _ | .mxloadb _ _ _ _ _ | .mxloada _ _ _ _ | .mxrun _ _ _ _ _ | .mxout _ _ _ _
  | .mxzero _ _ | .mxcfg _ _ | .mxswap | .cpy _ _ _ _ | .cpyg _ _ _ | .cpys _ _ _ | .cpyfill _ _ _ _
  | .commandPerformed _ _ | .activationStart _ _ | .pendingStart _ _ | .codeletStart _ | .closeStart _ _
  | .managementStart _ | .routeFaultReport _ _ | .movedNotice _ _ | .acttime _ _ | .messageInjection _
  | .messageArrival _ _ | .heldMessageAccept _ _ | .subringRefill _ _ | .roundMarkerArrival _ _
  | .fenceMarkerArrival _ _ | .argumentUpdateEffect _ _ | .routerHeaderStep _ | .creditReturn _ _ _
  | .flitCrcError _ _ | .linkReplay _ _ | .linkDown _ _ | .memoryRequestArrival _ | .deczHome _ | .loadReply _
  | .storeAck _ | .syReply _ | .syncOperation _ | .dieArrival _ _ | .phaseReleaseArrival _ _ | .pairingArrival _
  | .parkedDeparture _ | .strelInject _ | .streamElementAccess _ _ | .walkComplete _ _ | .missRetry _ _ _
  | .busyRetry _ _ _ | .pageUpdate _ _ _ | .twinCompare _ _ | .twinTimeout _ | .migrationDrainTimeout _
  | .migrationAbandon _ _ | .migrationTransfer _ _ _ _ | .forwardPacket _ _ | .regPhase _ | .regDark _ | .holdupEnd _
  | .powerStageStart _ | .powerStageEnd _ | .powerWait _ | .convFail _ | .thermalSample _ _ _ | .trayUndervoltage _ _
  | .coolantLowFlow _ _ | .softErr _ | .dramScrub _ | .coldReset | .stagePower _ _ _ _ | .stageDramTraining _ _
  | .stageLinkTest _ _ | .stageGraft | .qclaim _ | .qpublish _ _ _ | .queueTake | .load | .launch | .roundStart
  | .logReplay _ | .quiescenceSweep | .labort _ | .launchTimeout | .hostRead _ _ _ | .hostWrite _ _ _
  | .registerWrite _ _ _ | .spdmGetVersion _ | .spdmGetCapabilities _ | .spdmNegotiateAlgorithms _
  | .spdmGetDigests _ | .spdmGetCertificate _ | .spdmChallenge _ | .spdmGetMeasurements _ | .spdmUnsupported _ _
  | .portTrain _ | .portDisable _ | .portTrained _ _ | .keyStage _ _ | .groupSend _ _ | .groupReceive _ _ _ _ _
  | .ackFrame _ _ _ _ | .nakFrame _ _ _ _ | .fabricCreditFrame _ _ _ | .keySwitch _ _ _ _ | .los _ _
  | .restripe _ _ _ | .laneRejoin _ _ | .replayLog _ | .laserFailureDetect _ _ | .laserMonitorUpdate _ _ _ _ _ _ _ _
  | .ptpSync _ _ | .ptpLost | .ptpResume | .rotationStart | .slotStart _ _ | .illegalEncoding _ | .rejectedCommand _
  | .hostRingWrite _ _ _ | .streamElementArrival _ _ _ | .engineReadReturn _ _ _ | .fetchBlockReturn _ _ _
  | .graftRewrite _ _ | .forwardingEntryRetire _ => []

/-- An outstanding access is to write scalar register `r` of the current window. -/
def Dest.hitsX (k : Dest) (depth r : Nat) : Bool :=
  match k with
  | .glob g _ _ => g == r
  | .win i _ _ => decide (8 ≤ r) && winIdx depth r == i
  | .none | .vec _ _ _ | .block _ _ | .gather _ | .fetch _ | .barrier _ | .element | .engine => false

/-- An outstanding access is to write vector register `r`. -/
def Dest.hitsV (k : Dest) (r : Nat) : Bool :=
  match k with
  | .vec q _ _ => q == r
  | .block q _ => q == r
  | .none | .glob _ _ _ | .win _ _ _ | .gather _ | .fetch _ | .barrier _ | .element | .engine => false

/-- The instruction must wait for a register's value (R58). -/
def State.hazard (s : State) (core ctx : Nat) (i : Instr) : Bool :=
  let x := s.ctx core ctx
  (s.reqs.filter fun r => r.owner == .ctx core ctx x.epoch).any fun r =>
    (xRegs i).any (r.dest.hitsX x.depth) || (vRegs i).any r.dest.hitsV

/-- An earlier access of the context lets nothing issue before its reply (R291, R295, R299). -/
def State.held (s : State) (core ctx : Nat) : Bool :=
  s.reqs.any fun r => r.holds && r.owner == .ctx core ctx (s.ctx core ctx).epoch

end Sys2Proof.Machine
end

