-- ==== Sys2Proof/Machine/Pick.lean ====
section
/-! DEFINITION. Which context of a core issues (R193), and when a time limit falls due (R28, R205, R207, R247, R340,
R341). -/

namespace Sys2Proof.Machine

open Sys2Proof

/-! ### Issue (R193) -/

/-- Rank of a context that has not aged, lowest first: system mode, then role. -/
def Ctx.issueRank (x : Ctx) : Nat :=
  match x.act with
  | some a => (match a.mode with
    | .system => 0
    | .app => 1 + a.role)
  | none => 0

/-- Of two ready contexts, the first issues before the second: an aged one before one that is not, of two aged ones the
longer wait first; then the rank; then the number (R193). -/
def State.issuesBefore (s : State) (core d c : Nat) : Bool :=
  let x := s.ctx core d
  let y := s.ctx core c
  let age := (s.core core).ageb.toNat - 3
  if x.waits ≥ age ∧ y.waits ≥ age then decide (y.waits < x.waits) || (x.waits == y.waits && lexBefore [x.issueRank, d] [y.issueRank, c])
  else if x.waits ≥ age then true
  else if y.waits ≥ age then false
  else lexBefore [x.issueRank, d] [y.issueRank, c]

/-- The context holds an activation whose first instruction may issue, and no earlier access holds it back. -/
def State.runs (s : State) (core c : Nat) : Bool :=
  (match (s.ctx core c).act with
   | some a => decide (a.begun ≤ s.now)
   | none => false) && !s.held core c

/-- The context's next instruction is at hand and waits for no register (R58, R193). A fetch that faults is at hand too. -/
def State.atHand (s : State) (core c : Nat) : Bool :=
  match s.fetch core c with
  | .wait _ => false
  | .trap _ _ _ => true
  | .word u w => match decode32 w with
    | none => true
    | some i => !u.hazard core c i

/-- A context whose next instruction is still to be fetched goes on fetching it, whichever context issues (R59). -/
def State.fetchAhead (s : State) (core c : Nat) : State :=
  if s.runs core c then
    match s.fetch core c with
    | .wait t => t
    | .trap _ _ _ | .word _ _ => s
  else s

/-! ### Time limits -/

/-- What falls due when a time limit has run. -/
inductive Limit where
  /-- an activation reaches the core's limit (R28) -/
  | activation (core ctx : Nat)
  /-- what still runs on a core that moves is aborted (R207) -/
  | drain (core : Nat)
  /-- a move whose drain is past its limit is abandoned (R207, R211) -/
  | move (core : Nat)
  /-- a packet's twin has not come (R205) -/
  | twin (core : Nat)
  /-- a parked request leaves (R247) -/
  | parked (site : Nat)
  /-- a quiescence sweep (R340) -/
  | sweep
  /-- the time limit of a launch (R341) -/
  | launch
  /-- a held host access whose page is no longer being moved (R314, R344) -/
  | host
  deriving DecidableEq, Repr

/-- The machine step that then happens. -/
def Limit.run (l : Limit) (s : State) : Host.Outcome State Fault Refusal :=
  match l with
  | .activation core ctx => execActtime core ctx s
  | .drain core => execMigrationDrainTimeout core s
  | .move core => execMigrationAbandon core false s
  | .twin core => execTwinTimeout core s
  | .parked site => execParkedDeparture site s
  | .sweep => execQuiescenceSweep s
  | .launch => execLaunchTimeout s
  | .host => execHostRetry s

/-- Clock at which an activation has reached the limit that governs it (R28). -/
def State.limitAt (s : State) (key : Nat) (x : Ctx) : Option Nat :=
  match x.act with
  | some a =>
    let c := s.core (key / 4)
    let lim := c.actlim.toNat
    if a.mode = .app ∧ a.issued = true ∧ lim ≠ 0 then
      some (if a.begun + lim < c.limitFrom then c.limitFrom else a.begun + lim)
    else none
  | none => none

/-- Limits of a core: of its contexts' moves to another site, and of a packet that waits for its twin (R205, R207). -/
def Core.limits (n : Nat) (c : Core) : List (Nat × Limit) :=
  (match c.mig with
   | some m =>
     if m.phase = 0 then [(m.since + 65536, .drain n)]
     else if m.phase = 1 then [(m.since + 65537, .move n)] else []
   | none => []) ++
  (match c.pair with
   | some p => (match p.waiting with
     | [] => []
     | w :: _ => [(w.since + 65, .twin n)])
   | none => [])

/-- Limits of a launch: its next sweep and its time limit (R340, R341). -/
def Running.limits (r : Running) : List (Nat × Limit) :=
  (if r.phase = 2 ∧ r.starts.isEmpty then [(r.sweepAt, .sweep)] else []) ++
  (if r.stoppable ∧ r.cmd.limit ≠ 0 then [(r.took + r.cmd.limit * usec, .launch)] else [])

/-- Every time limit that runs, with the clock at which it falls due (R28, R205, R207, R247, R340, R341), and a held host access
that can be performed now (R344). -/
def State.limits (s : State) : List (Nat × Limit) :=
  (s.ctxs.filterMap fun e => (s.limitAt e.1 e.2).map fun t => (t, .activation (e.1 / 4) (e.1 % 4))) ++
  (s.cores.flatMap fun e => e.2.limits e.1) ++
  (s.net.filterMap fun f => match f.spot with
    | .parked _ _ _ => if s.parkedFirst f then some (f.dueAt, .parked f.site) else none
    | .queued | .buffer | .eject _ | .replay _ _ | .egress _ _ | .intake => none) ++
  (match s.running with
   | some r => r.limits
   | none => []) ++
  (if (s.hostFree [] s.hostHeld).isSome then [(s.now, .host)] else [])

/-- The first of the limits that fall due by a clock. -/
def dueIn (by' : Nat) : List (Nat × Limit) → Option (Nat × Limit)
  | [] => none
  | (t, i) :: rest =>
    if t > by' then dueIn by' rest
    else match dueIn by' rest with
      | some (u, j) => if u < t then some (u, j) else some (t, i)
      | none => some (t, i)

def State.due (s : State) (by' : Nat) : Option (Nat × Limit) := dueIn by' s.limits

end Sys2Proof.Machine
end

