-- ==== Sys2Proof/Machine/Sched.lean ====
section
/-! DEFINITION. What the default scheduler may let move next (log entry 4): the machine's own steps. Inputs of the outside
world, failures and time limits of the spec that only an input can bring about come from the agenda. -/

namespace Sys2Proof.Machine

open Sys2Proof

/-- A move the default scheduler may make; one that is not enabled changes nothing. -/
abbrev Cand := State → Host.Outcome State Fault Refusal

/-- Steps of an outstanding access. -/
def Req.cands (r : Req) : List Cand :=
  let ends : List Cand := match r.owner with
    | .ctx n c _ => [execLoadReply (.own r.id), execStoreAck (.own r.id), execSyReply (.own r.id), execFetchBlockReturn n c false]
    | .stream n q _ => [execStreamElementArrival n q false]
    | .engine n q _ => [execEngineReadReturn n q false, execStoreAck (.own r.id), execSyReply (.own r.id)]
    | .host _ => []
  execMemoryRequestArrival (.own r.id) :: execDeczHome (.own r.id) :: execStrelInject r.id :: ends

/-- Steps of a packet at the end of its route. -/
def Flight.arrivals (f : Flight) (core : Nat) : List Cand :=
  let on := execForwardPacket f.site f.id
  match f.pkt.hdr.kind with
  | .data => [execMessageArrival core f.id, execHeldMessageAccept core f.id, on]
  | .marker => [execRoundMarkerArrival core f.id, on]
  | .fence => [execFenceMarkerArrival core f.id, on]
  | .memReq => [execMemoryRequestArrival (.packet f.id), execDeczHome (.packet f.id), on]
  | .memRep => [execLoadReply (.packet f.id), execStoreAck (.packet f.id), execSyReply (.packet f.id), on]
  | .syncReq => []
  | .pairReq => []
  | .syncRep => [execSyReply (.packet f.id), on]
  | .pairRep => [execSyReply (.packet f.id), on]
  | .mgmt => [execManagementStart core, on]
  | .migrate => [execMigrationTransfer f.pkt.hdr.score true [] []]
  | .reserved _ => []

/-- Steps of a packet where it stands. -/
def State.flightCands (s : State) (f : Flight) : List Cand :=
  match f.spot with
  | .buffer => [execPairingArrival f.id, execRouterHeaderStep f.id]
  | .queued => []
  | .parked _ _ _ => [execParkedDeparture f.site]
  | .replay site dir => [execLinkReplay site dir, execLinkDown site dir]
  | .egress port _ => [execGroupSend port (s.peerCtx port f.pkt.hdr.dmod)]
  | .intake => match f.pkt.body with
    | .phase _ g true => [execPhaseReleaseArrival (siteDie f.site) g]
    | .phase die g false => [execDieArrival die g]
    | _ => [execSyncOperation (siteDie f.site)]
  | .eject _ => f.arrivals (((s.site f.site).core).getD 0)

def allQueues : List EngineQ := [.mxq, .cpq0, .cpq1]

/-- Steps of a core. -/
def Core.cands (n : Nat) (c : Core) : List Cand :=
  (c.queues.filterMap fun p => if p.2.isEmpty then none else some (execActivationStart n p.1)) ++
  (c.rings.filterMap fun p => if p.2.isEmpty then none else some (execSubringRefill n p.1)) ++
  ((List.range 64).filterMap fun t => if c.tagpend.getLsbD t then some (execPendingStart n t) else none) ++
  (c.rounds.map fun p => execCloseStart n p.1) ++
  (c.staged.map fun p => execArgumentUpdateEffect n p.1) ++
  (if c.sysq.isEmpty then [] else [execManagementStart n, execRouteFaultReport n none, execMovedNotice n none]) ++
  (if c.outq.isEmpty then [] else [execMessageInjection n]) ++
  (if c.genHold.isEmpty then [] else [execHeldMessageAccept n 0]) ++
  (if (c.queues.at 7 []).isEmpty then [] else [execCodeletStart n]) ++
  (c.streams.filterMap fun p => if p.2.bound then some (execStreamElementAccess n p.1) else none) ++
  ((List.range c.drains.length).map fun q => execStreamElementAccess n q) ++
  (allQueues.flatMap fun q =>
    let k := queueNo q
    if (c.cmds.at k []).isEmpty && (c.jobs.look k).isNone then [] else [execCommandPerformed n q, execQwaitPoll n q]) ++
  (match c.pair with
   | some p => if p.waiting.isEmpty then [] else [execTwinCompare n false]
   | none => []) ++
  (match c.mig with
   | some _ => [execMigrationTransfer n true [] [], execMigrationDrainTimeout n]
   | none => [])

/-- Steps of a die. -/
def Die.cands (n : Nat) (d : Die) : List Cand :=
  (d.walks.map fun w => execWalkComplete n w.page) ++
  (d.refusedMiss.map fun p => execMissRetry n p.2 p.1) ++
  (d.busyWait.map fun p => execBusyRetry n p.2 p.1) ++
  (d.phases.map fun p => execPhaseReleaseArrival n p.1) ++
  (d.rehoming.map fun x => execHoldupEnd (siteCluster x)) ++
  [execSyncOperation n]

/-- Steps of a cluster's power. -/
def Cluster.cands (n : Nat) (c : Cluster) : List Cand :=
  (if c.holdup.isSome then [execHoldupEnd n] else []) ++
  (if c.stageAt.isSome then [execPowerStageEnd n] else []) ++
  (if c.waitAt.isSome then [execPowerStageStart n, execPowerWait n] else [])

/-- Steps of an optical port. -/
def Port.cands (n : Nat) (q : Port) (slots : Nat) : List Cand :=
  (q.ctxs.map fun e => execGroupSend n e.1) ++
  (if q.replayAt.isSome then [execReplayLog n] else []) ++
  (if q.mode = 2 then (List.range slots).map fun i => execSlotStart n i else [])

/-- Steps of the launch tile, of bring-up and of the slot clock (R336–R342, R369, R391, R392). -/
def State.moduleCands (s : State) : List Cand :=
  (if s.queues.isEmpty then [] else [execQueueTake]) ++
  (match s.running with
   | none => []
   | some _ => [execLoad, execLaunch, execRoundStart, execQuiescenceSweep, execLaunchTimeout] ++
      (s.coppice.replays.map fun p => execLogReplay p.1)) ++
  (if s.bringup.stage = 1 then (List.range 64).filterMap fun d =>
    ((List.range 64).find? fun k => let c := s.cluster (64 * d + k); decide (c.stages < 4) && c.stageAt.isNone).map fun k =>
      execPowerStageStart (64 * d + k) else []) ++
  (if s.bringup.stage = 4 then [execStageGraft] else []) ++
  (if s.slotRun || s.rotation.isSome then [execRotationStart] else []) ++
  (if s.ptp.lost then [execPtpResume] else if s.slotRun then [execPtpLost] else [])

/-- Credits on their way back. -/
def owedCand (p : Nat × Nat) : Cand :=
  let dir : Dir := match p.1 % 128 / 8 with
    | 0 => .n | 1 => .e | 2 => .s | _ => .w
  execCreditReturn (p.1 / 128) dir (p.1 % 8)

/-- The machine steps that concern what the state holds. -/
def State.eventCands (s : State) : List Cand :=
  s.reqs.flatMap Req.cands
  ++ s.net.flatMap s.flightCands
  ++ s.cores.flatMap (fun p => p.2.cands p.1)
  ++ s.reports.map (fun r => execRouteFaultReport r.1 none)
  ++ s.dies.flatMap (fun p => p.2.cands p.1)
  ++ s.clusters.flatMap (fun p => p.2.cands p.1)
  ++ s.ports.flatMap (fun p => p.2.cands p.1 s.slotEntries.length)
  ++ s.moduleCands
  ++ s.owed.map owedCand

end Sys2Proof.Machine
end

