-- ==== Sys2Proof/Machine/Issue.lean ====
section
/-! DEFINITION. One move of the machine: an instruction of the context a core chooses (R58, R193), a step of an engine's command
(R108), or a machine step; and which of them comes next (log entry 4). -/

namespace Sys2Proof.Machine

open Sys2Proof

/-- What every core does at the end of a cycle: its accesses that wait behind none any more set out (R250, R272), it makes the
arrivals that stand and may be made (R277), and notes since when its candidates have been eligible (R192). -/
def State.observe (s : State) : State :=
  let t := s.pumpAll.sendStanding
  { t with cores := t.cores.mapV fun n c => t.noted n c }

/-- The first instruction of the context's activation issues now (R28). -/
def State.noteIssue (s : State) (core ctx : Nat) : State :=
  let x := s.ctx core ctx
  match x.act with
  | none => s
  | some a => if a.issued then s else s.setCtx core ctx { x with act := some { a with issued := true, begun := s.now } }

/-- The instruction of context `ctx`, chosen to issue (R58, R193). -/
def State.runCtx (s : State) (core ctx : Nat) (merge : Bool) : Host.Outcome State Fault Refusal :=
  let t := { s with focus := { s.focus with core, ctx, merge } }
  if t.held core ctx then .next t
  else match t.fetch core ctx with
    | .wait u => .next u
    | .trap u cause val => .next (u.trap core ctx cause val (u.ctx core ctx).pc)
    | .word u w => match decode32 w with
      | none => Sys2Proof.Machine.execIllegalEncoding w (u.noteIssue core ctx)
      | some i => if u.hazard core ctx i then .next u else exec i (u.noteIssue core ctx)

/-- A control transfer: it may leave the program counter as it was. -/
def isJump : Instr → Bool
  | .jal _ _ => true | .jalr _ _ _ => true | .beq _ _ _ => true | .bne _ _ _ => true | .blt _ _ _ => true
  | .bge _ _ _ => true | .bltu _ _ _ => true | .bgeu _ _ _ => true | .wcall _ => true | .wcallr _ => true | .wret => true
  | _ => false

/-- The unit of the context's next instruction accepts it (R193): an instruction that stalls and asks for nothing leaves its
context, and the walks of the dies, as they are. -/
def State.unitTakes (s : State) (core c : Nat) (merge : Bool) : Bool :=
  let t := { s with focus := { s.focus with core, ctx := c, merge } }
  match t.fetch core c with
  | .wait _ => false
  | .trap _ _ _ => true
  | .word u w => match decode32 w with
    | none => true
    | some i => isJump i || (match exec i u with
      | .next v => v.ctx core c != u.ctx core c || v.dies != u.dies
      | .fault _ => true
      | .refused _ => true)

/-- What each context does in a cycle whichever of them issues: one whose next word is not at hand goes on fetching it (R59);
the first instruction of an activation that could issue but for a stall in its unit counts as issued, since the count of R28 takes
in stall cycles (log entry 106). -/
def State.fetchOn (s : State) (core c : Nat) : State :=
  let t := s.fetchAhead core c
  let first : Bool := match (t.ctx core c).act with
    | some a => !a.issued
    | none => false
  if first && t.runs core c && t.atHand core c && !t.unitTakes core c false then t.noteIssue core c else t

/-- Contexts that are ready, among those the latencies let issue: the next instruction is at hand, waits for no register, and its
unit accepts it (R193). -/
def State.readyOf (s : State) (core ready : Nat) (merge : Bool) : List Nat :=
  (List.range 4).filter fun c => bit ready c && s.runs core c && s.atHand core c && s.unitTakes core c merge

/-- The waiting counts after a cycle in which the contexts of a list were ready and one of them, if any, was chosen (R193). -/
def State.tally (s : State) (core : Nat) (l : List Nat) (chosen : Option Nat) : State :=
  (List.range 4).foldl (fun t d =>
    let x := t.ctx core d
    let w := if l.contains d && chosen != some d then x.waits + 1 else 0
    if x.waits = w then t else t.setCtx core d { x with waits := w }) s

/-- The context chosen among those ready, and the state with the waiting counts after the choice (R193). -/
def State.choose (s : State) (core ready : Nat) (merge : Bool) : Option Nat × State :=
  let l := s.readyOf core ready merge
  match leastBy (s.issuesBefore core) l with
  | none => (none, s.tally core l none)
  | some c =>
    let t := s.tally core l (some c)
    (some c, t.setCore core { t.core core with issuedAt := some s.now })

/-- One cycle of a core's scalar pipeline (R193): contexts without their next word fetch on, and one that is ready issues, if
none has in this cycle. -/
def State.issue (s0 : State) (core ready : Nat) (merge : Bool) : Host.Outcome State Fault Refusal :=
  if (s0.core core).issuedAt = some s0.now then .next s0
  else
    let s := ((List.range 4).filter fun c => bit ready c).foldl (fun t c => t.fetchOn core c) s0
    match s.choose core ready merge with
    | (none, t) => .next t
    | (some ctx, t) => t.runCtx core ctx merge

/-- One step of the command at the head of an engine queue (R108). -/
def State.runQueue (s : State) (core : Nat) (q : EngineQ) : Host.Outcome State Fault Refusal :=
  let t := { s with focus := { s.focus with core, queue := q } }
  match (t.core core).job q with
  | some j => exec j.instr t
  | none => match t.headCmd with
    | none => .next t
    | some h => match decodeCommand q h.word with
      | .ok i => exec i t
      | .error _ => execRejectedCommand h.word t

/-- The rows of the opcode table that are steps of the machine rather than words a core or an engine reads. -/
def isStep (i : Instr) : Bool :=
  (encode i).isNone && (commandFields i).isNone && (match i with
    | .illegalEncoding _ => false
    | .rejectedCommand _ => false
    | _ => true)

/-- One move. -/
def State.move (s : State) (m : Move) : Host.Outcome State Fault Refusal :=
  match m with
  | .issue core ready merge => if core < Config.numCores then s.issue core ready merge else .fault .noSuchParty
  | .command core q => if core < Config.numCores then s.runQueue core q else .fault .noSuchParty
  | .event i => if isStep i && i.wf then exec i s else .fault .noSuchParty

/-- What the default scheduler may let move next: an instruction, a command, or a machine step (log entry 4). -/
def State.candidates (s : State) : List Cand :=
  (s.ctxs.filterMap fun p =>
    if p.2.act.isSome then some (fun t : State => t.issue (p.1 / 4) (2 ^ (p.1 % 4)) false) else none) ++
  (s.cores.flatMap fun p => [EngineQ.mxq, .cpq0, .cpq1].filterMap fun q =>
    if (p.2.cmds.at (queueNo q) []).isEmpty && (p.2.job q).isNone then none
    else some (fun t : State => t.runQueue p.1 q)) ++
  s.eventCands

/-- The next move: a time limit that falls due before it comes first (R28, R205, R207, R247, R340,
R341). -/
def State.advance (s : State) : Host.Outcome State Fault Refusal :=
  match s.agenda with
  | (dt, m) :: rest => match s.due (s.now + dt) with
    | some (at', l) =>
      let t := if at' < s.now then s.now else at'
      l.run { s with now := t, agenda := (s.now + dt - t, m) :: rest }
    | none => State.move { s with now := s.now + dt, agenda := rest } m
  | [] => match s.due (s.now + 1) with
    | some (at', l) => l.run { s with now := if at' < s.now then s.now else at' }
    | none =>
      let ms := s.candidates
      let t := { s with now := s.now + 1, turn := s.turn + 1 }
      match ms[s.turn % ms.length]? with
      | none => .next t
      | some m => m t

end Sys2Proof.Machine
end

