-- ==== Sys2Proof/Machine/Step.lean ====
section
/-! DEFINITION. One step of the machine: the time limit that falls due, else the move at the head of the agenda, else one of
the default scheduler's candidates (log entry 4). -/

namespace Sys2Proof.Machine

open Sys2Proof

/-- One step: each core does what falls at the end of a cycle (R192, R272, R277), then the next move is made. -/
def step (s : State) : Host.Outcome State Fault Refusal := s.observe.advance

/-- The state with an instruction where `step` takes its next one (log entry 15): a 32-bit word in core 0's scratchpad at
the program counter of a running activation, a 256-bit word at the head of its queue. -/
def State.withFetchWord (s : State) (nbits w : Nat) : State :=
  if nbits ≤ 32 then
    let x := s.ctx 0 0
    let a : Activation := ⟨.app, none, .system, 0, 0, false⟩
    let s1 := s.setCtx 0 0 { x with act := some a, pc := 0, blocks := [], waits := 0 }
    let p : Place := ⟨.scratch, (s.core 0).site, 0⟩
    { s1 with
      mem := s1.mem.writeN p.phys (natLE 4 (w % 2 ^ 32)), poison := unpoison s1.poison p.phys 4,
      agenda := (1, .issue 0 1 false) :: s.agenda }
  else
    let v := BitVec.ofNat 256 w
    let q := queueFor v
    let c := s.core 0
    let s1 := s.setCore 0 { c with cmds := c.cmds.put (queueNo q) (⟨v, .app, 0⟩ :: c.cmds.at (queueNo q) [])
                                   jobs := c.jobs.cut (queueNo q) }
    { s1 with agenda := (1, .command 0 q) :: s.agenda }

end Sys2Proof.Machine
end

