-- ==== Sys2Proof/Safety.lean ====
section
/-! DEFINITION. The terms the claims use: what a step leaves unchanged, what an instruction of a context writes, and the
invariants of the state. -/

namespace Sys2Proof.Safety

open Sys2Proof Sys2Proof.Machine

/-- Keys rise strictly. -/
def keysRise {α : Type} : FMap α → Bool
  | [] => true
  | [_] => true
  | a :: b :: t => decide (a.1 < b.1) && keysRise (b :: t)

/-- The step neither faults nor is refused. -/
def Goes (s : State) : Prop := ∃ t, step s = .next t

/-- Every run of physical memory reads as before (R94, R95, R216, R286, R325). -/
def SameMemory (s t : State) : Prop := ∀ p n, t.readPlace p n = s.readPlace p n

/-- Every byte of physical memory outside `n` bytes from a place reads as before: the bytes of one memory lie in the
64 MB from its first physical number. -/
def SameMemoryBut (s t : State) (p : Place) (n : Nat) : Prop :=
  ∀ a, a < p.phys ∨ p.phys + n ≤ a → t.mem.read a = s.mem.read a

/-- Bytes stand in a scratchpad after a step and, when it has written them, in its core's twin; no other byte of memory differs
(R204). -/
structure Mirrored (s t : State) (p : Place) (n : Nat) (bs : List Byte) (written : Prop) : Prop where
  own   : t.mem.readN p.phys n = bs
  twins : written → ∀ o ∈ s.mirrors p.owner, t.mem.readN (Place.phys ⟨.scratch, o, p.off⟩) n = bs
  rest  : ∀ a, (∀ o, o = p.owner ∨ o ∈ s.mirrors p.owner →
    a < Place.phys ⟨.scratch, o, p.off⟩ ∨ Place.phys ⟨.scratch, o, p.off⟩ + n ≤ a) → t.mem.read a = s.mem.read a

/-- Nothing but the context in focus differs: every other context, every core, the memory, the packets, the dies and the
module are as before. -/
structure OnlyMe (s t : State) : Prop where
  rest   : t = { s with ctxs := t.ctxs }
  others : ∀ k, k ≠ 4 * s.focus.core + s.focus.ctx → t.ctxs.look k = s.ctxs.look k
  memory : SameMemory s t

/-- Nothing but the context in focus and its core differs. -/
structure OnlyMyCore (s t : State) : Prop where
  rest   : t = { s with ctxs := t.ctxs, cores := t.cores }
  others : ∀ k, k ≠ 4 * s.focus.core + s.focus.ctx → t.ctxs.look k = s.ctxs.look k
  cores  : ∀ n, n ≠ s.focus.core → t.cores.look n = s.cores.look n
  memory : SameMemory s t

/-- The scalar registers of a context but `d`, in the current window and in every other, are as before (R15, R16). -/
structure SameScalarsBut (x y : Ctx) (d : Reg) : Prop where
  current : ∀ r, r ≠ d → y.readX r = x.readX r
  frames  : ∀ i, d.toNat < 8 ∨ i ≠ winIdx x.depth d.toNat → y.win.at i 0 = x.win.at i 0
  globals : ∀ r, 8 ≤ d.toNat ∨ r ≠ d.toNat → y.glob.at r 0 = x.glob.at r 0
  depth   : y.depth = x.depth

/-- What a register reads after `v` is written to it: x0 discards the write (R15). -/
def landed (d : Reg) (v : Word) : Word := if d = 0#5 then 0 else v

/-- The instruction completes in the context in focus and writes one scalar register: that register reads the value, pc
moves on by 4, and nothing else changes, no flag, special register, vector register or byte of memory. -/
structure WritesX (s t : State) (d : Reg) (v : Word) : Prop where
  value   : t.me.readX d = landed d v
  pc      : t.me.pc = s.me.pc + 4
  scalars : SameScalarsBut s.me t.me d
  context : t.me = { s.me with pc := t.me.pc, glob := t.me.glob, win := t.me.win }
  elsewhere : OnlyMe s t

/-- The instruction completes in the context in focus, and only its pc changes: to `target`. -/
structure Jumps (s t : State) (target : Word) : Prop where
  context : t.me = { s.me with pc := target }
  elsewhere : OnlyMe s t

/-- An R-type instruction writes x[d] with the value of `f` on x[a] and x[b], wrapped to 64 bits (R60). -/
def RegResult (i : Reg → Reg → Reg → Instr) (f : Word → Word → Int) : Prop :=
  ∀ s d a b, ∃ t, exec (i d a b) s = .next t ∧ WritesX s t d (BitVec.ofInt 64 (f (s.x a) (s.x b)))

/-- An I-type instruction writes x[d] with the value of `f` on x[a] and its sign-extended immediate (R36, R60). -/
def ImmResult (i : Reg → Reg → BitVec 12 → Instr) (f : Word → Int → Int) : Prop :=
  ∀ s d a imm, ∃ t, exec (i d a imm) s = .next t ∧ WritesX s t d (BitVec.ofInt 64 (f (s.x a) imm.toInt))

/-- A shift by a constant of `n` bits (R60). -/
def ShiftResult {n : Nat} (i : Reg → Reg → BitVec n → Instr) (f : Word → Nat → Int) : Prop :=
  ∀ s d a sh, ∃ t, exec (i d a sh) s = .next t ∧ WritesX s t d (BitVec.ofInt 64 (f (s.x a) sh.toNat))

/-- The low 32 bits as unsigned and as signed, and a result sign-extended from 32 bits (R60). -/
def u32 (x : Word) : Int := ((x.toNat % 2 ^ 32 : Nat) : Int)
def s32 (x : Word) : Int := (x.toNat : Int).bmod (2 ^ 32)
def wrap32 (v : Int) : Int := v.bmod (2 ^ 32)

/-- A branch goes to pc + imm, a multiple of 4, when its comparison holds, and else on (R34, R60). -/
def BranchResult (i : Reg → Reg → BitVec 12 → Instr) (holds : Word → Word → Bool) : Prop :=
  ∀ s a b imm,
    let target := s.me.pc + BitVec.ofInt 64 (2 * imm.toInt)
    (holds (s.x a) (s.x b) = true → target.toNat % 4 = 0 → ∃ t, exec (i a b imm) s = .next t ∧ Jumps s t target) ∧
    (holds (s.x a) (s.x b) = true → target.toNat % 4 ≠ 0 → exec (i a b imm) s = s.trapOut 0x02 target) ∧
    (holds (s.x a) (s.x b) = false → ∃ t, exec (i a b imm) s = .next t ∧ Jumps s t (s.me.pc + 4))

/-- A jump that links: pc becomes the target and x[d] the address after the jump; nothing else changes (R60). -/
structure Links (s t : State) (d : Reg) (target : Word) : Prop where
  value   : t.me.readX d = landed d (s.me.pc + 4)
  pc      : t.me.pc = target
  scalars : SameScalarsBut s.me t.me d
  context : t.me = { s.me with pc := t.me.pc, glob := t.me.glob, win := t.me.win }
  elsewhere : OnlyMe s t

/-! ### Control and status registers -/

/-- The fields of a CSR a program may write, and those a 1 clears (R81–R93, R155–R158). -/
def csrFields : Csr → Nat
  | .vrm => 0x3 | .vflags => 0x1F | .mxfmta => 0x1F1FFF | .mxfmtb => 0x3FF | .mxsca => 0xFF | .mxscb => 0xFF
  | .mxflags => 0xFF | .trapcause => 0x7FF | .trapval => 2 ^ 64 - 1 | .trappc => 2 ^ 64 - 1 | .trapmsg => 2 ^ 64 - 1
  | .trapvec => 2 ^ 64 - 4 | .ageb => 0xFFFF | .actlim => 2 ^ 32 - 1 | .chdrop => 2 ^ 38 - 1
  | .qstat => 0x107 | .qerrm => 2 ^ 63 | .qerrc0 => 2 ^ 63 | .qerrc1 => 2 ^ 63
  | .actmsg => 0 | .acttag => 0 | .actround => 0 | .actchan => 0 | .actsrc => 0 | .winp => 0 | .grp => 0 | .tagen => 0
  | .tagpend => 0

/-- A write of 1 clears these registers' fields. -/
def csrClears : Csr → Bool
  | .qstat => true | .qerrm => true | .qerrc0 => true | .qerrc1 => true
  | .vrm => false | .vflags => false | .mxfmta => false | .mxfmtb => false | .mxsca => false | .mxscb => false
  | .mxflags => false | .trapcause => false | .trapval => false | .trappc => false | .trapmsg => false
  | .trapvec => false | .ageb => false | .actlim => false | .chdrop => false | .actmsg => false | .acttag => false
  | .actround => false | .actchan => false | .actsrc => false | .winp => false | .grp => false | .tagen => false
  | .tagpend => false

/-- What a CSR that read `old` reads after `v` is written to it. AGEB takes 16 for anything less (R93); TRAPCAUSE.cause ignores
a code that R199 does not list (R6); a flag of MXFLAGS the engine set in this cycle stays 1 (R157). -/
def csrNew (s : State) (r : Csr) (old v : Word) : Nat :=
  let w := v.toNat &&& csrFields r
  let k := w % 256
  if csrClears r then (old &&& ~~~ BitVec.ofNat 64 w).toNat
  else if r = .ageb ∧ w < 16 then 16
  else if r = .trapcause ∧ ¬ ((1 ≤ k ∧ k ≤ 16) ∨ k = 0x20 ∨ k = 0x21) then w / 256 * 256 + old.toNat % 256
  else if r = .mxflags ∧ s.myCore.mxSet.1 = s.now then w ||| (s.myCore.mxSet.2 &&& old).toNat
  else w

/-- A Zicsr instruction on a CSR that exists and that the mode may use: rd takes the value before, the CSR takes what it
can of the new value (no write: none), every other CSR and register keeps its value (R38, R62). -/
def CsrResult (i : Reg → BitVec 5 → BitVec 12 → Instr) (new : State → BitVec 5 → Word → Option Word) : Prop :=
  ∀ s d u csr r, csrOf csr.toNat = some r →
    (0x7C0 ≤ csr.toNat ∧ csr.toNat ≤ 0x7FF → s.me.mode = .system) →
    (new s u (csrRead s.myCore s.me r) ≠ none → ¬ (0xCC0 ≤ csr.toNat ∧ csr.toNat ≤ 0xCFF)) →
    ∃ t, exec (i d u csr) s = .next t ∧ t.me.pc = s.me.pc + 4 ∧
      t.me.readX d = landed d (csrRead s.myCore s.me r) ∧ SameScalarsBut s.me t.me d ∧
      (csrRead t.myCore t.me r).toNat =
        (match new s u (csrRead s.myCore s.me r) with
         | none => (csrRead s.myCore s.me r).toNat
         | some v => csrNew s r (csrRead s.myCore s.me r) v) ∧
      (∀ q, q ≠ r → csrRead t.myCore t.me q = csrRead s.myCore s.me q) ∧
      t.me.v = s.me.v ∧ t.me.k = s.me.k ∧ t.me.act = s.me.act ∧ t.me.send = s.me.send ∧ OnlyMyCore s t

/-! ### Traps -/

/-- The trap of app mode has been taken (R24, R92, R199, R200): the context is a trap context at the trap vector. -/
structure TrapEntered (s t : State) (core ctx cause : Nat) (val tpc : Word) : Prop where
  mode    : (t.ctx core ctx).mode = .system ∧ (t.ctx core ctx).act ≠ none
  pc      : (t.ctx core ctx).pc = (s.core core).trapvec &&& ~~~ 3#64
  group   : (t.ctx core ctx).trapcause = w64 (512 * ctx + cause) ∧ (t.ctx core ctx).trapval = val ∧
            (t.ctx core ctx).trappc = tpc ∧ (t.ctx core ctx).trapmsg = (s.ctx core ctx).actmsg
  inputs  : (t.ctx core ctx).readX 8 = (t.ctx core ctx).trapcause ∧ (t.ctx core ctx).readX 9 = val ∧
            (t.ctx core ctx).readX 10 = tpc ∧ (t.ctx core ctx).readX 11 = (s.ctx core ctx).actmsg
  sp      : (t.ctx core ctx).readX 2 = w64 ((s.core core).stackEnd - (3 - ctx) * ((s.core core).stackSize / 4))
  zeros   : ∀ r : Reg, r.toNat ∉ [2, 8, 9, 10, 11] → (t.ctx core ctx).readX r = 0
  vectors : (∀ r, (t.ctx core ctx).readV r = 0) ∧ (t.ctx core ctx).vrm = 0 ∧ (t.ctx core ctx).vflags = 0
  window  : (t.ctx core ctx).depth = 0
  sends   : (t.ctx core ctx).send = []
  message : ∀ a m, (s.ctx core ctx).act = some a → a.origin = .message m →
            ∃ m', (t.core core).queues.at m.queue [] = m' :: (s.core core).queues.at m.queue [] ∧
              m' = { m with lock := some ctx }
  streams : ∀ q st, (t.core core).streams.look q = some st → st.bound = true → st.ctx ≠ ctx
  others  : ∀ k, k ≠ 4 * core + ctx → t.ctxs.look k = s.ctxs.look k
  cores   : ∀ n, n ≠ core → t.cores.look n = s.cores.look n
  rest    : t = { s with ctxs := t.ctxs, cores := t.cores }
  memory  : SameMemory s t

/-- The core fault of system mode has been taken (R27, R201): the context is free, its trap group records the fault, and
the event log of the die has one record more. -/
structure CoreFaulted (s t : State) (core ctx cause : Nat) (val tpc : Word) : Prop where
  freed  : (t.ctx core ctx).act = none
  group  : (t.ctx core ctx).trapcause = w64 (512 * ctx + 256 + cause) ∧ (t.ctx core ctx).trapval = val ∧
           (t.ctx core ctx).trappc = tpc
  record : (t.die (siteDie (s.core core).site)).seq = (s.die (siteDie (s.core core).site)).seq + 1
  others : ∀ k, k ≠ 4 * core + ctx → t.ctxs.look k = s.ctxs.look k

/-- An instruction whose effect is the trap `cause` with value `val s`, in either mode. -/
def TrapsWith (i : Instr) (cause : Nat) (val : State → Word) : Prop :=
  ∀ s a, s.me.act = some a → ∃ t, exec i s = .next t ∧
    (a.mode = .app → TrapEntered s t s.focus.core s.focus.ctx cause (val s) s.me.pc) ∧
    (a.mode = .system → CoreFaulted s t s.focus.core s.focus.ctx cause (val s) s.me.pc)

/-! ### Windows, messages, accesses -/

/-- A scalar register by its number. -/
def reg (n : Nat) : Reg := BitVec.ofNat 5 n

/-- A call has been made (R16, R17, R69): the caller's outputs are the callee's inputs, l7 holds the return address, the
other locals and the outputs are 0, and the globals are as before. -/
structure Called (s t : State) (target : Word) : Prop where
  depth   : t.me.depth = s.me.depth + 1
  pc      : t.me.pc = target
  inputs  : ∀ j, j < 8 → t.me.readX (reg (8 + j)) = s.me.readX (reg (24 + j))
  link    : t.me.readX (reg 23) = s.me.pc + 4
  locals  : ∀ j, j < 7 → t.me.readX (reg (16 + j)) = 0
  outputs : ∀ j, j < 8 → t.me.readX (reg (24 + j)) = 0
  globals : ∀ j, j < 8 → t.me.readX (reg j) = s.me.readX (reg j)
  context : t.me = { s.me with pc := target, depth := t.me.depth, win := t.me.win, st := t.me.st }
  others  : ∀ k, k ≠ 4 * s.focus.core + s.focus.ctx → t.ctxs.look k = s.ctxs.look k
  spill   : 5 ≤ s.me.depth → ∃ r ∈ t.reqs, r.owner = s.meOwner ∧ r.target = .mem .store
              ⟨.scratch, s.myCore.site, s.myCore.spillBase + 512 * s.focus.ctx + 128 * (s.me.depth - 5)⟩ 128
              (s.me.windowBytes (s.me.depth - 5)) 0xFFFFFFFF
  nospill : s.me.depth < 5 → OnlyMe s t

/-- A message as SEND, SENDI and SENDM build it on a channel slot (R71). -/
structure Built (s : State) (m : OutMsg) (ch tag : Nat) (kind : PktKind) (payload : List Word) : Prop where
  place   : m.core = s.focus.core ∧ m.ctx = s.focus.ctx ∧ m.slot = ch
  payload : m.payload = payload
  header  : m.hdr.kind = kind ∧ m.hdr.tag = tag ∧ m.hdr.sch = ch ∧ m.hdr.rch = (s.myCore.slot ch).rch ∧
            m.hdr.fmt = (s.myCore.slot ch).fmt ∧ m.hdr.gen = (s.myCore.slot ch).gen ∧ m.hdr.score = s.focus.core ∧
            m.hdr.ssite = s.myCore.site ∧ m.hdr.smod = s.moduleId
  route   : ∀ r, (s.myCore.slot ch).route = some r → m.hdr.runs = r.runs ∧ m.hdr.dsite = r.dsite ∧ m.hdr.dmod = r.dmod

/-- The payload of SEND and SENDI: o0–o7, or the eight doublewords of an even pair of vector registers (R71). -/
def payloadOf (x : Ctx) (pl : BitVec 5) : List Word :=
  if pl = 0#5 then (List.range 8).map fun j => x.readX (reg (24 + j))
  else (List.range 8).map fun j => w64 (lane (x.readV (2 * (pl.toNat - 16) + j / 4)) 64 (j % 4))

/-- An access of `n` bytes of the context in focus passes its checks: `t` is the state after translation, `u` after the access
is recorded and the route is taken, `l` the place, `route` the route to it and back, none for the core's own memory (R64, R231,
R313, R349). -/
def Reaches (s : State) (a : Acc) (va n : Nat) (needReply : Bool) (t u : State) (l : Loc)
    (route : Option (Route × List Run)) : Prop :=
  ∃ near own, s.translate s.meWho s.me.mode a va = .ok t l near own ∧
    let v := t.record t.focus.core l n a.r a.w
    ((v.reach v.focus.core l near own needReply = .own ∧ route = none ∧ u = v) ∨
     (∃ f r, v.reach v.focus.core l near own needReply = .routed f r u ∧ route = some (f, r)))

/-- A context as before, but for PUSHes of it that have entered the router and so left their count (R75, R252). -/
def ButPushes (x y : Ctx) : Prop := y = { x with sy := y.sy, pushes := y.pushes }

/-- Every context is as before, but for PUSHes that have entered a router and so left their counts (R75, R252). -/
def AllButPushes (s t : State) : Prop := ∀ k, ButPushes (s.ctxs.at k .blank) (t.ctxs.at k .blank)

/-- Nothing waits behind a local port of a site. -/
def PortsEmpty (s : State) (site : Nat) : Prop := ∀ f ∈ s.net, f.spot = .queued → f.site ≠ site

/-- Nothing waits behind a local port of the core in focus: what it sends lets no earlier packet into the router. -/
def PortsIdle (s : State) : Prop := ∀ f ∈ s.net, f.spot = .queued → f.site ≠ s.myCore.site

/-- The context in focus is `x` after an instruction that may send a packet, and the others are as before; only PUSHes that waited
behind the core's local port and enter the router with it leave their counts. -/
structure SentFrom (s t : State) (x : Ctx) : Prop where
  context : ButPushes x t.me
  others  : ∀ k, k ≠ 4 * s.focus.core + s.focus.ctx → ButPushes (s.ctxs.at k .blank) (t.ctxs.at k .blank)
  idle    : PortsIdle s → t.me = x ∧ ∀ k, k ≠ 4 * s.focus.core + s.focus.ctx → t.ctxs.look k = s.ctxs.look k

/-- An access has been issued: the context moves on and is charged one operation of the class; no register, no other
context and, unless the block is recorded, no byte of memory changes; the request is outstanding. -/
structure Issued (s t : State) (cls : CountClass) (target : Target) (dest : Dest) (va : Nat) : Prop where
  contexts : SentFrom s t (s.me.addCount cls 1).next
  memory  : s.myCore.trace.recording = false → t.mem = s.mem
  request : ∃ r ∈ t.reqs, r.target = target ∧ r.dest = dest ∧ r.owner = s.meOwner ∧ r.cls = some cls ∧ r.va = va ∧
            r.pc = s.me.pc

/-- TAGOP has been done: rd reads the old value of its register, the two registers read as given, nothing else changes; the
scheduler sees the change from the next cycle on (R74). -/
structure TagWrite (s t : State) (d : Reg) (old en pd : Word) : Prop where
  value   : t.me.readX d = landed d old
  pc      : t.me.pc = s.me.pc + 4
  scalars : SameScalarsBut s.me t.me d
  context : t.me = { s.me with pc := t.me.pc, glob := t.me.glob, win := t.me.win }
  core    : t.myCore = { s.myCore with tagen := en, tagpend := pd, tagSeen := t.myCore.tagSeen }
  seen    : t.myCore.tagenSeen s.now = s.myCore.tagenSeen s.now ∧ t.myCore.tagpendSeen s.now = s.myCore.tagpendSeen s.now
  later   : ∀ n, n ≠ s.now → t.myCore.tagenSeen n = en ∧ t.myCore.tagpendSeen n = pd
  elsewhere : OnlyMyCore s t

/-- A wait leaves everything but the context in focus and the list of outstanding accesses as it is; that list keeps its
accesses, their targets and their stages. -/
structure Waited (s t : State) : Prop where
  rest   : t = { s with ctxs := t.ctxs, reqs := t.reqs }
  others : ∀ k, k ≠ 4 * s.focus.core + s.focus.ctx → t.ctxs.look k = s.ctxs.look k
  reqs   : t.reqs.map (fun r => (r.id, r.target, r.stage)) = s.reqs.map (fun r => (r.id, r.target, r.stage))
  memory : SameMemory s t

/-- The virtual address offset `o` names at the core of a peer register; none where R315 raises the access fault. -/
def peerAddress (s : State) (o peer : Nat) : Option Nat :=
  if peer < 2 ^ 19 ∧ (s.siteOf peer).isSome then
    if o < 0x8000 then some (0x400_0000_0000 + peer * 0x80_0000 + o)
    else if 0x4000_0000 ≤ o ∧ o < 0x4040_0000 then some (0x400_0000_0000 + peer * 0x80_0000 + 0x40_0000 + (o - 0x4000_0000))
    else none
  else none

/-- A slot of GRP holds group `g`, or it is group 0 (R90, R285). -/
def holdsGroup (s : State) (g : Nat) : Prop :=
  g = 0 ∨ ∃ j, j < 4 ∧ s.myCore.grp.getLsbD (32 + j) = true ∧ bits s.myCore.grp.toNat (8 * j + 7) (8 * j) = g

/-- A load of `n` bytes: checks in order, then the access; other than to a stream port (R64, R65, R75). -/
def LoadIssues (i : Reg → Reg → BitVec 12 → Instr) (n : Nat) (sxt : Bool) : Prop :=
  ∀ s d a imm, let ea := s.x a + BitVec.ofInt 64 imm.toInt
    (ea.toNat % n ≠ 0 → exec (i d a imm) s = s.trapOut 0x02 ea) ∧
    (ea.toNat % n = 0 → 2 ^ 48 ≤ ea.toNat → exec (i d a imm) s = s.trapOut 0x03 ea) ∧
    (ea.toNat % n = 0 → ea.toNat < 2 ^ 48 → ¬ (0x8000 ≤ ea.toNat ∧ ea.toNat < 0x8100) →
      (16 ≤ s.me.ld → exec (i d a imm) s = .next s) ∧
      (s.me.ld < 16 → ∀ t u l route, Reaches s accLoad ea.toNat n true t u l route →
        ∃ v, exec (i d a imm) s = .next v ∧
          Issued s v .ld (.mem .load l.place n [] 0) (s.me.dest d n sxt) ea.toNat))

/-- A store of `n` bytes: checks in order, then the access; other than to a stream port. A waiting STREL to the place may
absorb it where the schedule says so (R64, R65, R75, R275). -/
def StoreIssues (i : Reg → Reg → BitVec 12 → Instr) (n : Nat) : Prop :=
  ∀ s b a imm, let ea := s.x a + BitVec.ofInt 64 imm.toInt
    (ea.toNat % n ≠ 0 → exec (i b a imm) s = s.trapOut 0x02 ea) ∧
    (ea.toNat % n = 0 → 2 ^ 48 ≤ ea.toNat → exec (i b a imm) s = s.trapOut 0x03 ea) ∧
    (ea.toNat % n = 0 → ea.toNat < 2 ^ 48 → ¬ (0x8000 ≤ ea.toNat ∧ ea.toNat < 0x8100) →
      (32 ≤ s.me.st → exec (i b a imm) s = .next s) ∧
      (s.me.st < 32 → ∀ t u l route, Reaches s accStore ea.toNat n false t u l route →
        (s.focus.merge = false ∨ u.mergeTarget l.mod l.place n = none →
          ∃ v, exec (i b a imm) s = .next v ∧
            Issued s v .st (.mem .store l.place n (natLE n (s.x b).toNat) 0xFFFFFFFF) .none ea.toNat) ∧
        (∀ r, s.focus.merge = true → u.mergeTarget l.mod l.place n = some r →
          ∃ v, exec (i b a imm) s = .next v ∧ v.me = s.me.next ∧ ∃ r' ∈ v.reqs, r'.id = r.id ∧
            r'.target = (r.absorb (natLE n (s.x b).toNat)).target)))

/-- An AMO in the form with registers d, a, b: checks, the wait of a release, the access (R75, R291). -/
def AmoIssues (i : Reg → Reg → Reg → Bool → Bool → Bool → Instr) (op : MemOp) : Prop :=
  ∀ s d a b w aq rl, let n := if w then 4 else 8
    let ea := s.x a
    (ea.toNat % n ≠ 0 → exec (i d a b w aq rl) s = s.trapOut 0x02 ea) ∧
    (ea.toNat % n = 0 → 2 ^ 48 ≤ ea.toNat → exec (i d a b w aq rl) s = s.trapOut 0x03 ea) ∧
    (ea.toNat % n = 0 → ea.toNat < 2 ^ 48 → ∀ t u l route, Reaches s accAmo ea.toNat n true t u l route →
      (s.me.sy < 16 → (rl = true → s.me.ld = 0 ∧ s.me.st = 0 ∧ s.me.sy = 0) →
        ∃ v, exec (i d a b w aq rl) s = .next v ∧
          Issued s v .sy (if l.place.space = .sync then .sync l.place (.amo op (!w) (s.x b) 0)
            else .mem op l.place n (natLE n (s.x b).toNat) 0) (s.me.dest d n true) ea.toNat ∧
          ∃ r ∈ v.reqs, r.holds = aq ∧ r.dest = s.me.dest d n true ∧ r.va = ea.toNat) ∧
      (16 ≤ s.me.sy ∨ (rl = true ∧ (s.me.ld ≠ 0 ∨ s.me.st ≠ 0 ∨ s.me.sy ≠ 0)) →
        exec (i d a b w aq rl) s = .next u))

/-- The peer form: the offset is in x[a], the value in x[d], the core in x[p] (R315, R317). -/
def PeerAmoIssues (i : Reg → Reg → Reg → Bool → Bool → Bool → Instr) (op : MemOp) : Prop :=
  ∀ s d a p w aq rl, let n := if w then 4 else 8
    let o := (s.x a).toNat
    (o % n ≠ 0 → exec (i d a p w aq rl) s = s.trapOut 0x02 (s.x a)) ∧
    (o % n = 0 → peerAddress s o (s.x p).toNat = none → exec (i d a p w aq rl) s = s.trapOut 0x03 (s.x a)) ∧
    (∀ va, o % n = 0 → peerAddress s o (s.x p).toNat = some va → ∀ t u l route, Reaches s accAmo va n true t u l route →
      s.me.sy < 16 → (rl = true → s.me.ld = 0 ∧ s.me.st = 0 ∧ s.me.sy = 0) →
      ∃ v, exec (i d a p w aq rl) s = .next v ∧
        Issued s v .sy (if l.place.space = .sync then .sync l.place (.amo op (!w) (s.x d) 0)
          else .mem op l.place n (natLE n (s.x d).toNat) 0) (s.me.dest d n true) va)

/-! ### Vector and mask registers -/

/-- Element `j` of a predicate is active: k0 makes every element active (R127, R128). -/
def active (s : State) (k : BitVec 3) (j : Nat) : Bool := k == 0#3 || (s.me.k.at k.toNat 0).getLsbD j

/-- The instruction completes and writes `n` elements of `w` bits of vector register `d`: the active ones take their
result, the others keep their value, the bits above become 0, and each flag raised by an active element is added to
VFLAGS (R83, R128). Nothing else changes. -/
structure WritesLanes (s t : State) (d : Reg) (w n : Nat) (act : Nat → Bool) (res : Nat → FRes) : Prop where
  lanes   : ∀ j, j < n → lane (t.me.readV d.toNat) w j =
              if act j then (res j).code % 2 ^ w else lane (s.me.readV d.toNat) w j
  above   : (t.me.readV d.toNat).toNat < 2 ^ (w * n)
  flags   : ∀ b, b < 64 → (t.me.vflags.getLsbD b = true ↔
              s.me.vflags.getLsbD b = true ∨ ∃ j, j < n ∧ act j = true ∧ (res j).flags.testBit b = true)
  others  : ∀ r, r ≠ d.toNat → t.me.readV r = s.me.readV r
  context : t.me = { s.me with pc := s.me.pc + 4, v := t.me.v, vflags := t.me.vflags }
  elsewhere : OnlyMe s t

/-- A vector instruction on elements of registers a, b and d, for the element types it has; others are illegal. -/
def LaneResult (i : ElemTy → Reg → Reg → Reg → BitVec 3 → Instr) (legal : ElemTy → Bool)
    (f : RMode → ElemTy → Nat → Nat → Nat → FRes) : Prop :=
  ∀ s et d a b k,
    (legal et = true → ∃ t, exec (i et d a b k) s = .next t ∧
      WritesLanes s t d et.width et.nelem (active s k) (fun j => f (RMode.of s.me.vrm) et
        (lane (s.me.readV a.toNat) et.width j) (lane (s.me.readV b.toNat) et.width j)
        (lane (s.me.readV d.toNat) et.width j))) ∧
    (legal et = false → exec (i et d a b k) s = s.trapOut 0x01 (wordOf (i et d a b k)))

/-- The same with one source. -/
def LaneResult1 (i : ElemTy → Reg → Reg → BitVec 3 → Instr) (legal : ElemTy → Bool)
    (f : RMode → ElemTy → Nat → FRes) : Prop :=
  ∀ s et d a k,
    (legal et = true → ∃ t, exec (i et d a k) s = .next t ∧
      WritesLanes s t d et.width et.nelem (active s k) (fun j => f (RMode.of s.me.vrm) et
        (lane (s.me.readV a.toNat) et.width j))) ∧
    (legal et = false → exec (i et d a k) s = s.trapOut 0x01 (wordOf (i et d a k)))

/-- A requester still stands: the address generator of a stream's binding, or of an unbound stream that sends on (R23, R104). -/
def Stands (s : State) (who : Requester) : Prop :=
  (∀ c k, who = .drain c k → ∃ x ∈ (s.core c).drains, x.serial = k) ∧
  (∀ c q k, who = .stream c q k → ((s.core c).streams.at q .blank).serial = k)

/-- A result that raises no flag. -/
def quiet (code : Nat) : FRes := ⟨code, 0⟩

/-- A floating-point operation, or an integer one on the two's complement values of `w` bits that wraps (R130). -/
def fpOr (et : ElemTy) (fp : Fmt → FRes) (int : Int) : FRes :=
  match etFmt et with
  | some f => fp f
  | none => quiet (int % (2 : Int) ^ et.width).toNat

/-- The instruction completes and writes mask register `kd`, one bit of `bits` each (R151); writes to k0 are dropped. -/
structure WritesK (s t : State) (kd : BitVec 3) (bits : Nat → Bool) : Prop where
  value   : kd ≠ 0#3 → ∀ j, j < 32 → (t.me.k.at kd.toNat 0).getLsbD j = bits j
  others  : ∀ r, r ≠ kd.toNat → t.me.k.at r 0 = s.me.k.at r 0
  pc      : t.me.pc = s.me.pc + 4
  elsewhere : OnlyMe s t

/-- The node (lev, j) of the reduction tree: an absent element passes its partner up; the flags of all nodes below
accumulate (R137). -/
def treeNode (op : Nat → Nat → FRes) (leaf : Nat → Option Nat) : Nat → Nat → Option FRes
  | 0, j => (leaf j).map quiet
  | lev + 1, j =>
    match treeNode op leaf lev (2 * j), treeNode op leaf lev (2 * j + 1) with
    | none, q => q
    | some p, none => some p
    | some p, some q => some ⟨(op p.code q.code).code, (op p.code q.code).flags ||| (p.flags ||| q.flags)⟩

/-- A reduction: element 0 of `d` takes the root of the tree, or the identity where no element takes part, and every other
element 0; a NaN is delivered as the canonical NaN (R114, R129, R137). -/
def ReduceResult (i : ElemTy → Reg → Reg → BitVec 3 → Instr) (op : RMode → ElemTy → Nat → Nat → FRes)
    (ident : ElemTy → Nat) : Prop :=
  ∀ s et d a k,
    let leaf : Nat → Option Nat := fun j =>
      if active s k j then some (lane (s.me.readV a.toNat) et.width j) else none
    let root := (treeNode (op (RMode.of s.me.vrm) et) leaf (Nat.log2 et.nelem) 0).getD (quiet (ident et))
    ∃ t, exec (i et d a k) s = .next t ∧ WritesLanes s t d et.width et.nelem (fun _ => true) (fun j =>
      if j = 0 then ⟨match etFmt et with
        | some f => if (f.value root.code).isNan then f.nanCode else root.code
        | none => root.code, root.flags⟩ else quiet 0)

/-- The accesses of the parts of a vector instruction have been issued as `ops` operations of a class: the context moves
on, no register, other context or byte of memory changes, and each part is outstanding; the parts of one operation
complete together (R150). -/
structure PartsIssued (s t : State) (cls : CountClass) (ops : Nat) (joint : Bool) (l : List ElemAcc)
    (target : ElemAcc → Target) (dest : ElemAcc → Dest) : Prop where
  contexts : SentFrom s t (s.me.addCount cls ops).next
  memory  : s.myCore.trace.recording = false → t.mem = s.mem
  requests : ∃ g, ∀ e ∈ l, ∃ r ∈ t.reqs, r.target = target e ∧ r.dest = dest e ∧ r.owner = s.meOwner ∧
              r.cls = some cls ∧ r.va = e.va ∧ r.pc = s.me.pc ∧ (joint = true → r.group = g)

/-! ### Tile commands -/

/-- Nothing but core `n` differs. -/
structure OnlyCore (s t : State) (n : Nat) : Prop where
  rest   : t = { s with cores := t.cores }
  cores  : ∀ m, m ≠ n → t.cores.look m = s.cores.look m
  memory : SameMemory s t

/-- The head command of the queue in focus has started: it has left the waiting commands and is the engine's job; the
other queues and everything outside the core are as before (R108, R159). -/
structure CommandStarted (s t : State) (h : QCmd) (rest : List QCmd) (i : Instr) (cfg : Latch) (loop : Option LoopRec)
    (done : Bool) : Prop where
  job     : t.myJob = some { cmd := h, instr := i, cfg, loop, cursor := 0, pos := 0, buf := [], hdr := none, idx := none,
                             done, polled := none }
  waiting : t.myCore.cmds.at (queueNo s.focus.queue) [] = rest
  queues  : ∀ y, y ≠ s.focus.queue → t.myCore.job y = s.myCore.job y ∧
              t.myCore.cmds.at (queueNo y) [] = s.myCore.cmds.at (queueNo y) []
  elsewhere : OnlyCore s t s.focus.core

/-- A command waits at the head of the queue in focus and no command of that queue has started. -/
def AtHead (s : State) (h : QCmd) (rest : List QCmd) : Prop :=
  s.myJob = none ∧ s.myCore.cmds.at (queueNo s.focus.queue) [] = h :: rest

/-- The head command may start: every store of the core's contexts to its own scratchpad that issued before the command was
accepted has been performed (R110, R280). -/
def MayStart (s : State) (h : QCmd) (rest : List QCmd) : Prop :=
  AtHead s h rest ∧ s.ownStoreBefore s.focus.core h.stamp = false

/-- The command in focus has started and has accesses to make. -/
def Doing (s : State) (i : Instr) (j : Job) : Prop := s.myJob = some j ∧ j.instr = i ∧ j.done = false

/-- The command has made its last access; nothing else changes but what `same` lets change in the core. -/
structure CommandDone (s t : State) (j : Job) : Prop where
  job       : t.myJob = some { j with done := true, buf := [] }
  elsewhere : OnlyCore s t s.focus.core

/-- The command has issued an access: it is outstanding, no context changes and, unless it is recorded, no byte of memory
has changed yet (R108, R171). -/
structure EngineAccess (s t : State) (j : Job) (va : Nat) (target : Target) : Prop where
  request : ∃ r ∈ t.reqs, r.target = target ∧ r.owner = s.jobOwner j ∧ r.va = va ∧ r.dest = .engine ∧ r.cls = none
  ctxs    : t.ctxs = s.ctxs
  memory  : s.myCore.trace.recording = false → t.mem = s.mem

/-- Bytes of one access: those up to the end of the 32-byte unit of the address, of `n` left (R171). -/
def oneUnit (va : Int) (n : Nat) : Nat := min n (32 - (va % 32).toNat)

/-- A command moves a run of `n` bytes: it reads the next part of the source, writes what it has read, and goes on with
`next` (R171–R173). -/
structure MovesRun (i : Instr) (s : State) (j : Job) (src dst : Int) (n : Nat) (next : Job) : Prop where
  reads  : j.buf = [] → j.pos < n → s.reading j = false → s.myTurn = true → ∀ u l route,
             s.engLoc j accLoad false true (n - j.pos) (src + j.pos) = .ok u l route →
             ∃ t, exec i s = .next t ∧ t.myJob = some j ∧
               EngineAccess s t j (src + j.pos).toNat (.mem .load l.place (oneUnit (src + j.pos) (n - j.pos)) [] 0)
  waits  : j.buf = [] → j.pos < n → s.reading j = true → exec i s = .next s
  writes : j.buf ≠ [] → s.myTurn = true → ∀ u l route,
             s.engLoc j accStore true false j.buf.length (dst + j.pos) = .ok u l route →
             let k := oneUnit (dst + j.pos) j.buf.length
             ∃ t, exec i s = .next t ∧ t.myJob = some { j with buf := j.buf.drop k, pos := j.pos + k } ∧
               EngineAccess s t j (dst + j.pos).toNat (.mem .store l.place k (j.buf.take k) 0xFFFFFFFF)
  moves  : j.buf = [] → n ≤ j.pos → ∃ t, exec i s = .next t ∧ t.myJob = some next ∧ OnlyCore s t s.focus.core
  faults : ∀ u r addr,
             (j.buf = [] → j.pos < n → s.reading j = false → s.myTurn = true →
               s.engLoc j accLoad false true (n - j.pos) (src + j.pos) = .fault u r addr →
               exec i s = .next (u.cmdFault j.cmd.word r addr)) ∧
             (j.buf ≠ [] → s.myTurn = true → s.engLoc j accStore true false j.buf.length (dst + j.pos) = .fault u r addr →
               exec i s = .next (u.cmdFault j.cmd.word r addr))
  turns  : s.myTurn = false → j.pos < n ∨ j.buf ≠ [] → s.reading j = false → exec i s = .next s

/-- A command reads runs of bytes one access at a time; with all of them it does `finish` (R161, R162, R169). -/
structure ReadsRuns (i : Instr) (s : State) (j : Job) (runs : List (Int × Nat)) (finish : List Byte → State → Prop) : Prop where
  reads  : j.buf.length < (runs.map Prod.snd).sum → s.reading j = false → s.myTurn = true → ∀ a n u l route,
             runAt runs j.buf.length = some (a, n) → s.engLoc j accLoad false true n a = .ok u l route →
             ∃ t, exec i s = .next t ∧ t.myJob = some j ∧
               EngineAccess s t j a.toNat (.mem .load l.place (oneUnit a n) [] 0)
  waits  : j.buf.length < (runs.map Prod.snd).sum → s.reading j = true → exec i s = .next s
  finishes : j.buf.length = (runs.map Prod.snd).sum → ∃ t, exec i s = .next t ∧ finish j.buf t

/-! ### Starts, choice and the inbox -/

/-- A context holds nothing, and no DONE or TRET has ended it in this cycle (R12, R22, R79). -/
def Free (s : State) (core ctx : Nat) : Prop :=
  (s.ctx core ctx).act = none ∧ ∀ l, (s.ctx core ctx).left = some l → l.1 ≠ s.now

/-- DONE or TRET ended an activation or trap context of a tag on a context in this cycle: its tag counts until the next (R22,
R79). -/
def Leaving (s : State) (core ctx tag : Nat) : Prop :=
  (s.ctx core ctx).act = none ∧ (s.ctx core ctx).left = some (s.now, some tag)

/-- An activation of tag `tag` has started in context `ctx` of a core (R13, R200): its registers hold what a start
delivers, every other register is 0, and no other context changes. -/
structure Began (s t : State) (core ctx tag : Nat) (origin : Origin) (e : TagEntry) (pc : Nat) (payload : List Word)
    (msg round chan src : Word) (fmt : Nat) : Prop where
  act     : (t.ctx core ctx).act = some ⟨.app, some tag, origin, e.role, s.now + 8, false⟩
  pc      : (t.ctx core ctx).pc = w64 pc
  stack   : (t.ctx core ctx).readX 2 = w64 ((s.core core).stackEnd - (3 - ctx) * ((s.core core).stackSize / 4))
  const   : (t.ctx core ctx).readX 3 = e.const.setWidth 64
  payload : ∀ j, j < 8 → (t.ctx core ctx).readX (reg (8 + j)) = payload.getD j 0
  zeros   : ∀ r : Reg, r.toNat ∉ [2, 3, 8, 9, 10, 11, 12, 13, 14, 15] → (t.ctx core ctx).readX r = 0
  vectors : (∀ r, (t.ctx core ctx).readV r = 0) ∧ (∀ k, (t.ctx core ctx).k.at k 0 = 0) ∧ (t.ctx core ctx).vrm = 0 ∧
            (t.ctx core ctx).vflags = 0
  info    : (t.ctx core ctx).actmsg = msg ∧ (t.ctx core ctx).actround = round ∧ (t.ctx core ctx).actchan = chan ∧
            (t.ctx core ctx).actsrc = src ∧
            (t.ctx core ctx).acttag = w64 (b2n e.serial * 2 ^ 16 + fmt % 256 * 256 + e.role % 4 * 64 + tag % 64)
  window  : (t.ctx core ctx).depth = 0 ∧ (t.ctx core ctx).send = []
  lowest  : Free s core ctx ∧ ctx < 4 ∧ ∀ k, k < ctx → ¬ Free s core k
  others  : ∀ k, k ≠ 4 * core + ctx → t.ctxs.look k = s.ctxs.look k
  cores   : ∀ n, n ≠ core → t.cores.look n = s.cores.look n

/-- A system context has started without a trap (R200, R202). -/
structure SystemBegan (s t : State) (core ctx cause : Nat) (val : Word) : Prop where
  act    : (t.ctx core ctx).act = some ⟨.system, none, .system, 0, s.now + 8, false⟩
  pc     : (t.ctx core ctx).pc = (s.core core).trapvec &&& ~~~ 3#64
  group  : (t.ctx core ctx).trapcause = w64 (512 * ctx + cause) ∧ (t.ctx core ctx).trapval = val ∧
           (t.ctx core ctx).trappc = 0 ∧ (t.ctx core ctx).trapmsg = 0
  inputs : (t.ctx core ctx).readX 8 = w64 (512 * ctx + cause) ∧ (t.ctx core ctx).readX 9 = val
  lowest : Free s core ctx ∧ ctx < 4 ∧ ∀ k, k < ctx → ¬ Free s core k
  others : ∀ k, k ≠ 4 * core + ctx → t.ctxs.look k = s.ctxs.look k

/-- The wait of a candidate has reached AGEB − 3 cycles (R192). -/
def agedStart (s : State) (core k : Nat) : Prop := (s.core core).ageb.toNat - 3 ≤ s.now - (s.core core).elig.at k s.now

/-- Role of a candidate: system starts before every role (R192). -/
def startRole (s : State) (core k : Nat) : Nat :=
  if 200 ≤ k then 0
  else 1 + ((s.core core).table.at (if k < 8 then match s.headMsg core k with
    | some m => m.hdr.tag
    | none => 0 else (k - 8) / 2) .blank).role

/-- The rules of R192 put candidate `j` before candidate `k`. Of two that the rules do not tell apart, the lower number comes first:
queues, then each tag's pending start before its close (log entry 51). -/
def StartsBefore (s : State) (core j k : Nat) : Prop :=
  (agedStart s core j ∧ ¬ agedStart s core k) ∨
  ((agedStart s core j ↔ agedStart s core k) ∧
    (startRole s core j < startRole s core k ∨
     (startRole s core j = startRole s core k ∧
       ((s.core core).elig.at j s.now < (s.core core).elig.at k s.now ∨
        ((s.core core).elig.at j s.now = (s.core core).elig.at k s.now ∧ j < k)))))

/-- The rules of R193 put ready context `d` before ready context `c`. Among contexts in system mode the lower number
decides (log entry 31). -/
def IssuesBefore (s : State) (core d c : Nat) : Prop :=
  let old : Nat → Prop := fun k => (s.core core).ageb.toNat - 3 ≤ (s.ctx core k).waits
  let rank : Nat → Nat := fun k => match (s.ctx core k).act with
    | some a => (match a.mode with
      | .system => 0
      | .app => 1 + a.role)
    | none => 0
  (old d ∧ old c ∧ ((s.ctx core c).waits < (s.ctx core d).waits ∨
    ((s.ctx core c).waits = (s.ctx core d).waits ∧ (rank d < rank c ∨ (rank d = rank c ∧ d < c))))) ∨
  (old d ∧ ¬ old c) ∨
  (¬ old d ∧ ¬ old c ∧ (rank d < rank c ∨ (rank d = rank c ∧ d < c)))

/-- The message a packet becomes in the inbox (R84, R186). -/
def inboxMsg (s : State) (core : Nat) (p : Packet) : Msg :=
  { hdr := p.hdr, payload := packetWords p, seq := (s.core core).arrivals, ovf := false, replayed := false,
    queue := ((s.core core).table.at p.hdr.tag .blank).queue, post := none, lock := none }

/-- A packet of kinds 0 to 2 passes the drop checks and is of its channel's expected generation, with none held before it
(R189, R236, R358). -/
def Welcome (s : State) (core : Nat) (p : Packet) : Prop :=
  (s.core core).bound.getLsbD p.hdr.rch = true ∧ core ∉ s.coppice.skippedSet ∧
  p.hdr.gen = (s.core core).gexp.at p.hdr.rch 0 ∧
  (s.core core).genHold = []

/-- Which contexts are ready in a cycle of a core: an activation that may issue, no earlier access that holds it, its next word at
hand with its operands, and a unit that accepts it (R28, R193). -/
def Ready (s : State) (core ready : Nat) (merge : Bool) (d : Nat) : Prop :=
  d < 4 ∧ bit ready d = true ∧ (∃ a, (s.ctx core d).act = some a ∧ a.begun ≤ s.now) ∧ s.held core d = false ∧
    s.atHand core d = true ∧ s.unitTakes core d merge = true

/-- An arrival has been taken: the packet has left the mesh, and the arrival number has advanced. -/
structure Arrived (s t : State) (core : Nat) (f : Flight) : Prop where
  gone    : ∀ g ∈ t.net, g.id ≠ f.id
  number  : (t.core core).arrivals = (s.core core).arrivals + 1
  ctxs    : t.ctxs = s.ctxs
  cores   : ∀ n, n ≠ core → t.cores.look n = s.cores.look n

/-! ### Homes, replies and the mesh -/

/-- A reply has left on a return route (R220, R245). -/
def Sent (t : State) (ret : List Run) (body : Body) : Prop :=
  ∃ f ∈ t.net, f.pkt.body = body ∧ f.pkt.hdr.runs = ret

/-- A reply has left on a return route, or waits behind a local port for its twin: it comes from the memory of a checked
pair (R204, R220, R245). -/
def Answered (t : State) (ret : List Run) (body : Body) : Prop :=
  Sent t ret body ∨ ∃ c q, (t.core c).pair = some q ∧ ∃ w ∈ q.waiting, w.pkt.body = body ∧ w.pkt.hdr.runs = ret

/-- A request of the core's own memory that may be performed, no part of an element whose other part is still to be
performed (R65, R269, R270, R272). -/
def OwnTurn (s : State) (id : Nat) (r : Req) : Prop :=
  s.req id = some r ∧ r.route = none ∧ r.stage = .going ∧ s.ownReady r = true ∧ s.siblings r = []

/-- A memory request that stands at its home, is the next of its lane there, is served next of those for its bank, and is no
part of an element whose other part is still to be performed (R216, R269, R270). -/
def HomeTurn (s : State) (f : Flight) (rid : Nat) (op : MemOp) (p : Place) (n : Nat) (data : List Byte) (cmp : Word)
    (ret : List Run) : Prop :=
  s.ejected f.id (homePort p) = some f ∧ f.pkt.hdr.kind = .memReq ∧
    (∃ e tr, f.pkt.body = .memReq rid op p n data cmp ret e tr) ∧
    s.served f = true ∧ s.elementReq f.pkt.hdr rid = none

/-- A byte a store of `data` at `p` under a mask writes, as memory holds it after: bytes the mask leaves out are as before
(R147). All ones select every byte. -/
def storedByte (s : State) (p : Place) (data : List Byte) (mask : Word) (i : Nat) : Byte :=
  if mask = 0xFFFFFFFF ∨ 32 ≤ i ∨ mask.getLsbD i = true then data.getD i 0 else (s.readPlace p data.length).getD i 0

/-- The packet has left the mesh: any packet of its number is a new one. -/
def Gone (s t : State) (id : Nat) : Prop := ∀ g ∈ t.net, g.id = id → s.fresh ≤ g.id

/-- What a counter record holds: its two doublewords (R303). -/
def recordOf (s : State) (p : Place) : Nat × Nat := (leNat ((s.readPlace p 16).take 8), leNat ((s.readPlace p 16).drop 8))

/-- No reserved bit of a counter record is set (R303, R304). -/
def recordOk (r : Nat × Nat) : Prop := r.1 < 2 ^ 38 ∧ r.2 < 2 ^ 48

/-- What a DECZ does at its record: the record counts down by one and nothing else changes in memory (R304). -/
structure CountedDown (s t : State) (p : Place) : Prop where
  record : t.mem.readN p.phys 8 = natLE 8 ((recordOf s p).1 - 1)
  rest   : SameMemoryBut s t p 8

/-- A record that is in no state for a DECZ is logged and left (R304). -/
structure LoggedAndLeft (s t : State) (p : Place) : Prop where
  record : t.mem.readN p.phys 16 = s.mem.readN p.phys 16
  event  : (t.die (siteDie p.owner)).seq = (s.die (siteDie p.owner)).seq + 1

/-- The record's codelet has been posted to queue 7 of a core with room for it (R194, R304). -/
def Posted (s t : State) (c : Nat) (p : Place) : Prop :=
  ∃ m, (t.core c).queues.at 7 [] = (s.core c).queues.at 7 [] ++ [m] ∧ m.post = some ((recordOf s p).2, p.off) ∧
    m.hdr.tag = (recordOf s p).1 / 2 ^ 32 % 64 ∧ m.payload = [w64 (recordOf s p).2, w64 p.off, 0, 0, 0, 0, 0, 0] ∧
    m.seq = (s.core c).arrivals

/-- The core has room for a codelet of the record's tag (R187, R189, R194). -/
def TakesCodelet (s : State) (c : Nat) (p : Place) : Prop :=
  ((s.core c).table.at ((recordOf s p).1 / 2 ^ 32 % 64) .blank).valid = true ∧ ((s.core c).queues.at 7 []).length < 16 ∧
    (s.core c).rings.at 7 [] = []

/-- No access waits behind an earlier one of its core (R272). -/
def NothingQueued (s : State) : Prop := ∀ q ∈ s.reqs, q.stage ≠ .queued

/-- The header after a hop (R222, R225). -/
def headerHopped (h : Header) : Header :=
  let c := h.runs.getD h.cur ⟨.n, false, false, 0⟩
  if c.len = 0 then if h.cur = h.last then { h with fin := true } else { h with cur := h.cur + 1 }
  else { h with runs := h.runs.set h.cur { c with len := c.len - 1 } }

/-- A packet's check on the link into router `t` is still to be known: it came over it, and its last flit's check is no cycle old
(R228). -/
def InCheck (s : State) (t : Nat) (dir : Dir) (f : Flight) (p : Passed) : Prop :=
  f.trail.find? (fun x => x.site == t && x.inDir == dirOpposite dir && decide (s.now ≤ x.tail)) = some p

/-! ### The host and the commands of its queues -/

/-- The instruction brings a host input. -/
def Brings (i : Instr) : HostInput → Prop
  | .read port off n => i = .hostRead port off n
  | .write port off data => i = .hostWrite port off data
  | .reg port off v => i = .registerWrite port off v
  | .publish q slot port => i = .qpublish q slot port
  | .claim q => i = .qclaim q
  | .ring q off data => i = .hostRingWrite q off data
  | .abort v => i = .labort v

/-- No earlier host access that still waits keeps this one back (R344). -/
def HostFree (s : State) (h : HostInput) : Prop := ∀ e ∈ s.hostHeld, h.behind e = false

/-- The command in progress has completed (R334, R342): lastst and progress of its queue, the record at a host address if
it has room, and the vector if it asks for one; no other queue changes. -/
structure Completed (s t : State) (r : Running) (status : Nat) : Prop where
  running : t.running = none
  queue   : (t.queue r.queue).lastst = status ∧ (t.queue r.queue).progress = (s.queue r.queue).progress + 1
  others  : ∀ q, q ≠ r.queue → t.queues.look q = s.queues.look q
  irq     : r.cmd.irq = true → t.hostOut = s.hostOut ++ [.msix (s.queue r.queue).vector]
  quiet   : r.cmd.irq = false → t.hostOut = s.hostOut
  record  : addrSpace r.cmd.rec'.toNat = 8 → 64 ≤ r.cmd.reccap → r.cmd.reccap < 2 ^ 32 →
              t.hostMem.readN (r.cmd.rec'.toNat % 2 ^ 48) 8 = natLE 8 (status + r.cmd.mode * 2 ^ 8 + r.cmd.seq * 2 ^ 32)

/-- The record of the command in progress needs no page of the device: it goes to host memory, or nowhere (R337, R342). -/
def HostRecord (r : Running) : Prop := addrSpace r.cmd.rec'.toNat = 8 ∨ r.cmd.reccap < 64

/-- The command in progress ends with a status: it completes, or waits with its record for a page of the device that is being
moved (R314, R342). -/
structure Ends (s t : State) (r : Running) (status : Nat) : Prop where
  host   : HostRecord r → Completed s t r status
  device : Completed s t r status ∨ (t.hostOut = s.hostOut ∧ ∃ q d l, t.running = some q ∧ q.queue = r.queue ∧
             q.cmd.rec' = r.cmd.rec' ∧ q.phase = 4 ∧ q.finish = some (status, d, l))

/-- The command that a LAUNCH performs: its own, or with the bit of the default the image's default command in its place (R337);
none when the image has no default. -/
def resolvedCmd (img : Image) (c : LaunchCmd) : Option LaunchCmd :=
  if c.dflt then
    if ∀ b ∈ img.dflt, b = 0 then none
    else
      let d := LaunchCmd.ofBytes img.dflt
      some { c with mode := d.mode, rounds := d.rounds, arg := d.arg, rec' := d.rec', arglen := d.arglen, reccap := d.reccap }
  else some c

end Sys2Proof.Safety
end

