-- ==== Sys2Proof/Certificates/Slice0/Obligations.lean ====
section
/-! DEFINITION. The statements for the provers: what the numbered rules of the spec say the instructions and the machine
do, each over every state and operand that meets its hypotheses. -/

open Sys2Proof Sys2Proof.Machine Sys2Proof.Safety


/-! ## Encodings, the step, reset -/

/-- R36–R48: decoding the word of a well-formed instruction gives the instruction, at every operand. -/
def Sys2Proof.Claims.EncodedWordDecodesBack : Prop :=
  ∀ i w, i.wf = true → encode i = some w → decode32 w = some i

/-- R36–R48: a word that decodes is the one encoding of its instruction, which is well formed: every reserved bit counts. -/
def Sys2Proof.Claims.DecodedWordEncodesBack : Prop :=
  ∀ w i, decode32 w = some i → encode i = some w ∧ i.wf = true

/-- R49–R51: the same for tile commands, on every queue their class may use. -/
def Sys2Proof.Claims.EncodedCommandDecodesBack : Prop :=
  ∀ i w q, i.wf = true → encodeCommand i = some w → classFits (CmdFields.ofWord w).cls q = true → decodeCommand q w = .ok i

/-- R42–R44, R48, R204, R206, R207, R231: words the spec writes out. -/
def Sys2Proof.Claims.SpecWordsDecode : Prop :=
  decode32 0x00140413 = some (.addi 8 8 1) ∧ decode32 0x00000073 = some .ecall ∧ decode32 0x00100073 = some .ebreak ∧
  decode32 0x0914200B = some (.send 5 9 0) ∧ decode32 0x4914290B = some (.sendi 5 9 18) ∧
  decode32 0x0209500B = some (.enqm 18 .mxq) ∧ decode32 0x0219500B = some (.enqm 18 .cpq0) ∧
  decode32 0x0A00500B = some (.pair false) ∧ decode32 0x0A10500B = some (.pair true) ∧ decode32 0x0C00500B = some .unpair ∧
  decode32 0x0E08500B = some (.migrateCtx 16) ∧ decode32 0x0E18500B = some (.migrateFull 16) ∧
  decode32 0x0118702B = some (.rtset 16 17) ∧ decode32 0x0208702B = some (.rtinv 16) ∧ decode32 0x0210702B = some .rtinvAll ∧
  decode32 0x0519702B = some (.rtbind 18 17) ∧ decode32 0x0118602B = some (.objinit 16 17) ∧
  decode32 0x080858AB = some (.push 17 16 false 32) ∧ decode32 0x4008592B = some (.pop 18 16 false 0) ∧
  decode32 0x8824532B = some (.popw 6 8 true 32) ∧ decode32 0 = none

/-- R28, R58, R59, R193: a cycle of a core, which issues at most once in it. Contexts without their next word fetch on, the first
instruction of an activation that stalls in its unit counts as issued (the model's reading, log entry 106), and the waiting counts
follow the choice. The context chosen fetches the word at
its pc; if that word decodes and its operands are ready, the step is the instruction's, in the state with the choice noted,
that context in focus and, for the first instruction of an activation, its time running. A word that decodes to nothing is an
illegal instruction. With no context ready, nothing else happens in the cycle. -/
def Sys2Proof.Claims.StepRunsDecodedInstruction : Prop :=
  ∀ (s : State) core ready merge dt rest, s.agenda = (dt, .issue core ready merge) :: rest → core < 524288 →
    s.observe.due (s.now + dt) = none →
    let o : State := { s.observe with now := s.now + dt, agenda := rest }
    let w := ((List.range 4).filter fun c => bit ready c).foldl (fun t c => t.fetchOn core c) o
    ((o.core core).issuedAt = some o.now → step s = .next o) ∧
    ((o.core core).issuedAt ≠ some o.now → (w.choose core ready merge).1 = none → step s = .next (w.choose core ready merge).2) ∧
    ∀ ctx, (o.core core).issuedAt ≠ some o.now → (w.choose core ready merge).1 = some ctx →
      let u := (w.choose core ready merge).2
      let f : State := { u with focus := { u.focus with core, ctx, merge } }
      let runs : State → State := fun v => match (v.ctx core ctx).act with
        | some a => if a.issued then v else v.setCtx core ctx { v.ctx core ctx with act := some { a with issued := true, begun := v.now } }
        | none => v
      f.held core ctx = false →
        (∀ v w i, f.fetch core ctx = .word v w → decode32 w = some i → v.hazard core ctx i = false → step s = exec i (runs v)) ∧
        (∀ v w, f.fetch core ctx = .word v w → decode32 w = none → step s = exec (.illegalEncoding w) (runs v)) ∧
        (∀ v cause val, f.fetch core ctx = .trap v cause val → step s = .next (v.trap core ctx cause val (v.ctx core ctx).pc))

/-- R108: a step of an engine queue runs its started command, else the command its head word decodes to; a word that decodes
to none is rejected. A machine step of the agenda runs as its row of the table. -/
def Sys2Proof.Claims.StepRunsCommandsAndEvents : Prop :=
  ∀ (s : State) dt rest, s.observe.due (s.now + dt) = none →
    (∀ core q, s.agenda = (dt, .command core q) :: rest → core < 524288 →
      let o := s.observe
      let f : State := { o with now := s.now + dt, agenda := rest, focus := { o.focus with core, queue := q } }
      (∀ j, (f.core core).job q = some j → step s = exec j.instr f) ∧
      ((f.core core).job q = none → ∀ h l, (f.core core).cmds.at (queueNo q) [] = h :: l →
        (∀ i, decodeCommand q h.word = .ok i → step s = exec i f) ∧
        (∀ r, decodeCommand q h.word = .error r → step s = exec (.rejectedCommand h.word) f))) ∧
    (∀ i, s.agenda = (dt, .event i) :: rest → isStep i = true → i.wf = true →
      step s = exec i { s.observe with now := s.now + dt, agenda := rest })

/-- R28, R205, R207, R247, R340, R341, R344: a time limit that falls due before the next move comes first, at its clock: the
activation at its limit, the two limits of a move, a packet whose twin has not come, a parked request, the next quiescence
sweep, the time limit of a launch. A held host access that can go on is performed before the next move. -/
def Sys2Proof.Claims.StepEndsLateActivations : Prop :=
  ∀ (s : State) dt m rest at0 l, s.agenda = (dt, m) :: rest → s.observe.due (s.now + dt) = some (at0, l) →
    let clk := max s.now at0
    let o : State := { s.observe with now := clk, agenda := (s.now + dt - clk, m) :: rest }
    at0 ≤ s.now + dt ∧ step s = (match l with
      | .activation core ctx => exec (.acttime core ctx) o
      | .drain core => exec (.migrationDrainTimeout core) o
      | .move core => exec (.migrationAbandon core false) o
      | .twin core => exec (.twinTimeout core) o
      | .parked site => exec (.parkedDeparture site) o
      | .sweep => exec .quiescenceSweep o
      | .launch => exec .launchTimeout o
      | .host => execHostRetry o)

/-- R58: code in the core's own scratchpad: the word of a context at pc is the four little-endian bytes there (R5, R96). -/
def Sys2Proof.Claims.FetchReadsTheScratchpad : Prop :=
  ∀ (s : State) core ctx, let x := s.ctx core ctx
    let p : Place := ⟨.scratch, (s.core core).site, x.pc.toNat⟩
    x.pc.toNat < 0x8000 → x.blocks = [] →
    (s.poisoned p 4 = false → s.fetch core ctx = .word s (BitVec.ofNat 32 (leNat (s.readPlace p 4)))) ∧
    (s.poisoned p 4 = true → s.fetch core ctx = .trap s cUncorrectable x.pc)

/-- R7, R154–R158, R330, R333, R370, R387, R392: the state right after reset. That memory is empty (every byte reads 0) is the
model's choice of log entry 1, and the zeros of TAGEN, TAGPEND and the event slot, with no stream held, are those of log entry
2; the other values the spec gives. -/
def Sys2Proof.Claims.ResetValues : Prop :=
  let s := State.reset
  s.bringup.stage = 0 ∧ s.bringup.fail = 0 ∧ s.bringup.sapling = false ∧ s.image = none ∧ s.running = none ∧ s.mem = [] ∧
  s.net = [] ∧ s.reqs = [] ∧ s.hevt = 0 ∧ s.slotRun = false ∧ s.slotN = 0 ∧ s.slotEpoch = 0 ∧
  (∀ n k, (s.ctx n k).act = none ∧ (s.ctx n k).ld = 0 ∧ (s.ctx n k).st = 0 ∧ (s.ctx n k).sy = 0) ∧
  (∀ n, (s.core n).tagen = 0 ∧ (s.core n).tagpend = 0 ∧ (s.core n).ageb = 1024 ∧ (s.core n).actlim = 0 ∧ (s.core n).qstat = 0 ∧
    (s.core n).qerrm = 0 ∧ (s.core n).mxsca = 0x20 ∧ (s.core n).mxscb = 0x20 ∧ (s.core n).mb0.valid = false ∧
    (s.core n).mb1.valid = false ∧ (s.core n).queues = [] ∧ (s.core n).streams = []) ∧
  (∀ q, (s.queue q).reserve = 0 ∧ (s.queue q).head = 0 ∧ (s.queue q).vector = 0 ∧ (s.queue q).prio = 0 ∧ (s.queue q).badpub = false) ∧
  (∀ p, (s.port p).mode = 0 ∧ (s.port p).enable = false ∧ (s.port p).state = 0 ∧ (s.port p).crypt = false ∧ (s.port p).evt = 0)

/-- R5, R95: device memory and host memory keep their canonical form in every step (the form is the model's). -/
def Sys2Proof.Claims.StepsKeepMemoryCanonical : Prop :=
  ∀ s t, s.mem.wf = true → s.hostMem.wf = true → step s = .next t → t.mem.wf = true ∧ t.hostMem.wf = true

/-- Reset memory has the canonical form. -/
def Sys2Proof.Claims.ResetMemoryIsCanonical : Prop := State.reset.mem.wf = true ∧ State.reset.hostMem.wf = true

/-- R15, R127: a written scalar register reads back and no other of the window changes; x0 reads as 0 and k0 as all ones,
whatever is written to them. -/
def Sys2Proof.Claims.RegistersReadBack : Prop :=
  ∀ (x : Ctx) (d : Reg) v, x.readX 0 = 0 ∧ x.writeX 0 v = x ∧ (d ≠ 0 → (x.writeX d v).readX d = v) ∧
    (∀ r, r ≠ d → (x.writeX d v).readX r = x.readX r) ∧ (∀ n, x.readK 0 = 0xFFFFFFFF ∧ x.writeK 0 n = x)
/-! ## Scalar instructions (R60–R63) -/

/-- R60: the 64-bit register forms. -/
def Sys2Proof.Claims.RegisterArithmeticResults : Prop :=
  RegResult .add (fun x y => x.toNat + y.toNat) ∧
  RegResult .sub (fun x y => x.toNat - y.toNat) ∧
  RegResult .and (fun x y => ((x.toNat &&& y.toNat : Nat) : Int)) ∧
  RegResult .or (fun x y => ((x.toNat ||| y.toNat : Nat) : Int)) ∧
  RegResult .xor (fun x y => ((x.toNat ^^^ y.toNat : Nat) : Int)) ∧
  RegResult .slt (fun x y => if x.toInt < y.toInt then 1 else 0) ∧
  RegResult .sltu (fun x y => if x.toNat < y.toNat then 1 else 0) ∧
  RegResult .sll (fun x y => x.toNat * 2 ^ (y.toNat % 64)) ∧
  RegResult .srl (fun x y => x.toNat / 2 ^ (y.toNat % 64)) ∧
  RegResult .sra (fun x y => x.toInt / 2 ^ (y.toNat % 64))

/-- R60: the forms with an immediate, LUI and AUIPC. -/
def Sys2Proof.Claims.ImmediateArithmeticResults : Prop :=
  ImmResult .addi (fun x i => x.toNat + i) ∧
  ImmResult .slti (fun x i => if x.toInt < i then 1 else 0) ∧
  ImmResult .sltiu (fun x i => if (x.toNat : Int) < i % 2 ^ 64 then 1 else 0) ∧
  ImmResult .xori (fun x i => ((x.toNat ^^^ (i % 2 ^ 64).toNat : Nat) : Int)) ∧
  ImmResult .ori (fun x i => ((x.toNat ||| (i % 2 ^ 64).toNat : Nat) : Int)) ∧
  ImmResult .andi (fun x i => ((x.toNat &&& (i % 2 ^ 64).toNat : Nat) : Int)) ∧
  ShiftResult .slli (fun x n => x.toNat * 2 ^ n) ∧
  ShiftResult .srli (fun x n => x.toNat / 2 ^ n) ∧
  ShiftResult .srai (fun x n => x.toInt / 2 ^ n) ∧
  (∀ s d imm, ∃ t, exec (.lui d imm) s = .next t ∧ WritesX s t d (BitVec.ofInt 64 (imm.toInt * 4096))) ∧
  (∀ s d imm, ∃ t, exec (.auipc d imm) s = .next t ∧
    WritesX s t d (BitVec.ofInt 64 (s.me.pc.toNat + imm.toInt * 4096)))

/-- R60: the W forms operate on the low 32 bits and sign-extend from 32. -/
def Sys2Proof.Claims.WordArithmeticResults : Prop :=
  RegResult .addw (fun x y => wrap32 (x.toNat + y.toNat)) ∧
  RegResult .subw (fun x y => wrap32 (x.toNat - y.toNat)) ∧
  RegResult .sllw (fun x y => wrap32 (x.toNat * 2 ^ (y.toNat % 32))) ∧
  RegResult .srlw (fun x y => wrap32 (u32 x / 2 ^ (y.toNat % 32))) ∧
  RegResult .sraw (fun x y => wrap32 (s32 x / 2 ^ (y.toNat % 32))) ∧
  ImmResult .addiw (fun x i => wrap32 (x.toNat + i)) ∧
  ShiftResult .slliw (fun x n => wrap32 (x.toNat * 2 ^ n)) ∧
  ShiftResult .srliw (fun x n => wrap32 (u32 x / 2 ^ n)) ∧
  ShiftResult .sraiw (fun x n => wrap32 (s32 x / 2 ^ n))

/-- R60, R61: products, and quotients toward zero with their remainders; a zero divisor gives all ones and the dividend;
the most negative value by −1 gives the dividend and 0. -/
def Sys2Proof.Claims.MultiplyDivideResults : Prop :=
  RegResult .mul (fun x y => x.toNat * y.toNat) ∧
  RegResult .mulh (fun x y => x.toInt * y.toInt / 2 ^ 64) ∧
  RegResult .mulhsu (fun x y => x.toInt * y.toNat / 2 ^ 64) ∧
  RegResult .mulhu (fun x y => x.toNat * y.toNat / 2 ^ 64) ∧
  RegResult .div (fun x y => if y = 0 then -1 else x.toInt.tdiv y.toInt) ∧
  RegResult .divu (fun x y => if y = 0 then -1 else x.toNat / y.toNat) ∧
  RegResult .rem (fun x y => if y = 0 then x.toInt else x.toInt.tmod y.toInt) ∧
  RegResult .remu (fun x y => if y = 0 then x.toNat else x.toNat % y.toNat) ∧
  RegResult .mulw (fun x y => wrap32 (x.toNat * y.toNat)) ∧
  RegResult .divw (fun x y => if u32 y = 0 then -1 else wrap32 ((s32 x).tdiv (s32 y))) ∧
  RegResult .divuw (fun x y => if u32 y = 0 then -1 else wrap32 (u32 x / u32 y)) ∧
  RegResult .remw (fun x y => if u32 y = 0 then s32 x else (s32 x).tmod (s32 y)) ∧
  RegResult .remuw (fun x y => if u32 y = 0 then s32 x else wrap32 (u32 x % u32 y))

/-- R60, R34: branches, JAL and JALR; a target that is no multiple of 4 raises the misaligned trap with the target. -/
def Sys2Proof.Claims.BranchesAndJumps : Prop :=
  BranchResult .beq (fun x y => decide (x = y)) ∧
  BranchResult .bne (fun x y => decide (x ≠ y)) ∧
  BranchResult .blt (fun x y => decide (x.toInt < y.toInt)) ∧
  BranchResult .bge (fun x y => decide (y.toInt ≤ x.toInt)) ∧
  BranchResult .bltu (fun x y => decide (x.toNat < y.toNat)) ∧
  BranchResult .bgeu (fun x y => decide (y.toNat ≤ x.toNat)) ∧
  (∀ s d imm, let target := s.me.pc + BitVec.ofInt 64 (2 * imm.toInt)
    (target.toNat % 4 = 0 → ∃ t, exec (.jal d imm) s = .next t ∧ Links s t d target) ∧
    (target.toNat % 4 ≠ 0 → exec (.jal d imm) s = s.trapOut 0x02 target)) ∧
  (∀ s d a imm, let sum := (s.x a).toNat + (2 ^ 64 : Int) + imm.toInt
    let target := BitVec.ofInt 64 (sum - sum % 2)
    (target.toNat % 4 = 0 → ∃ t, exec (.jalr d a imm) s = .next t ∧ Links s t d target) ∧
    (target.toNat % 4 ≠ 0 → exec (.jalr d a imm) s = s.trapOut 0x02 target))

/-! ## Control and status registers, traps -/

/-- R38, R62: the Zicsr instructions. That a write stores a reserved value of rows, klen, fmt or n of MXFMTA and MXFMTB as it is, where
R6 would ignore it, is the model's reading (log entry 100). -/
def Sys2Proof.Claims.CsrInstructionResults : Prop :=
  CsrResult .csrrw (fun s u _ => some (s.x u)) ∧
  CsrResult .csrrs (fun s u old => if u = 0#5 then none else some (old ||| s.x u)) ∧
  CsrResult .csrrc (fun s u old => if u = 0#5 then none else some (old &&& ~~~ s.x u)) ∧
  CsrResult .csrrwi (fun _ u _ => some (w64 u.toNat)) ∧
  CsrResult .csrrsi (fun _ u old => if u = 0#5 then none else some (old ||| w64 u.toNat)) ∧
  CsrResult .csrrci (fun _ u old => if u = 0#5 then none else some (old &&& ~~~ w64 u.toNat))

/-- R38: a CSR that does not exist, one of 0x7C0–0x7FF in app mode, and a write to one of 0xCC0–0xCFF trap as illegal. -/
def Sys2Proof.Claims.CsrIllegalUseTraps : Prop :=
  ∀ s d a csr,
    (csrOf csr.toNat = none ∨ (0x7C0 ≤ csr.toNat ∧ csr.toNat ≤ 0x7FF ∧ s.me.mode = .app) ∨
      (0xCC0 ≤ csr.toNat ∧ csr.toNat ≤ 0xCFF)) →
    exec (.csrrw d a csr) s = s.trapOut 0x01 (wordOf (.csrrw d a csr)) ∧
    exec (.csrrwi d a csr) s = s.trapOut 0x01 (wordOf (.csrrwi d a csr)) ∧
    (a ≠ 0#5 ∨ ¬ (0xCC0 ≤ csr.toNat ∧ csr.toNat ≤ 0xCFF) →
      exec (.csrrs d a csr) s = s.trapOut 0x01 (wordOf (.csrrs d a csr)) ∧
      exec (.csrrc d a csr) s = s.trapOut 0x01 (wordOf (.csrrc d a csr)) ∧
      exec (.csrrsi d a csr) s = s.trapOut 0x01 (wordOf (.csrrsi d a csr)) ∧
      exec (.csrrci d a csr) s = s.trapOut 0x01 (wordOf (.csrrci d a csr)))

/-- R24, R25, R199, R200: what taking a trap in app mode does, for every cause. -/
def Sys2Proof.Claims.TrapEntryInAppMode : Prop :=
  ∀ s core ctx cause val tpc a, (s.ctx core ctx).act = some a → a.mode = .app →
    TrapEntered s (s.trap core ctx cause val tpc) core ctx cause val tpc

/-- R27, R201: what a trap in system mode does. -/
def Sys2Proof.Claims.TrapInSystemModeIsCoreFault : Prop :=
  ∀ s core ctx cause val tpc a, (s.ctx core ctx).act = some a → a.mode = .system →
    CoreFaulted s (s.trap core ctx cause val tpc) core ctx cause val tpc

/-- R32, R63, R199: ECALL, EBREAK and a word that names no instruction take their traps. -/
def Sys2Proof.Claims.ServiceAndIllegalTraps : Prop :=
  TrapsWith .ecall 0x0E (fun _ => 0) ∧
  TrapsWith .ebreak 0x0F (fun s => s.me.pc) ∧
  ∀ w, TrapsWith (.illegalEncoding w) 0x01 (fun _ => w.setWidth 64)

/-! ## Windows, activation ends and messages -/

/-- R16, R17, R69: WCALL and WCALLR; past five windows the sixth oldest is spilled to its image in the scratchpad. That the spill is one
request of 128 bytes, and so asks for one free place among the stores, is the model's choice (log entry 33). -/
def Sys2Proof.Claims.WindowCallResults : Prop :=
  ∀ s i target,
    (∃ off : BitVec 22, i = .wcall off ∧ target = s.me.pc + BitVec.ofInt 64 (4 * off.toInt)) ∨
      (∃ a, i = .wcallr a ∧ target = s.x a) →
    s.me.ld = 0 →
    (s.me.depth < 9 → target.toNat % 4 = 0 → s.me.depth < 5 ∨ s.me.st < 32 →
      ∃ t, exec i s = .next t ∧ Called s t target) ∧
    (s.me.depth = 9 → exec i s = s.trapOut 0x0A 9) ∧
    (s.me.depth < 9 → target.toNat % 4 ≠ 0 → exec i s = s.trapOut 0x02 target)

/-- R16, R17, R70: WRET; the caller's window comes back, from its image where it was spilled. -/
def Sys2Proof.Claims.WindowReturnResult : Prop :=
  ∀ s, s.me.ld = 0 →
    (s.me.depth = 0 → exec .wret s = s.trapOut 0x01 (wordOf .wret)) ∧
    (0 < s.me.depth → (s.me.readX (reg 23)).toNat % 4 ≠ 0 → exec .wret s = s.trapOut 0x02 (s.me.readX (reg 23))) ∧
    (0 < s.me.depth → s.me.depth ≤ 5 → (s.me.readX (reg 23)).toNat % 4 = 0 →
      ∃ t, exec .wret s = .next t ∧ t.me = { s.me with depth := s.me.depth - 1, pc := s.me.readX (reg 23) } ∧
        (∀ j, j < 8 → t.me.readX (reg (24 + j)) = s.me.readX (reg (8 + j))) ∧
        (∀ k, k ≠ 4 * s.focus.core + s.focus.ctx → t.ctxs.look k = s.ctxs.look k) ∧ SameMemory s t) ∧
    (∀ p : Place, 5 < s.me.depth → (s.me.readX (reg 23)).toNat % 4 = 0 →
      p = ⟨.scratch, s.myCore.site, s.myCore.spillBase + 512 * s.focus.ctx + 128 * (s.me.depth - 6)⟩ →
      (∀ r ∈ s.reqs, r.pending = true → ownerCore r.owner = some s.focus.core →
        r.target.extent.1.overlaps r.target.extent.2 p 128 = false) →
      ∃ t, exec .wret s = .next t ∧ t.me.depth = s.me.depth - 1 ∧ t.me.pc = s.me.readX (reg 23) ∧
        (∀ j, j < 16 → t.me.win.at (16 * (s.me.depth - 6) + j) 0 = w64 (leNat (slice (s.readPlace p 128) (8 * j) 8))) ∧
        (∀ k, k < 16 * (s.me.depth - 6) ∨ 16 * (s.me.depth - 5) ≤ k → t.me.win.at k 0 = s.me.win.at k 0) ∧
        t.me = { s.me with depth := t.me.depth, pc := t.me.pc, win := t.me.win } ∧ SameMemory s t)

/-- R67: WCALL, WCALLR, WRET and DONE wait for every outstanding load; nothing changes meanwhile. -/
def Sys2Proof.Claims.LoadsHoldCallsAndEnds : Prop :=
  ∀ s, s.me.ld ≠ 0 →
    (∀ off, exec (.wcall off) s = .next s) ∧ (∀ a, exec (.wcallr a) s = .next s) ∧ exec .wret s = .next s ∧
    (s.me.mode = .app → exec .done s = .next s)

/-- R16, R69, R70: a call and the return from it, with l7 untouched, give the caller back its window and its next
instruction. -/
def Sys2Proof.Claims.CallThenReturnRestoresWindow : Prop :=
  ∀ s a t u, s.me.depth < 5 → s.me.pc.toNat % 4 = 0 → (s.x a).toNat % 4 = 0 → s.me.ld = 0 →
    exec (.wcallr a) s = .next t → exec .wret t = .next u →
    u.me.pc = s.me.pc + 4 ∧ u.me.depth = s.me.depth ∧ (∀ r, u.me.readX r = s.me.readX r) ∧ u.me.v = s.me.v ∧
      SameMemory s u

/-- R19, R71: SEND and SENDM add their message to the context's send buffer. -/
def Sys2Proof.Claims.SendFillsTheSendBuffer : Prop :=
  ∀ s ch r, s.me.mode = .app → (s.myCore.slot ch).route = some r →
    s.me.send.length + s.myCore.unsent s.focus.ctx false < 16 →
    (∀ tag pl, (pl = 0#5 ∨ 16 ≤ pl.toNat) → ch < 64 →
      ∃ t m, exec (.send tag (BitVec.ofNat 6 ch) pl) s = .next t ∧
        t.me = { s.me with pc := s.me.pc + 4, send := s.me.send ++ [m] } ∧ OnlyMe s t ∧
        Built s m ch tag.toNat .data (payloadOf s.me pl)) ∧
    (ch < 64 → ∃ t m, exec (.sendm (BitVec.ofNat 6 ch)) s = .next t ∧
        t.me = { s.me with pc := s.me.pc + 4, send := s.me.send ++ [m] } ∧ OnlyMe s t ∧
        Built s m ch 0 .marker (List.replicate 8 0))

/-- R20, R71, R72, R350: SENDI commits its message at once, with the round number of its slot; only a LOGGED channel or a tied
sender still to be recorded writes to memory. -/
def Sys2Proof.Claims.SendiCommitsAtOnce : Prop :=
  ∀ s ch r tag pl, ch < 64 → (s.myCore.slot ch).route = some r → (pl = 0#5 ∨ 16 ≤ pl.toNat) →
    (s.me.send.length + s.myCore.unsent s.focus.ctx false < 16 ∨ s.myCore.unsent s.focus.ctx true = 0) →
    ∃ t m, exec (.sendi tag (BitVec.ofNat 6 ch) pl) s = .next t ∧ t.me = s.me.next ∧
      t.myCore.outq = s.myCore.outq ++ [m] ∧ m.hdr.round = (s.myCore.slot ch).round ∧
      Built s m ch tag.toNat .data (payloadOf s.me pl) ∧
      (∀ k, k ≠ 4 * s.focus.core + s.focus.ctx → t.ctxs.look k = s.ctxs.look k) ∧
      (∀ n, n ≠ s.focus.core → t.cores.look n = s.cores.look n) ∧
      ((s.myCore.slot ch).logged = false → s.myCore.trace.ties = [] → OnlyMyCore s t)

/-- R19, R71: where the messages of R71 trap, in order: a form of app mode in system mode, a slot with no route, a full
send buffer; and where they wait for a place. -/
def Sys2Proof.Claims.SendTrapsAndWaits : Prop :=
  ∀ s tag ch pl,
    (s.me.mode = .system → exec (.send tag ch pl) s = s.trapOut 0x01 (wordOf (.send tag ch pl)) ∧
      exec (.sendm ch) s = s.trapOut 0x01 (wordOf (.sendm ch))) ∧
    (s.me.mode = .app → (s.myCore.slot ch.toNat).route = none →
      exec (.send tag ch pl) s = s.trapOut 0x08 (w64 (2 ^ 63 + ch.toNat)) ∧
      exec (.sendi tag ch pl) s = s.trapOut 0x08 (w64 (2 ^ 63 + ch.toNat)) ∧
      exec (.sendm ch) s = s.trapOut 0x08 (w64 (2 ^ 63 + ch.toNat))) ∧
    (s.me.mode = .app → (s.myCore.slot ch.toNat).route ≠ none → s.me.send.length = 16 →
      exec (.send tag ch pl) s = s.trapOut 0x0B 16 ∧ exec (.sendm ch) s = s.trapOut 0x0B 16) ∧
    (s.me.mode = .app → (s.myCore.slot ch.toNat).route ≠ none → s.me.send.length < 16 →
      16 ≤ s.me.send.length + s.myCore.unsent s.focus.ctx false →
      exec (.send tag ch pl) s = .next s ∧ exec (.sendm ch) s = .next s)

/-- R20, R22, R23: DONE commits the buffered messages in issue order, unbinds the streams and frees the context,
from the next cycle on. -/
def Sys2Proof.Claims.DoneEndsTheActivation : Prop :=
  ∀ s a, s.me.act = some a → a.mode = .app → s.me.ld = 0 → (∀ m ∈ s.me.send, m.core = s.focus.core) →
    ∃ t, exec .done s = .next t ∧ t.me.act = none ∧ t.me.left = some (s.now, a.tag) ∧ t.me.send = [] ∧
      (t.myCore.outq.map fun m => (m.slot, m.payload, m.hdr.kind)) =
        ((s.myCore.outq ++ s.me.send).map fun m => (m.slot, m.payload, m.hdr.kind)) ∧
      (∀ q st, t.myCore.streams.look q = some st → st.bound = true → st.ctx ≠ s.focus.ctx) ∧
      (∀ k, k ≠ 4 * s.focus.core + s.focus.ctx → t.ctxs.look k = s.ctxs.look k)

/-- R25, R39, R79, R191, R197: TRET frees the trap context, from the next cycle on, and releases its message or its close for a replay, or removes it;
app mode traps. -/
def Sys2Proof.Claims.TrapReturnResults : Prop :=
  ∀ s a, s.me.act = some a → s.myCore.pair = none →
    (a.mode = .system →
      (∃ t, exec .tretReplay s = .next t ∧ t.me.act = none ∧ t.me.left = some (s.now, a.tag) ∧
        (∀ m, a.origin = .message m → ∀ q, t.myCore.queues.at q [] = (s.myCore.queues.at q []).map fun m =>
          if m.lock = some s.focus.ctx then { m with lock := none, replayed := true } else m) ∧
        (∀ n g, a.origin = .close n → a.tag = some g → (t.myCore.rounds.at g .blank).again = true ∧
          t.myCore.queues = s.myCore.queues) ∧
        (a.origin = .pending → t.myCore.queues = s.myCore.queues ∧ t.myCore.tagpend = s.myCore.tagpend) ∧
        SameScalarsBut s.me t.me 0 ∧ SameMemory s t) ∧
      (∃ t, exec .tretDiscard s = .next t ∧ t.me.act = none ∧ t.me.left = some (s.now, a.tag) ∧
        (∀ m, a.origin = .message m → ∀ q, t.myCore.queues.at q [] =
          (s.myCore.queues.at q []).filter fun m => m.lock != some s.focus.ctx) ∧
        (∀ g, a.origin = .pending → a.tag = some g → t.myCore.tagpend = clrBit s.myCore.tagpend g) ∧
        SameScalarsBut s.me t.me 0 ∧ SameMemory s t)) ∧
    (a.mode = .app → exec .tretReplay s = s.trapOut 0x01 (wordOf .tretReplay) ∧
      exec .tretDiscard s = s.trapOut 0x01 (wordOf .tretDiscard))

/-! ## Tags, waits, queries, engine queues, streams and trace control -/

/-- R74: TAGOP gives the old value of TAGEN or TAGPEND and sets or clears the bits of the tag or of the mask; the scheduler sees the
change on the next cycle. -/
def Sys2Proof.Claims.TagopResults : Prop :=
  ∀ s d tag a, let bit : Word := BitVec.ofNat 64 (2 ^ tag.toNat)
    (∃ t, exec (.tagopEnSet d tag) s = .next t ∧ TagWrite s t d s.myCore.tagen (s.myCore.tagen ||| bit) s.myCore.tagpend) ∧
    (∃ t, exec (.tagopEnClr d tag) s = .next t ∧ TagWrite s t d s.myCore.tagen (s.myCore.tagen &&& ~~~ bit) s.myCore.tagpend) ∧
    (∃ t, exec (.tagopPdSet d tag) s = .next t ∧ TagWrite s t d s.myCore.tagpend s.myCore.tagen (s.myCore.tagpend ||| bit)) ∧
    (∃ t, exec (.tagopPdClr d tag) s = .next t ∧ TagWrite s t d s.myCore.tagpend s.myCore.tagen (s.myCore.tagpend &&& ~~~ bit)) ∧
    (∃ t, exec (.tagopEnSetMask d a) s = .next t ∧ TagWrite s t d s.myCore.tagen (s.myCore.tagen ||| s.x a) s.myCore.tagpend) ∧
    (∃ t, exec (.tagopEnClrMask d a) s = .next t ∧ TagWrite s t d s.myCore.tagen (s.myCore.tagen &&& ~~~ s.x a) s.myCore.tagpend) ∧
    (∃ t, exec (.tagopPdSetMask d a) s = .next t ∧ TagWrite s t d s.myCore.tagpend s.myCore.tagen (s.myCore.tagpend ||| s.x a)) ∧
    (∃ t, exec (.tagopPdClrMask d a) s = .next t ∧ TagWrite s t d s.myCore.tagpend s.myCore.tagen (s.myCore.tagpend &&& ~~~ s.x a))

/-- R35, R68, R76: FENCE, FENCE.I and WAITC go on when their counts are within limits (15: no limit) and else hold the
context, with no register changed either way; FENCE.I drops what has been prefetched. -/
def Sys2Proof.Claims.FencesAndWaits : Prop :=
  ∀ s,
    (∀ fm p q, (s.me.ld = 0 ∧ s.me.st = 0 → ∃ t, exec (.fence fm p q) s = .next t ∧ t.me = s.me.next ∧ Waited s t) ∧
      (s.me.ld ≠ 0 ∨ s.me.st ≠ 0 → ∃ t, exec (.fence fm p q) s = .next t ∧ t.me = s.me ∧ Waited s t)) ∧
    ((s.me.ld = 0 ∧ s.me.st = 0 → ∃ t, exec .fenceI s = .next t ∧ t.me = { s.me.next with blocks := [] } ∧ Waited s t) ∧
      (s.me.ld ≠ 0 ∨ s.me.st ≠ 0 → ∃ t, exec .fenceI s = .next t ∧ t.me = s.me ∧ Waited s t)) ∧
    (∀ sy mx cp st ld : BitVec 4,
      let ok : Prop := (sy = 15#4 ∨ s.me.sy ≤ sy.toNat) ∧ (mx = 15#4 ∨ s.classCount .mx ≤ mx.toNat) ∧
        (cp = 15#4 ∨ s.classCount .cp ≤ cp.toNat) ∧ (st = 15#4 ∨ s.me.st ≤ st.toNat) ∧ (ld = 15#4 ∨ s.me.ld ≤ ld.toNat)
      (ok → ∃ t, exec (.waitc sy mx cp st ld) s = .next t ∧ t.me = s.me.next ∧ Waited s t) ∧
      (¬ ok → ∃ t, exec (.waitc sy mx cp st ld) s = .next t ∧ t.me = s.me ∧ Waited s t))

/-- R75, R77, R361: RDCNT, RDQF, RDSTRM, RDID and TRCTL.status read what they name. A command that has faulted stays in its class
count while one of its writes is to be performed (log entry 80). -/
def Sys2Proof.Claims.QueryResults : Prop :=
  ∀ s d,
    (∀ c, ∃ t n, exec (.rdcnt d c) s = .next t ∧ WritesX s t d (w64 n) ∧ n = s.classCount c ∧
      (c = .ld → n = s.me.ld) ∧ (c = .st → n = s.me.st) ∧ (c = .sy → n = s.me.sy) ∧
      ((∀ r ∈ s.reqs, ∀ q k, r.owner = .engine s.focus.core q k → r.pending = true → isStore r.target = true →
          ∃ j, s.myCore.job q = some j ∧ j.cmd.stamp = k) →
        (c = .cp → n = s.myCore.cp) ∧ (c = .mx → n = s.myCore.mx))) ∧
    (∀ q, ∃ t, exec (.rdqf d q) s = .next t ∧ WritesX s t d (w64 (16 - s.myCore.queued q))) ∧
    (∀ n : BitVec 3, let st := s.myCore.stream n.toNat
      ∃ t, exec (.rdstrm d n) s = .next t ∧ WritesX s t d (if st.bound then
        w64 (1 + 2 * b2n st.xlate + 4 * b2n st.fault.isSome + 256 * (if st.outb then 0 else st.arrived.length)
          + 65536 * (if st.outb then st.pushed.length else 0)) else 0)) ∧
    (∀ item, ∃ t, exec (.rdid d item) s = .next t ∧ WritesX s t d (w64 (match item with
      | .core => s.focus.core | .site => s.myCore.site | .module => s.moduleId | .context => s.focus.ctx))) ∧
    (∃ t, exec (.trctlStatus d) s = .next t ∧ t.me.pc = s.me.pc + 4) ∧
    (let tr := s.myCore.trace;
      tr.ties = [] → ∃ t, exec (.trctlStatus d) s = .next t ∧ WritesX s t d (w64 (b2n tr.valid * 2 ^ 63 + b2n tr.sat * 2 ^ 62
        + b2n tr.isOpen * 2 ^ 61 + b2n tr.recording * 2 ^ 60 + (if tr.sat then tr.reason else 0) * 2 ^ 57
        + tr.wcnt * 2 ^ 32 + tr.rcnt * 2 ^ 16 + min tr.logn 65535)))

/-- R78, R179: ENQ and ENQM, whose four reads have returned, put the command last in its queue and count it; a poisoned
queue discards it; a full one makes the context wait. -/
def Sys2Proof.Claims.CommandAcceptance : Prop :=
  ∀ s q i cmd, (s.bringup.sapling = true → q ≠ .mxq) →
    (∃ a, i = .enq a q ∧ cmd = s.me.readV a.toNat) ∨ (∃ a g w0 w1 w2 w3, i = .enqm a q ∧ (s.x a).toNat % 32 = 0 ∧
      (s.x a).toNat < 2 ^ 48 ∧ s.me.gather = some g ∧ g.pc = s.me.pc ∧ (∀ j, j < 4 → j ∈ g.asked) ∧
      g.got.look 0 = some w0 ∧ g.got.look 1 = some w1 ∧ g.got.look 2 = some w2 ∧ g.got.look 3 = some w3 ∧
      cmd = w3 ++ w2 ++ w1 ++ w0) →
    (s.myCore.isPoisoned q = false → s.myCore.queued q < 16 →
      ∃ t, exec i s = .next t ∧ t.me = { s.me.next with gather := none } ∧
        t.myCore.cmds.at (queueNo q) [] = s.myCore.cmds.at (queueNo q) [] ++ [⟨cmd, s.me.mode, s.fresh⟩] ∧
        (∀ k, k ≠ queueNo q → t.myCore.cmds.at k [] = s.myCore.cmds.at k []) ∧
        t.myCore.mx = s.myCore.mx + (if q = .mxq then 1 else 0) ∧
        t.myCore.cp = s.myCore.cp + (if q = .mxq then 0 else 1) ∧
        t.myCore = { s.myCore with cmds := t.myCore.cmds, mx := t.myCore.mx, cp := t.myCore.cp } ∧ SameMemory s t) ∧
    (s.myCore.isPoisoned q = true → ∃ t, exec i s = .next t ∧ t.me = { s.me.next with gather := none } ∧ OnlyMe s t) ∧
    (s.myCore.isPoisoned q = false → 16 ≤ s.myCore.queued q → exec i s = .next s)

/-- R10, R52, R75, R78, R106: the four reads of ENQM and SBIND from the core's own scratchpad are made one after another, the
first when the context's earlier accesses are performed. Each counts in class LD, all four must fit at the first, and the
context stays at the instruction. -/
def Sys2Proof.Claims.GatherReadsAreIssued : Prop :=
  ∀ s a i, (s.x a).toNat % 32 = 0 → (s.x a).toNat < 0x8000 → s.me.checks = none →
    (∃ n, i = .sbind n a) ∨ (∃ q, i = .enqm a q ∧ (s.bringup.sapling = true → q ≠ .mxq)) →
    let asks (t : State) (asked new : List Nat) (got : FMap Word) : Prop :=
      t.me.pc = s.me.pc ∧ t.me.ld = s.me.ld + new.length ∧
      (∃ g, t.me.gather = some g ∧ g.pc = s.me.pc ∧ g.asked = asked ++ new ∧ g.got = got) ∧
      (∀ r, t.me.readX r = s.me.readX r) ∧
      (∀ j ∈ new, ∃ r ∈ t.reqs, r.dest = .gather j ∧
        r.target = .mem .load ⟨.scratch, s.myCore.site, (s.x a).toNat + 8 * j⟩ 8 [] 0)
    let out (r : Req) : Prop := r.pending = true ∧ r.cls ≠ none ∧ ∃ k, r.owner = .ctx s.focus.core s.focus.ctx k
    (s.me.gather = none → (∃ r ∈ s.reqs, out r) ∨ (∃ id ∈ s.me.pushes, s.pushOut id = true) → exec i s = .next s) ∧
    (s.me.gather = none → (∀ r ∈ s.reqs, ¬ out r) → (∀ id ∈ s.me.pushes, s.pushOut id = false) →
      (s.me.ld ≤ 12 → ∃ t, exec i s = .next t ∧ asks t [] [0] []) ∧
      (12 < s.me.ld → exec i s = .next s)) ∧
    (∀ g, s.me.gather = some g → g.pc = s.me.pc → 0 < g.got.length → g.got.length < 4 →
      g.asked = List.range g.got.length → ∃ t, exec i s = .next t ∧ asks t g.asked [g.got.length] g.got) ∧
    (∀ g, s.me.gather = some g → g.pc = s.me.pc → g.got.length < 4 → g.asked = List.range (g.got.length + 1) →
      g.got.look g.got.length = none → exec i s = .next s)

/-- R100, R102, R106: SBIND, whose four reads have returned, binds the stream register as the descriptor says, with its loop
record once the core's earlier stores to that are performed; a register already bound, a descriptor with a reserved or
impossible field and an invalid loop record are stream faults. That the bytes of a loop record that holds an uncorrectable error are
used as they are is the model's choice (log entry 84). -/
def Sys2Proof.Claims.StreamBinding : Prop :=
  ∀ s n a g w0 w1 w2 w3, (s.x a).toNat % 32 = 0 → (s.x a).toNat < 2 ^ 48 → s.me.gather = some g → g.pc = s.me.pc →
    (∀ j, j < 4 → j ∈ g.asked) → g.got.look 0 = some w0 → g.got.look 1 = some w1 → g.got.look 2 = some w2 →
    g.got.look 3 = some w3 →
    let size := if bits w0.toNat 59 58 = 0 then 8 else 32
    let idx := bits w1.toNat 7 0
    let good := bits w0.toNat 59 58 < 2 ∧ bits w0.toNat 57 56 < 2 ∧ bits w0.toNat 47 0 % size = 0 ∧ bits w2.toNat 31 0 ≠ 0
    let stores := s.storePending s.focus.core ⟨.scratch, s.myCore.site, s.myCore.loopsBase + 32 * idx⟩ 32 s.fresh
    let binds (l : Option LoopRec) : Prop :=
      ∃ t st, exec (.sbind n a) s = .next t ∧ t.me = { s.me.next with gather := none } ∧ t.myCore.stream n.toNat = st ∧
        st.bound = true ∧ st.ctx = s.focus.ctx ∧ st.epoch = s.me.epoch ∧ st.mode = s.me.mode ∧ st.esize = size ∧
        st.outb = (bits w0.toNat 57 56 == 1) ∧ st.eng = bits w0.toNat 60 60 ∧ st.base = bits w0.toNat 47 0 ∧
        st.count = bits w2.toNat 31 0 ∧ st.loop = l ∧ st.used = 0 ∧ st.arrived = [] ∧ st.pushed = [] ∧
        (∀ k, k ≠ n.toNat → t.myCore.stream k = s.myCore.stream k) ∧ OnlyMyCore s t
    ((s.myCore.stream n.toNat).bound = true → exec (.sbind n a) s = s.trapOut 0x07 (w64 (7 * 2 ^ 52 + n.toNat * 2 ^ 48))) ∧
    ((s.myCore.stream n.toNat).bound = false →
      (idx ≠ 255 → stores = true → exec (.sbind n a) s = .next s) ∧
      (idx = 255 ∨ stores = false →
        (good → idx = 255 → binds none) ∧
        (∀ l, good → idx ≠ 255 → s.readLoop s.focus.core idx = some l → binds (some l)) ∧
        (¬ good ∨ (idx ≠ 255 ∧ s.readLoop s.focus.core idx = none) →
          exec (.sbind n a) s = s.trapOut 0x07 (w64 (8 * 2 ^ 52 + n.toNat * 2 ^ 48)))))

/-- R103, R107: SUNBIND unbinds a register that this activation bound, once every pushed element is performed; of one that holds a
fault it reports the fault, and of another it is a stream fault. -/
def Sys2Proof.Claims.StreamUnbinding : Prop :=
  ∀ s n, let st := s.myCore.stream n.toNat
    let mine := st.bound = true ∧ st.ctx = s.focus.ctx ∧ st.epoch = s.me.epoch
    (mine → st.fault = none → (st.outb = true → st.pushed = [] ∧ st.inflight = []) →
      ∃ t, exec (.sunbind n) s = .next t ∧ t.me = s.me.next ∧ (t.myCore.stream n.toNat).bound = false ∧
        (∀ k, k ≠ n.toNat → t.myCore.stream k = s.myCore.stream k) ∧ OnlyMyCore s t) ∧
    (mine → st.fault = none → st.outb = true → st.pushed ≠ [] ∨ st.inflight ≠ [] → exec (.sunbind n) s = .next s) ∧
    (∀ r va k, mine → st.fault = some (r, va, k) →
      (st.outb = true → st.inflight ≠ [] → exec (.sunbind n) s = .next s) ∧
      (st.outb = false ∨ st.inflight = [] →
        exec (.sunbind n) s = s.trapOut 0x07 (w64 (r * 2 ^ 52 + n.toNat * 2 ^ 48 + va % 2 ^ 48)))) ∧
    (¬ mine → exec (.sunbind n) s = s.trapOut 0x07 (w64 (1 * 2 ^ 52 + n.toNat * 2 ^ 48)))

/-- R348–R351, R360: TRCTL.markr and markw record the tile of an address, or saturate the block with reason 4 where it lies in
another module; sat saturates a recording block with reason 5; flush empties the coalescing buffer. The tied senders of
completed marker sets are recorded first. -/
def Sys2Proof.Claims.TraceControlResults : Prop :=
  ∀ s,
    (∀ a i wr t l near own, (i = .trctlMarkr a ∧ wr = false) ∨ (i = .trctlMarkw a ∧ wr = true) →
      s.translate s.meWho s.me.mode (if wr then accStore else accLoad) (s.x a).toNat = .ok t l near own →
      (∃ v, exec i s = .next v ∧ v.me = s.me.next) ∧
      (s.myCore.trace.ties = [] →
       (s.myCore.trace.recording = false ∨ l.place.space = .sync → exec i s = .next t.pass) ∧
       (s.myCore.trace.recording = true → s.myCore.trace.sat = false → l.mod ≠ s.moduleId → l.place.space ≠ .sync →
        ∃ v, exec i s = .next v ∧ v.myCore.trace = { s.myCore.trace with sat := true, reason := 4 }) ∧
       (s.myCore.trace.recording = true → s.myCore.trace.sat = false → s.myCore.trace.buf = [] → l.place.space ≠ .sync →
        l.mod = s.moduleId →
        ∃ v e, exec i s = .next v ∧ v.me = s.me.next ∧ v.myCore.trace.buf.look 0 = some e ∧ e.write = wr ∧
          e.range = ⟨l.place.space.code, l.place.owner, l.place.off / 4096, 0⟩ ∧ SameMemory s v))) ∧
    (∀ a i, i = .trctlMarkr a ∨ i = .trctlMarkw a → 2 ^ 48 ≤ (s.x a).toNat → exec i s = s.trapOut 0x03 (s.x a)) ∧
    (∃ t, exec .trctlSat s = .next t ∧ t.me = s.me.next ∧ (s.myCore.trace.ties = [] →
      (s.myCore.trace.recording = true → s.myCore.trace.sat = false →
        t.myCore.trace = { s.myCore.trace with sat := true, reason := 5 }) ∧
      (s.myCore.trace.recording = false ∨ s.myCore.trace.sat = true → t.myCore.trace = s.myCore.trace) ∧ OnlyMyCore s t)) ∧
    (∃ t, exec .trctlFlush s = .next t ∧ t.me = s.me.next ∧
      (s.myCore.trace.recording = true → t.myCore.trace.buf = []) ∧
      (s.myCore.trace.recording = false → OnlyMe s t))

/-! ## Memory accesses at issue -/

/-- R64, R65, R67, R75: the seven scalar loads. -/
def Sys2Proof.Claims.ScalarLoadsIssue : Prop :=
  LoadIssues .lb 1 true ∧ LoadIssues .lh 2 true ∧ LoadIssues .lw 4 true ∧ LoadIssues .ld 8 true ∧
  LoadIssues .lbu 1 false ∧ LoadIssues .lhu 2 false ∧ LoadIssues .lwu 4 false

/-- R64, R65, R75, R275: the four scalar stores. -/
def Sys2Proof.Claims.ScalarStoresIssue : Prop :=
  StoreIssues .sb 1 ∧ StoreIssues .sh 2 ∧ StoreIssues .sw 4 ∧ StoreIssues .sd 8

/-- R96, R103, R104, R105: a load of a stream port takes the next element and a store pushes one, LD and SD of 8 bytes, VLD and VST
of 32 without a predicate. The checks come in their order: binding (1), direction (2), width or predicate (3), count (4). A
held fault is reported in place of the element it stands before; that a check that fails goes before a held fault is the
model's choice of log entry 87. With nothing arrived, or 8 elements pushed, the context waits. -/
def Sys2Proof.Claims.StreamPortAccesses : Prop :=
  ∀ s (d a : Reg) q, q < 8 →
    let st := s.myCore.stream q
    let mine := st.bound = true ∧ st.ctx = s.focus.ctx ∧ st.epoch = s.me.epoch
    let fault (r va : Nat) := s.trapOut 0x07 (w64 (r * 2 ^ 52 + q * 2 ^ 48 + va % 2 ^ 48))
    -- a load and a store of `size` bytes; `whole`: no predicate
    let port (size : Nat) (whole : Prop) (load store : Instr) (bs : List Byte) (gets : State → List Byte → Prop) : Prop :=
      (¬ mine → exec load s = fault 1 0 ∧ exec store s = fault 1 0) ∧
      (mine → st.outb = true → exec load s = fault 2 0) ∧
      (mine → st.outb = false → exec store s = fault 2 0) ∧
      (mine → st.esize ≠ size ∨ ¬ whole →
        (st.outb = false → exec load s = fault 3 0) ∧ (st.outb = true → exec store s = fault 3 0)) ∧
      (mine → st.esize = size → whole → st.count ≤ st.used →
        (st.outb = false → exec load s = fault 4 0) ∧ (st.outb = true → exec store s = fault 4 0)) ∧
      (mine → st.esize = size → whole → st.used < st.count →
        (∀ e rest, st.outb = false → st.arrived = e :: rest →
          ∃ t, exec load s = .next t ∧ gets t e ∧ t.me.pc = s.me.pc + 4 ∧
            t.myCore.stream q = { st with arrived := rest, used := st.used + 1 } ∧ OnlyMyCore s t) ∧
        (st.outb = false → st.arrived = [] →
          (st.fault = none → exec load s = .next s) ∧
          (∀ r va k, st.fault = some (r, va, k) →
            (k ≤ st.used → exec load s = fault r va) ∧ (st.used < k → exec load s = .next s))) ∧
        (st.outb = true →
          (∀ r va k, st.fault = some (r, va, k) → exec store s = fault r va) ∧
          (st.fault = none → 8 ≤ st.pushed.length → exec store s = .next s) ∧
          (st.fault = none → st.pushed.length < 8 →
            ∃ t, exec store s = .next t ∧ t.me = s.me.next ∧
              t.myCore.stream q = { st with pushed := st.pushed ++ [bs], used := st.used + 1 } ∧ OnlyMyCore s t)))
    (∀ imm : BitVec 12, (s.x a + BitVec.ofInt 64 imm.toInt).toNat = 0x8000 + 32 * q →
      port 8 True (.ld d a imm) (.sd d a imm) (natLE 8 (s.x d).toNat)
        (fun t e => t.me.readX d = landed d (replyValue e 8 true) ∧ SameScalarsBut s.me t.me d) ∧
      (mine → st.outb = false → st.esize ≠ 4 → exec (.lw d a imm) s = fault 3 0) ∧
      (mine → st.outb = true → st.esize ≠ 4 → exec (.sw d a imm) s = fault 3 0)) ∧
    (∀ (imm : BitVec 5) et k, (s.x a + blockOff imm).toNat = 0x8000 + 32 * q → s.me.active et k ≠ [] →
      port 32 (k = 0#3) (.vld et d a imm k) (.vst et d a imm k) (vecBytes (s.me.readV d.toNat))
        (fun t e => t.me.readV d.toNat = bytesVec e ∧ (∀ r, r ≠ d.toNat → t.me.readV r = s.me.readV r) ∧
          ∀ r, t.me.readX r = s.me.readX r))

/-- R285, R295, R315, R316: LDP and STP reach the core a peer register names, LDACQ and STREL need a group they hold. -/
def Sys2Proof.Claims.PeerAndOrderedAccessesIssue : Prop :=
  (∀ s (d a p : Reg) (imm : BitVec 6), let o := s.x a + BitVec.ofInt 64 (8 * imm.toInt)
    (o.toNat % 8 ≠ 0 → exec (.ldp d a p imm) s = s.trapOut 0x02 o ∧ exec (.stp d a p imm) s = s.trapOut 0x02 o) ∧
    (o.toNat % 8 = 0 → peerAddress s o.toNat (s.x p).toNat = none →
      exec (.ldp d a p imm) s = s.trapOut 0x03 o ∧ exec (.stp d a p imm) s = s.trapOut 0x03 o) ∧
    (∀ va t u l route, o.toNat % 8 = 0 → peerAddress s o.toNat (s.x p).toNat = some va →
      (s.me.ld < 16 → Reaches s accLoad va 8 true t u l route → ∃ v, exec (.ldp d a p imm) s = .next v ∧
        Issued s v .ld (.mem .load l.place 8 [] 0) (s.me.dest d 8 true) va) ∧
      (s.me.st < 32 → Reaches s accStore va 8 false t u l route → s.focus.merge = false → ∃ v,
        exec (.stp d a p imm) s = .next v ∧
        Issued s v .st (.mem .store l.place 8 (natLE 8 (s.x d).toNat) 0xFFFFFFFF) .none va))) ∧
  (∀ s (d a : Reg) (w : Bool) (g : BitVec 8), let n := if w then 4 else 8
    let ea := s.x a
    (¬ holdsGroup s g.toNat → exec (.ldacq d a w g) s = s.trapOut 0x0C (w64 g.toNat) ∧
      exec (.strel d a w g) s = s.trapOut 0x0C (w64 g.toNat)) ∧
    (holdsGroup s g.toNat → ea.toNat % n = 0 → ea.toNat < 2 ^ 48 → ∀ t u l route,
      (s.me.ld < 16 → Reaches s accLoad ea.toNat n true t u l route → ∃ v, exec (.ldacq d a w g) s = .next v ∧
        Issued s v .ld (.mem .load l.place n [] 0) (s.me.dest d n true) ea.toNat ∧
        ∃ r ∈ v.reqs, r.holds = true ∧ r.target = .mem .load l.place n [] 0) ∧
      (s.me.st < 32 → Reaches s accStore ea.toNat n false t u l route → ∃ v, exec (.strel d a w g) s = .next v ∧
        Issued s v .st (.mem .store l.place n (natLE n (s.x d).toNat) 0xFFFFFFFF) .none ea.toNat ∧
        ∃ r ∈ v.reqs, r.stage = .release ∧ r.target = .mem .store l.place n (natLE n (s.x d).toNat) 0xFFFFFFFF)))

/-- R75, R291–R293: AMO and CAS. -/
def Sys2Proof.Claims.AtomicsIssue : Prop :=
  AmoIssues .amoAdd .amoAdd ∧ AmoIssues .amoAnd .amoAnd ∧ AmoIssues .amoOr .amoOr ∧ AmoIssues .amoXor .amoXor ∧
  AmoIssues .amoMin .amoMin ∧ AmoIssues .amoMax .amoMax ∧ AmoIssues .amoMinu .amoMinu ∧ AmoIssues .amoMaxu .amoMaxu ∧
  AmoIssues .amoSwap .amoSwap ∧
  (∀ s d a b aq rl t u l route, (s.x a).toNat % 4 = 0 → (s.x a).toNat < 2 ^ 48 → s.me.sy < 16 →
    (rl = true → s.me.ld = 0 ∧ s.me.st = 0 ∧ s.me.sy = 0) → Reaches s accAmo (s.x a).toNat 4 true t u l route →
    ∃ v, exec (.amoFadd d a b aq rl) s = .next v ∧ Issued s v .sy
      (if l.place.space = .sync then .sync l.place (.amo .amoFadd false (s.x b) 0)
       else .mem .amoFadd l.place 4 (natLE 4 (s.x b).toNat) 0) (s.me.dest d 4 true) (s.x a).toNat) ∧
  (∀ s d a b (w aq rl : Bool) t u l route, let n := if w then 4 else 8
    (s.x a).toNat % n = 0 → (s.x a).toNat < 2 ^ 48 → s.me.sy < 16 →
    (rl = true → s.me.ld = 0 ∧ s.me.st = 0 ∧ s.me.sy = 0) → Reaches s accAmo (s.x a).toNat n true t u l route →
    ∃ v, exec (.cas d a b w aq rl) s = .next v ∧ Issued s v .sy
      (if l.place.space = .sync then .sync l.place (.amo .cas (!w) (s.x b) (s.x d))
       else .mem .cas l.place n (natLE n (s.x b).toNat) (s.x d)) (s.me.dest d n true) (s.x a).toNat)

/-- R291, R292, R315, R317: the peer forms of AMO. -/
def Sys2Proof.Claims.PeerAtomicsIssue : Prop :=
  PeerAmoIssues .amoAddPeer .amoAdd ∧ PeerAmoIssues .amoAndPeer .amoAnd ∧ PeerAmoIssues .amoOrPeer .amoOr ∧
  PeerAmoIssues .amoXorPeer .amoXor ∧ PeerAmoIssues .amoMinPeer .amoMin ∧ PeerAmoIssues .amoMaxPeer .amoMax ∧
  PeerAmoIssues .amoMinuPeer .amoMinu ∧ PeerAmoIssues .amoMaxuPeer .amoMaxu ∧ PeerAmoIssues .amoSwapPeer .amoSwap ∧
  (∀ s d a p aq rl va t u l route, (s.x a).toNat % 4 = 0 → peerAddress s (s.x a).toNat (s.x p).toNat = some va →
    s.me.sy < 16 → (rl = true → s.me.ld = 0 ∧ s.me.st = 0 ∧ s.me.sy = 0) → Reaches s accAmo va 4 true t u l route →
    ∃ v, exec (.amoFaddPeer d a p aq rl) s = .next v ∧ Issued s v .sy
      (if l.place.space = .sync then .sync l.place (.amo .amoFadd false (s.x d) 0)
       else .mem .amoFadd l.place 4 (natLE 4 (s.x d).toNat) 0) (s.me.dest d 4 true) va)

/-- R241–R245, R252: OBJINIT, PUSH, POP and POPW send their operation to the engine; an address that is no multiple of 32
is misaligned, a reserved descriptor is a sync-space fault. -/
def Sys2Proof.Claims.SynchronisationObjectsIssue : Prop :=
  (∀ s a b t u l route, (s.x a).toNat % 32 = 0 → (s.x a).toNat < 2 ^ 48 → s.me.sy < 16 →
    Reaches s accSync (s.x a).toNat 32 true t u l route →
    (t.objOk (s.x a).toNat l (s.x b).toNat = true → ∃ v, exec (.objinit a b) s = .next v ∧
      Issued s v .sy (.sync l.place (.objInit (s.x b))) .none (s.x a).toNat) ∧
    (t.objOk (s.x a).toNat l (s.x b).toNat = false → exec (.objinit a b) s = t.trapOut 0x06 (s.x a))) ∧
  (∀ s d a vec win t u l route, (s.x a).toNat % 32 = 0 → (s.x a).toNat < 2 ^ 48 → s.me.sy < 16 →
    (Reaches s accSync (s.x a).toNat 32 true t u l route →
      (∃ v, exec (.pop d a vec win) s = .next v ∧ Issued s v .sy (.pair .pop win.toNat l.place vec l.fifo 0)
        (if vec then .vec d.toNat 0 32 else s.me.dest d 8 false) (s.x a).toNat) ∧
      (∃ v, exec (.popw d a vec win) s = .next v ∧ Issued s v .sy (.pair .popw win.toNat l.place vec l.fifo 0)
        (if vec then .vec d.toNat 0 32 else s.me.dest d 8 false) (s.x a).toNat)) ∧
    (let value : Vec := if vec then s.me.readV d.toNat else (s.x d).setWidth 256
     Reaches s accSync (s.x a).toNat 32 false t u l route → l.place.space = .sync →
      (∀ g ∈ u.net, g.id < u.fresh) →
      ∃ v, exec (.push d a vec win) s = .next v ∧ v.me.pc = s.me.pc + 4 ∧ (∀ r, v.me.readX r = s.me.readX r) ∧
        ((∃ r ∈ v.reqs, r.target = .pair .push win.toNat l.place vec l.fifo value ∧ r.stage = .queued) ∨
         (∃ f ∈ v.net, ∃ id ret site, f.pkt.body = .pairReq id .push win.toNat l.place vec l.fifo value ret site) ∨
         (∃ q, v.myCore.pair = some q ∧ ∃ w ∈ q.waiting, ∃ id ret site,
           w.pkt.body = .pairReq id .push win.toNat l.place vec l.fifo value ret site)))) ∧
  (∀ s d a b vec win, (s.x a).toNat % 32 ≠ 0 →
    exec (.objinit a b) s = s.trapOut 0x02 (s.x a) ∧ exec (.push d a vec win) s = s.trapOut 0x02 (s.x a) ∧
    exec (.pop d a vec win) s = s.trapOut 0x02 (s.x a) ∧ exec (.popw d a vec win) s = s.trapOut 0x02 (s.x a))

/-- R276, R285, R297–R299, R301, R304: BARINIT, BARARR, BARWAIT, DECZ and PHASE; releases wait until the context's counts are 0.
A PHASE has issued when it first stalls: it then waits for the commands accepted before, and comes before a later PHASE of its
group. -/
def Sys2Proof.Claims.BarriersAndPhasesIssue : Prop :=
  (∀ s a b t u l route, (s.x a).toNat % 32 = 0 → (s.x a).toNat < 2 ^ 48 → s.me.sy < 16 →
    Reaches s accSync (s.x a).toNat 32 true t u l route →
    (1 ≤ (s.x b).toNat → (s.x b).toNat ≤ 1048575 → ∃ v, exec (.barinit a b) s = .next v ∧
      Issued s v .sy (.sync l.place (.barInit (s.x b).toNat)) .none (s.x a).toNat) ∧
    ((s.x b).toNat = 0 ∨ 1048575 < (s.x b).toNat → exec (.barinit a b) s = t.trapOut 0x06 (s.x a)) ∧
    (s.me.ld = 0 → s.me.st = 0 → s.me.sy = 0 → ∃ v, exec (.bararr a) s = .next v ∧
      Issued s v .sy (.sync l.place .barArr) (.barrier (s.x a).toNat) (s.x a).toNat) ∧
    (s.me.ld ≠ 0 ∨ s.me.st ≠ 0 ∨ s.me.sy ≠ 0 → exec (.bararr a) s = .next u) ∧
    (∀ d g, (∀ r ∈ s.reqs, ¬ ((∃ e, r.owner = .ctx s.focus.core s.focus.ctx e) ∧ r.dest = .barrier (s.x a).toNat)) →
      (g = none ∧ (∀ k, s.me.barrier ≠ some ((s.x a).toNat, k)) ∨ ∃ k, g = some k ∧ s.me.barrier = some ((s.x a).toNat, k)) →
      ∃ v, exec (.barwait d a) s = .next v ∧
        Issued s v .sy (.sync l.place (.barWait g)) (s.me.dest d 8 false) (s.x a).toNat)) ∧
  (∀ s a b va t u l route, (s.x a).toNat % 16 = 0 → (s.x a).toNat ≤ 0x7FF0 →
    peerAddress s (s.x a).toNat (s.x b).toNat = some va → Reaches s accDecz va 16 true t u l route →
    l.place.space = .scratch → s.me.ld = 0 → s.me.st = 0 → s.me.sy = 0 →
    ∃ v, exec (.decz a b) s = .next v ∧ Issued s v .sy (.mem .decz l.place 16 [] 0) .none va) ∧
  (∀ s mask g f r t, (¬ holdsGroup s g.toNat → exec (.phase mask g) s = s.trapOut 0x0C (w64 g.toNat)) ∧
    (let place := phasePlace (coreDie s.focus.core) g.toNat
     let ahead := (∃ k n m, k < 4 ∧ k ≠ s.focus.ctx ∧ (s.ctx s.focus.core k).phaseNow = some (n, g.toNat, m) ∧ n < s.phaseStamp) ∨
       ∃ e ∈ s.myCore.standing, e.group = g.toNat ∧ e.stamp < s.phaseStamp
     let free := g.toNat ∉ s.myCore.phases ∧ ¬ ahead ∧ s.me.ld = 0 ∧ s.me.st = 0 ∧ s.me.sy = 0 ∧
       ∀ y, mask.getLsbD (queueNo y) = true → s.myCore.before y s.phaseStamp = false ∧
         ∀ q ∈ s.reqs, ∀ n, q.owner = .engine s.focus.core y n → n < s.phaseStamp → q.pending = false
     (holdsGroup s g.toNat → free → s.reach s.focus.core (s.nearLoc place) true false true = .routed f r t →
      ∃ v, exec (.phase mask g) s = .next v ∧ g.toNat ∈ v.myCore.phases ∧
        SentFrom s v { (s.me.addCount .sy 1).next with phaseAt := none } ∧
        ∃ q ∈ v.reqs, q.target = .sync place (.phase g.toNat) ∧ q.owner = s.meOwner ∧
          q.cls = some .sy ∧ q.pc = s.me.pc ∧ q.holds = true) ∧
     (holdsGroup s g.toNat → ¬ free → s.me.phaseNow ≠ none → exec (.phase mask g) s = .next s) ∧
     (holdsGroup s g.toNat → ¬ free → s.me.phaseNow = none → ∃ v, exec (.phase mask g) s = .next v ∧
        v.me = { s.me with phaseAt := some (s.me.pc, s.fresh, g.toNat, mask) } ∧
        (∀ k, k ≠ 4 * s.focus.core + s.focus.ctx → v.ctxs.look k = s.ctxs.look k) ∧
        v = { s with ctxs := v.ctxs, fresh := s.fresh + 1 })))

/-- R224, R231, R233, R234: RTSET, whose record reads have returned, makes the entry of its key and keeps 64 at most, so that
the others stay while there are fewer, and the most recently used of them when there are not;
RTINV drops it, RTINV all drops every entry. -/
def Sys2Proof.Claims.RouteCacheInstructions : Prop :=
  (∀ s a b fwd ret f, (s.x b).toNat % 32 = 0 → s.readRecords (s.x b) 2 = .got [fwd, ret] s → fwd.route = some f →
    let good := (s.x a).toNat < 2 ^ 31 ∧ fwd.malformed = false ∧ ret.malformed = false ∧
      (s.x a).toNat = fwd.dmod * 2 ^ 21 + fwd.dsite ∧ (ret.route ≠ none → ret.dsite = s.myCore.site)
    (good → ∃ t, exec (.rtset a b) s = .next t ∧ t.me = { s.me.next with gather := none } ∧
      rcFind t.myCore.rcache (s.x a).toNat = some ⟨(s.x a).toNat, f, ret.route⟩ ∧ t.myCore.rcache.length ≤ 64 ∧
      (∀ k e, k ≠ (s.x a).toNat → rcFind t.myCore.rcache k = some e → rcFind s.myCore.rcache k = some e) ∧
      ((s.myCore.rcache.filter fun e => e.key != (s.x a).toNat).length < 64 → ∀ k, k ≠ (s.x a).toNat →
        rcFind t.myCore.rcache k = rcFind s.myCore.rcache k) ∧
      (∀ e ∈ ((s.myCore.rcache.filter fun e => e.key != (s.x a).toNat).take 63), e ∈ t.myCore.rcache) ∧
      t.myCore = { s.myCore with rcache := t.myCore.rcache } ∧ OnlyMyCore s t) ∧
    (¬ good → exec (.rtset a b) s = s.trapOut 0x09 (w64 (6 * 2 ^ 60 + s.moduleId * 2 ^ 21 + s.myCore.site)))) ∧
  (∀ s a, ∃ t, exec (.rtinv a) s = .next t ∧ t.me = s.me.next ∧ rcFind t.myCore.rcache (s.x a).toNat = none ∧
    (∀ k, k ≠ (s.x a).toNat → rcFind t.myCore.rcache k = rcFind s.myCore.rcache k) ∧
    t.myCore = { s.myCore with rcache := t.myCore.rcache } ∧ OnlyMyCore s t) ∧
  (∀ s, ∃ t, exec .rtinvAll s = .next t ∧ t.me = s.me.next ∧ t.myCore = { s.myCore with rcache := [] } ∧ OnlyMyCore s t)

/-- R224, R235, R236: RTBIND, whose record has been read, binds the slot once no message waits on it; the fence leaves on
the old route and raises the generation. -/
def Sys2Proof.Claims.RouteBinding : Prop :=
  ∀ s a b r, (s.x b).toNat % 32 = 0 → (s.x a).toNat ≤ 63 → s.readRecords (s.x b) 1 = .got [r] s →
    let n := (s.x a).toNat
    let old := s.myCore.slot n
    (r.malformed = true → exec (.rtbind a b) s = s.trapOut 0x09 (w64 (6 * 2 ^ 60 + s.moduleId * 2 ^ 21 + s.myCore.site))) ∧
    (r.malformed = false → (∀ m ∈ s.me.send, m.slot ≠ n) → (∀ m ∈ s.myCore.outq, m.slot ≠ n) →
      (∀ k, k < 4 → k ≠ s.focus.ctx → ∀ m ∈ (s.ctx s.focus.core k).send, m.slot ≠ n) →
      ∃ t, exec (.rtbind a b) s = .next t ∧ t.me = { s.me.next with gather := none } ∧
        (t.myCore.slot n).route = r.route ∧ (t.myCore.slot n).rch = r.rch ∧ (t.myCore.slot n).fmt = r.fmt ∧
        (t.myCore.slot n).round = old.round ∧
        (r.fence = false ∨ old.route = none → (t.myCore.slot n).gen = r.gen ∧ t.net = s.net) ∧
        (∀ o, r.fence = true → old.route = some o → (t.myCore.slot n).gen = (old.gen + 1) % 4 ∧
          (s.myCore.pair = none → (∀ g ∈ s.net, g.id < s.fresh) → ∃ f ∈ t.net, f.id = s.fresh ∧ f.pkt.hdr.kind = .fence ∧ f.pkt.hdr.gen = old.gen ∧
            f.pkt.hdr.runs = o.runs ∧ f.pkt.hdr.rch = old.rch)) ∧
        (∀ k, k ≠ n → t.myCore.slot k = s.myCore.slot k))

/-! ## Vector instructions -/

/-- R127, R128, R130: addition, subtraction and multiplication of elements. -/
def Sys2Proof.Claims.VectorArithmeticResults : Prop :=
  LaneResult .vadd (fun _ => true) (fun m et x y _ =>
    fpOr et (fun f => f.add m x y) (sextNat x et.width + sextNat y et.width)) ∧
  LaneResult .vsub (fun _ => true) (fun m et x y _ =>
    fpOr et (fun f => f.sub m x y) (sextNat x et.width - sextNat y et.width)) ∧
  LaneResult .vmul (fun _ => true) (fun m et x y _ =>
    fpOr et (fun f => f.mul m x y) (sextNat x et.width * sextNat y et.width)) ∧
  LaneResult .vmin (fun _ => true) (fun _ et x y _ =>
    fpOr et (fun f => f.minmax false x y) (min (sextNat x et.width) (sextNat y et.width))) ∧
  LaneResult .vmax (fun _ => true) (fun _ et x y _ =>
    fpOr et (fun f => f.minmax true x y) (max (sextNat x et.width) (sextNat y et.width)))

/-- R130: the bitwise forms and the shifts, of integer elements only. -/
def Sys2Proof.Claims.VectorBitwiseAndShiftResults : Prop :=
  LaneResult .vand (fun et => !et.isFp) (fun _ _ x y _ => quiet (x &&& y)) ∧
  LaneResult .vor (fun et => !et.isFp) (fun _ _ x y _ => quiet (x ||| y)) ∧
  LaneResult .vxor (fun et => !et.isFp) (fun _ _ x y _ => quiet (x ^^^ y)) ∧
  LaneResult .vshl (fun et => !et.isFp) (fun _ et x n _ => quiet (if et.width ≤ n then 0 else x * 2 ^ n)) ∧
  LaneResult .vshr (fun et => !et.isFp) (fun _ et x n _ => quiet (if et.width ≤ n then 0 else x / 2 ^ n)) ∧
  LaneResult .vsra (fun et => !et.isFp) (fun _ et x n _ =>
    quiet ((sextNat x et.width / 2 ^ (min n et.width)) % (2 : Int) ^ et.width).toNat)

/-- R118, R132: the fused forms round a · b + c, a · b − c and c − a · b once, of floating-point elements only. -/
def Sys2Proof.Claims.VectorFusedResults : Prop :=
  LaneResult .vfma (fun et => et.isFp) (fun m et x y c => fpOr et (fun f => f.fma m false false x y c) 0) ∧
  LaneResult .vfms (fun et => et.isFp) (fun m et x y c => fpOr et (fun f => f.fma m false true x y c) 0) ∧
  LaneResult .vfnma (fun et => et.isFp) (fun m et x y c => fpOr et (fun f => f.fma m true false x y c) 0)

/-- R135, R136: the unary instructions. -/
def Sys2Proof.Claims.VectorUnaryResults : Prop :=
  LaneResult1 .vabs (fun _ => true) (fun _ et x => fpOr et (fun f => f.absneg false x) (sextNat x et.width).natAbs) ∧
  LaneResult1 .vneg (fun _ => true) (fun _ et x => fpOr et (fun f => f.absneg true x) (-sextNat x et.width)) ∧
  LaneResult1 .vrcp (fun et => et.isFp) (fun m et x => fpOr et (fun f => f.rcp m x) 0) ∧
  LaneResult1 .vsqrt (fun et => et.isFp) (fun m et x => fpOr et (fun f => f.sqrt m x) 0) ∧
  LaneResult1 .vrsq (fun et => et.isFp && et != .f64) (fun _ et x => fpOr et (fun f => f.rsq x) 0) ∧
  LaneResult1 .vexp2 (fun et => et.isFp && et != .f64) (fun _ et x => fpOr et (fun f => f.exp2 x) 0) ∧
  LaneResult1 .vclz (fun et => !et.isFp) (fun _ et x => quiet (if x = 0 then et.width else et.width - 1 - Nat.log2 x)) ∧
  LaneResult1 .vpopc (fun et => !et.isFp) (fun _ et x => quiet ((List.range et.width).filter x.testBit).length)

/-- R133: VCMP writes one bit for each active element that compares so, and 0 elsewhere. -/
def Sys2Proof.Claims.VectorCompareResults : Prop :=
  ∀ s c et kd a b k, ∃ t, exec (.vcmp c et kd a b k) s = .next t ∧
    (let x := fun j => lane (s.me.readV a.toNat) et.width j
     let y := fun j => lane (s.me.readV b.toNat) et.width j
     let int : Nat → Bool := fun j =>
       let p := sextNat (x j) et.width
       let q := sextNat (y j) et.width
       if c = .eq then decide (p = q) else if c = .ne then decide (p ≠ q)
       else if c = .lt then decide (p < q) else decide (p ≤ q)
     (etFmt et = none → WritesK s t kd (fun j => decide (j < et.nelem) && active s k j && int j) ∧
       t.me.vflags = s.me.vflags) ∧
     (∀ f, etFmt et = some f →
       WritesK s t kd (fun j => decide (j < et.nelem) && active s k j && (f.compare c (x j) (y j)).1) ∧
       ∀ i, i < 64 → (t.me.vflags.getLsbD i = true ↔ s.me.vflags.getLsbD i = true ∨
         ∃ j, j < et.nelem ∧ active s k j = true ∧ (f.compare c (x j) (y j)).2.testBit i = true)) ∧
     t.me = { s.me with pc := t.me.pc, k := t.me.k, vflags := t.me.vflags })

/-- R137: the reductions follow the fixed pairwise tree. An element that meets no partner passes it with no flag, a signalling NaN
too: that is the model's choice (log entry 88). -/
def Sys2Proof.Claims.VectorReductionResults : Prop :=
  ReduceResult .vredAdd (fun m et x y => fpOr et (fun f => f.add m x y) (sextNat x et.width + sextNat y et.width))
    (fun _ => 0) ∧
  ReduceResult .vredMin (fun _ et x y => fpOr et (fun f => f.minmax false x y) (min (sextNat x et.width) (sextNat y et.width)))
    (fun et => match etFmt et with
      | some f => f.infCode
      | none => 2 ^ (et.width - 1) - 1) ∧
  ReduceResult .vredMax (fun _ et x y => fpOr et (fun f => f.minmax true x y) (max (sextNat x et.width) (sextNat y et.width)))
    (fun et => match etFmt et with
      | some f => 2 ^ (et.width - 1) + f.infCode
      | none => 2 ^ (et.width - 1))

/-- R137: a reduction of integers by addition is the wrapped sum of the active elements, whatever the tree. -/
def Sys2Proof.Claims.IntegerReductionIsTheSum : Prop :=
  ∀ s et d a k t, et.isFp = false → exec (.vredAdd et d a k) s = .next t →
    lane (t.me.readV d.toNat) et.width 0 =
      (((List.range et.nelem).filter (active s k)).map fun j => lane (s.me.readV a.toNat) et.width j).sum % 2 ^ et.width

/-- R138, R139: the dot products and the FP64 outer product. That a sum with a quiet NaN beside infinities of opposite sign sets no NV is
the model's choice (log entry 89). -/
def Sys2Proof.Claims.VectorProductResults : Prop :=
  (∀ s d a b k, let va := s.me.readV a.toNat
    let vb := s.me.readV b.toNat
    let vd := s.me.readV d.toNat
    let m := RMode.of s.me.vrm
    let int : Nat → Nat → FRes := fun w j => quiet
      ((slane vd 32 j + ((List.range (32 / w)).map fun t => slane va w (32 / w * j + t) * slane vb w (32 / w * j + t)).sum)
        % (2 : Int) ^ 32).toNat
    (∃ t, exec (.vdot .i8 d a b k) s = .next t ∧ WritesLanes s t d 32 8 (active s k) (int 8)) ∧
    (∃ t, exec (.vdot .i16 d a b k) s = .next t ∧ WritesLanes s t d 32 8 (active s k) (int 16)) ∧
    (∃ t, exec (.vdot .f16 d a b k) s = .next t ∧
      WritesLanes s t d 32 8 (active s k) (fun j => dotFp m fmtF16 16 j vd va vb)) ∧
    (∃ t, exec (.vdot .bf16 d a b k) s = .next t ∧
      WritesLanes s t d 32 8 (active s k) (fun j => dotFp m fmtBF16 16 j vd va vb)) ∧
    (∀ et, et = .f32 ∨ et = .f64 ∨ et = .i32 ∨ et = .i64 →
      exec (.vdot et d a b k) s = s.trapOut 0x01 (wordOf (.vdot et d a b k)))) ∧
  (∀ s (d a b : Reg),
    let res : Nat → Nat → FRes := fun i j =>
      (fmtF64.fma (RMode.of s.me.vrm) false false (lane (s.me.readV a.toNat) 64 i)
        (lane (s.me.readV b.toNat) 64 j) (lane (s.me.readV (d.toNat + i)) 64 j))
    (d.toNat % 4 ≠ 0 → exec (.vmma64 d a b) s = s.trapOut 0x01 (wordOf (.vmma64 d a b))) ∧
    (d.toNat % 4 = 0 → ∃ t, exec (.vmma64 d a b) s = .next t ∧
      (∀ i j, i < 4 → j < 4 → lane (t.me.readV (d.toNat + i)) 64 j = (res i j).code % 2 ^ 64) ∧
      (∀ b', b' < 64 → (t.me.vflags.getLsbD b' = true ↔ s.me.vflags.getLsbD b' = true ∨
        ∃ i j, i < 4 ∧ j < 4 ∧ (res i j).flags.testBit b' = true)) ∧
      (∀ r, r < d.toNat ∨ d.toNat + 4 ≤ r → t.me.readV r = s.me.readV r) ∧
      t.me = { s.me with pc := s.me.pc + 4, v := t.me.v, vflags := t.me.vflags } ∧ OnlyMe s t))

/-- R48, R117, R140: conversions; the elements past the converted ones become 0. -/
def Sys2Proof.Claims.VectorConversionResults : Prop :=
  ∀ s et d a (code : BitVec 4) k,
    let conv (src dst : NumFmt) (t : State) : Prop :=
      WritesLanes s t d dst.width dst.count (fun j => decide (min src.count dst.count ≤ j) || active s k j)
        (fun j => if min src.count dst.count ≤ j then quiet 0
          else dst.round (RMode.of s.me.vrm) (src.value (lane (s.me.readV a.toNat) src.width j)))
    (code.toNat < 13 → code.toNat ≠ et.code.toNat → ∃ t, exec (.vcvtTo et d a code k) s = .next t ∧
      conv (etNum et) (cvtFmt code.toNat) t) ∧
    (13 ≤ code.toNat ∨ code.toNat = et.code.toNat →
      exec (.vcvtTo et d a code k) s = s.trapOut 0x01 (wordOf (.vcvtTo et d a code k))) ∧
    (8 ≤ code.toNat → code.toNat < 13 → ∃ t, exec (.vcvtFrom et d a code k) s = .next t ∧
      conv (cvtFmt code.toNat) (etNum et) t) ∧
    (13 ≤ code.toNat ∨ code.toNat < 8 →
      exec (.vcvtFrom et d a code k) s = s.trapOut 0x01 (wordOf (.vcvtFrom et d a code k)))

/-- R141, R142: VPACK saturates to half the width, VUNPK sign-extends one half. -/
def Sys2Proof.Claims.VectorPackResults : Prop :=
  (∀ s et d a b k, let w := et.width
    let v : Nat → Int := fun j => if j < et.nelem then slane (s.me.readV a.toNat) w j
      else slane (s.me.readV b.toNat) w (j - et.nelem)
    (et = .i64 ∨ et = .i32 ∨ et = .i16 → ∃ t, exec (.vpack et d a b k) s = .next t ∧
      WritesLanes s t d (w / 2) (2 * et.nelem) (active s k) (fun j =>
        quiet (max (-(2 : Int) ^ (w / 2 - 1)) (min (v j) ((2 : Int) ^ (w / 2 - 1) - 1)) % (2 : Int) ^ (w / 2)).toNat)) ∧
    (et.isFp = true ∨ et = .i8 → exec (.vpack et d a b k) s = s.trapOut 0x01 (wordOf (.vpack et d a b k)))) ∧
  (∀ s et d a hi k, let w := et.width
    (et = .i32 ∨ et = .i16 ∨ et = .i8 → ∃ t, exec (.vunpk et d a hi k) s = .next t ∧
      WritesLanes s t d (2 * w) (et.nelem / 2) (active s k) (fun j =>
        quiet (slane (s.me.readV a.toNat) w (j + if hi then et.nelem / 2 else 0) % (2 : Int) ^ (2 * w)).toNat)) ∧
    (et.isFp = true ∨ et = .i64 → exec (.vunpk et d a hi k) s = s.trapOut 0x01 (wordOf (.vunpk et d a hi k))))

/-- R129, R134, R143–R145: the moves copy bit patterns and raise no flag. -/
def Sys2Proof.Claims.VectorMoveResults : Prop :=
  ∀ s et d a k, let w := et.width
    let va := s.me.readV a.toNat
    (∀ b, ∃ t, exec (.vperm et d a b k) s = .next t ∧ WritesLanes s t d w et.nelem (active s k)
      (fun j => quiet (lane va w (lane (s.me.readV b.toNat) w j % et.nelem)))) ∧
    (∃ t, exec (.vbcast et d a k) s = .next t ∧
      WritesLanes s t d w et.nelem (active s k) (fun _ => quiet (s.x a).toNat)) ∧
    (∀ b, (k ≠ 0#3 → ∃ t, exec (.vsel et d a b k) s = .next t ∧ WritesLanes s t d w et.nelem (fun _ => true)
        (fun j => quiet (if active s k j then lane va w j else lane (s.me.readV b.toNat) w j))) ∧
      (k = 0#3 → exec (.vsel et d a b k) s = s.trapOut 0x01 (wordOf (.vsel et d a b k)))) ∧
    (∀ n : BitVec 5,
      (n.toNat < et.nelem → (∃ t, exec (.vins et d a n) s = .next t ∧
          WritesLanes s t d w et.nelem (fun j => j == n.toNat) (fun _ => quiet (s.x a).toNat)) ∧
        ∃ t, exec (.vext et d a n) s = .next t ∧ WritesX s t d
          (if et.isFp then w64 (lane va w n.toNat) else BitVec.ofInt 64 (slane va w n.toNat))) ∧
      (et.nelem ≤ n.toNat → exec (.vins et d a n) s = s.trapOut 0x01 (wordOf (.vins et d a n)) ∧
        exec (.vext et d a n) s = s.trapOut 0x01 (wordOf (.vext et d a n))))

/-- R127, R151: the mask instructions; k0 reads as all ones. -/
def Sys2Proof.Claims.MaskInstructionResults : Prop :=
  ∀ s kd ka,
    (∀ kb, (∃ t, exec (.kand kd ka kb) s = .next t ∧ WritesK s t kd (fun j => active s ka j && active s kb j)) ∧
      (∃ t, exec (.kor kd ka kb) s = .next t ∧ WritesK s t kd (fun j => active s ka j || active s kb j)) ∧
      (∃ t, exec (.kxor kd ka kb) s = .next t ∧ WritesK s t kd (fun j => active s ka j != active s kb j))) ∧
    (∃ t, exec (.knot kd ka) s = .next t ∧ WritesK s t kd (fun j => !active s ka j)) ∧
    (∃ t, exec (.kmovKK kd ka) s = .next t ∧ WritesK s t kd (active s ka)) ∧
    (∀ a, ∃ t, exec (.kmovKX kd a) s = .next t ∧ WritesK s t kd (fun j => (s.x a).getLsbD j)) ∧
    (∀ d v, (∀ j, j < 64 → v.getLsbD j = (decide (j < 32) && active s ka j)) →
      ∃ t, exec (.kmovXK d ka) s = .next t ∧ WritesX s t d v)

/-- R113, R117, R119: a finite value of a format, rounded to that format in any mode, is itself, and no flag is raised. -/
def Sys2Proof.Claims.RoundingKeepsRepresentableValues : Prop :=
  ∀ f mode code, f ∈ [fmtF64, fmtF32, fmtF16, fmtBF16, fmtE5M2, fmtE4M3, fmtE3M2, fmtE2M3, fmtE2M1] →
    code < 2 ^ f.width → ∀ neg m e, f.value code = .fin neg m e → f.round mode (.fin neg m e) = ⟨code, 0⟩

/-- R146, R147, R150: VLD and VST. -/
def Sys2Proof.Claims.VectorBlockAccesses : Prop :=
  ∀ s et d a (imm : BitVec 5) k, s.me.checks = none → let ea := s.x a + BitVec.ofInt 64 (32 * imm.toInt)
    let act := (List.range et.nelem).filter (active s k)
    let n := et.width / 8
    (act = [] → (∃ t, exec (.vld et d a imm k) s = .next t ∧ Jumps s t (s.me.pc + 4)) ∧
      ∃ t, exec (.vst et d a imm k) s = .next t ∧ Jumps s t (s.me.pc + 4)) ∧
    (act ≠ [] → ea.toNat % 32 ≠ 0 → exec (.vld et d a imm k) s = s.trapOut 0x02 ea ∧
      exec (.vst et d a imm k) s = s.trapOut 0x02 ea) ∧
    (act ≠ [] → ea.toNat % 32 = 0 → ea.toNat < 2 ^ 48 → ¬ (0x8000 ≤ ea.toNat ∧ ea.toNat < 0x8100) → ∀ t u l route,
      let part : Nat → ElemAcc := fun i =>
        ⟨i, ea.toNat + n * i, { l with place := { l.place with off := l.place.off + n * i } }, route⟩
      let whole : ElemAcc := ⟨0, ea.toNat + n * act.headD 0, l, route⟩
      let own := l.place.space = .scratch ∧ l.place.owner = s.myCore.site
      (s.me.ld < 16 → Reaches s accLoad ea.toNat 32 true t u l route →
        ∃ v, exec (.vld et d a imm k) s = .next v ∧
          (own → PartsIssued s v .ld 1 true [whole] (fun e => .mem .load e.loc.place 32 [] 0)
            (fun _ => .block d.toNat (byteMask n act))) ∧
          (¬ own → PartsIssued s v .ld 1 true (act.map part) (fun e => .mem .load e.loc.place n [] 0)
            (fun e => .vec d.toNat (n * e.i) n))) ∧
      (s.me.st < 32 → Reaches s accStore ea.toNat 32 false t u l route →
        ∃ v, exec (.vst et d a imm k) s = .next v ∧
          (own → PartsIssued s v .st 1 true [whole]
            (fun e => .mem .store e.loc.place 32 (natLE 32 (s.me.readV d.toNat).toNat) (w64 (byteMask n act)))
            (fun _ => .none)) ∧
          (¬ own → PartsIssued s v .st 1 true (act.map part)
            (fun e => .mem .store e.loc.place n (natLE n (lane (s.me.readV d.toNat) et.width e.i)) 0xFFFFFFFF)
            (fun _ => .none))))

/-- R146, R148–R150: the strided and indexed accesses: one load, or one store for each active element. -/
def Sys2Proof.Claims.VectorElementAccesses : Prop :=
  ∀ s et d a b k, s.me.checks = none → let act := (List.range et.nelem).filter (active s k)
    let n := et.width / 8
    let strided : List (Nat × Word) := act.map fun i => (i, s.x a + BitVec.ofInt 64 (i * (s.x b).toInt))
    let indexed : List (Nat × Word) := act.map fun i => (i, s.x a + BitVec.ofInt 64 (slane (s.me.readV b.toNat) et.width i))
    let loads (i : Instr) (addrs : List (Nat × Word)) : Prop :=
      (act = [] → ∃ t, exec i s = .next t ∧ Jumps s t (s.me.pc + 4)) ∧
      (act ≠ [] → s.me.ld < 16 → ∀ t l, s.checkElems accLoad n true addrs = .ok t l →
        ∃ v, exec i s = .next v ∧ PartsIssued s v .ld 1 true l (fun e => .mem .load e.loc.place n [] 0)
          (fun e => .vec d.toNat (n * e.i) n))
    let stores (i : Instr) (addrs : List (Nat × Word)) : Prop :=
      (act = [] → ∃ t, exec i s = .next t ∧ Jumps s t (s.me.pc + 4)) ∧
      (act ≠ [] → s.me.st + act.length ≤ 32 → ∀ t l, s.checkElems accStore n false addrs = .ok t l →
        ∃ v, exec i s = .next v ∧ PartsIssued s v .st act.length false l
          (fun e => .mem .store e.loc.place n (natLE n (lane (s.me.readV d.toNat) et.width e.i)) 0xFFFFFFFF)
          (fun _ => .none)) ∧
      (act ≠ [] → 32 < s.me.st + act.length → exec i s = .next s)
    loads (.vlds et d a b k) strided ∧ stores (.vsts et d a b k) strided ∧
    (32 ≤ et.width → loads (.vldx et d a b k) indexed ∧ stores (.vstx et d a b k) indexed) ∧
    (et.width < 32 → exec (.vldx et d a b k) s = s.trapOut 0x01 (wordOf (.vldx et d a b k)) ∧
      exec (.vstx et d a b k) s = s.trapOut 0x01 (wordOf (.vstx et d a b k)))

/-! ## Tile commands -/

/-- R108, R158, R178, R179: an engine fault poisons its queue, discards every command the queue holds, takes the QERR
record unless it holds one, and logs ENGINE_FAULT. -/
def Sys2Proof.Claims.EngineFaultPoisonsItsQueue : Prop :=
  ∀ (s : State) core q (w : Vec) reason addr, let t := s.engineFault core q w reason addr
    let rec' := w64 (2 ^ 63 + reason % 16 * 2 ^ 56 + w.toNat % 256 * 2 ^ 48 + addr % 2 ^ 48)
    let take : Word → Word := fun old => if old.getLsbD 63 then old else rec'
    (t.core core).qstat = (s.core core).qstat ||| 1#64 <<< (queueNo q) ∧
    (t.core core).cmds.at (queueNo q) [] = [] ∧ (t.core core).job q = none ∧
    (t.core core).qerrm = (if q = .mxq then take (s.core core).qerrm else (s.core core).qerrm) ∧
    (t.core core).qerrc0 = (if q = .cpq0 then take (s.core core).qerrc0 else (s.core core).qerrc0) ∧
    (t.core core).qerrc1 = (if q = .cpq1 then take (s.core core).qerrc1 else (s.core core).qerrc1) ∧
    (t.core core).mx = (s.core core).mx - (if q = .mxq then (s.core core).queued q else 0) ∧
    (t.core core).cp = (s.core core).cp - (if q = .mxq then 0 else (s.core core).queued q) ∧
    (∀ y, y ≠ q → (t.core core).job y = (s.core core).job y ∧
      (t.core core).cmds.at (queueNo y) [] = (s.core core).cmds.at (queueNo y) []) ∧
    (t.die (siteDie (s.core core).site)).seq = (s.die (siteDie (s.core core).site)).seq + 1 ∧
    t.ctxs = s.ctxs ∧ ∀ n, n ≠ core → t.cores.look n = s.cores.look n

/-- R166, R175: QNOP, MXZERO, MXCFG and MXSWAP take effect as they start and access nothing. -/
def Sys2Proof.Claims.StateCommandResults : Prop :=
  ∀ s h rest, MayStart s h rest →
    (∃ t, exec .qnop s = .next t ∧ CommandStarted s t h rest .qnop .blank none true ∧
      t.myCore = { s.myCore with cmds := t.myCore.cmds, jobs := t.myCore.jobs }) ∧
    (∀ bank w, ∃ t, exec (.mxzero bank w) s = .next t ∧ CommandStarted s t h rest (.mxzero bank w) .blank none true ∧
      (∀ k, (t.myCore.bank bank).acc.at k 0 = 0) ∧ (t.myCore.bank bank).base = w.toInt ∧
      t.myCore.bank (!bank) = s.myCore.bank (!bank) ∧
      t.myCore = { s.myCore with cmds := t.myCore.cmds, jobs := t.myCore.jobs, ac0 := t.myCore.ac0, ac1 := t.myCore.ac1 }) ∧
    (∀ op1 op2, ∃ t, exec (.mxcfg op1 op2) s = .next t ∧ CommandStarted s t h rest (.mxcfg op1 op2) .blank none true ∧
      t.myCore.latch = ⟨op1.toNat % 2 ^ 24, op1.toNat / 2 ^ 24, op2.toNat % 2 ^ 8, op2.toNat / 2 ^ 24 % 2 ^ 8⟩ ∧
      t.myCore = { s.myCore with cmds := t.myCore.cmds, jobs := t.myCore.jobs, latch := t.myCore.latch }) ∧
    (∃ t, exec .mxswap s = .next t ∧ CommandStarted s t h rest .mxswap .blank none true ∧
      t.myCore.mb0 = s.myCore.mb1 ∧ t.myCore.mb1 = s.myCore.mb0 ∧
      t.myCore = { s.myCore with cmds := t.myCore.cmds, jobs := t.myCore.jobs, mb0 := t.myCore.mb0, mb1 := t.myCore.mb1 })

/-- R109, R175, R177: QFENCE waits for the earlier commands of the queues it joins, QWAIT for its condition. -/
def Sys2Proof.Claims.WaitingCommandResults : Prop :=
  (∀ s mask j, Doing s (.qfence mask) j →
    let joins : EngineQ → Prop := fun y => mask.getLsbD (queueNo y) = true ∧ y ≠ s.focus.queue
    ((∃ y, joins y ∧ s.myCore.isPoisoned y = true) →
      exec (.qfence mask) s = .next (s.cmdFault j.cmd.word 12 0)) ∧
    ((∀ y, joins y → s.myCore.isPoisoned y = false) →
      ((∃ y, joins y ∧ s.myCore.before y j.cmd.stamp = true) → exec (.qfence mask) s = .next s) ∧
      ((∀ y, joins y → s.myCore.before y j.cmd.stamp = false) →
        ∃ t, exec (.qfence mask) s = .next t ∧ CommandDone s t j))) ∧
  (∀ s eq (addr : VAddr) (v : BitVec 32) j, Doing s (.qwait eq addr v) j → j.polled = none → s.reading j = false →
    (j.buf = [] → s.myTurn = true → ∀ u l route, s.engLoc j accLoad false true 8 addr.toNat = .ok u l route →
      addr.toNat % 8 = 0 →
      ∃ t, exec (.qwait eq addr v) s = .next t ∧ EngineAccess s t j addr.toNat (.mem .load l.place 8 [] 0)) ∧
    (j.buf.length = 8 →
      (if eq then leNat j.buf = v.toNat else v.toNat ≤ leNat j.buf) →
        ∃ t, exec (.qwait eq addr v) s = .next t ∧ CommandDone s t j) ∧
    (j.buf.length = 8 →
      ¬ (if eq then leNat j.buf = v.toNat else v.toNat ≤ leNat j.buf) →
        ∃ t, exec (.qwait eq addr v) s = .next t ∧ t.myJob = some { j with buf := [], polled := some s.now } ∧
          OnlyCore s t s.focus.core)) ∧
  (∀ s core q j eq (addr : VAddr) (v : BitVec 32) at', (s.core core).job q = some j → j.polled = some at' →
    j.instr = .qwait eq addr v →
    (s.now < at' + 16 → exec (.qwaitPoll core q) s = .next s) ∧
    (at' + 16 ≤ s.now → ((s.aim core q).setMyJob { j with polled := none }).myTurn = true → ∀ u l route,
      ((s.aim core q).setMyJob { j with polled := none }).engLoc { j with polled := none } accLoad false true 8 addr.toNat =
        .ok u l route → addr.toNat % 8 = 0 →
      ∃ t, exec (.qwaitPoll core q) s = .next t ∧ (t.core core).job q = some { j with polled := none } ∧
        EngineAccess (s.aim core q) t j addr.toNat (.mem .load l.place 8 [] 0)))

/-- R108, R110, R160, R178, R280: starts. A command waits for the own-scratchpad stores issued before it was accepted; one with
a wrong alignment, format or loop record faults; else it is the engine's job. -/
def Sys2Proof.Claims.CommandStarts : Prop :=
  (∀ s h rest i, AtHead s h rest → s.ownStoreBefore s.focus.core h.stamp = true → i.wf = true →
    decodeCommand s.focus.queue h.word = .ok i → exec i s = .next s) ∧
  ∀ s h rest, MayStart s h rest →
    (∀ mask, ∃ t, exec (.qfence mask) s = .next t ∧ CommandStarted s t h rest (.qfence mask) .blank none false) ∧
    (∀ i n (addr : VAddr), (∃ eq v, i = .qwait eq addr v ∧ n = 8) ∨ (∃ v, i = .qsignalAdd addr v ∧ n = 8) ∨
        (i = .qsignalDecz addr ∧ n = 16) ∨ (i = .qsignalBararr addr ∧ n = 32) ∨
        (∃ src dst, (i = .cpyg src dst addr ∨ i = .cpys src dst addr) ∧ n = 8) →
      (addr.toNat % n = 0 → ∃ t, exec i s = .next t ∧ CommandStarted s t h rest i .blank none false) ∧
      (addr.toNat % n ≠ 0 → exec i s = .next (s.cmdFault h.word 7 addr.toNat))) ∧
    (∀ i, (∃ src dst count, i = .cpy 0xFF#8 src dst count) ∨ (∃ dst count pat, i = .cpyfill 0xFF#8 dst count pat) ∨
        (∃ bank ty a, i = .mxout bank ty 0xFF#8 a) →
      ∃ t, exec i s = .next t ∧ CommandStarted s t h rest i .blank none false) ∧
    (∀ i (loop : BitVec 8) fmt, ((∃ src dst count, i = .cpy loop src dst count) ∧ fmt = 0) ∨
        ((∃ dst count pat, i = .cpyfill loop dst count pat) ∧ fmt = 0) ∨
        (∃ bank ty a, i = .mxout bank ty loop a ∧ fmt = outTag ty) →
      (∀ r, s.loopAt s.focus.core loop fmt = .some r →
        ∃ t, exec i s = .next t ∧ CommandStarted s t h rest i .blank (some r) false) ∧
      (∀ reason addr, s.loopAt s.focus.core loop fmt = .bad reason addr →
        exec i s = .next (s.cmdFault h.word reason addr)))

/-- R171, R172, R174: CPY moves each tuple's run, CPYFILL writes its pattern; both end after the last tuple. That an engine waits
for the one read it has outstanding is log entry 34. -/
def Sys2Proof.Claims.CopyCommandSteps : Prop :=
  (∀ s loop src dst count j, let i : Instr := .cpy loop src dst count
    Doing s i j →
    (j.cursor < j.tuples → MovesRun i s j ((src.toNat : Int) + j.off j.cursor) ((dst.toNat + j.cursor * count.toNat : Nat) : Int)
      count.toNat { j with cursor := j.cursor + 1, pos := 0 }) ∧
    (j.tuples ≤ j.cursor → ∃ t, exec i s = .next t ∧ CommandDone s t j)) ∧
  (∀ s loop dst count pat j, let i : Instr := .cpyfill loop dst count pat
    let va : Int := (dst.toNat : Int) + j.off j.cursor + j.pos
    Doing s i j →
    (j.cursor < j.tuples → j.pos < count.toNat → s.myTurn = true → ∀ u l route,
      s.engLoc j accStore true false (min (count.toNat - j.pos) 32) va = .ok u l route →
      ∃ t n bs, exec i s = .next t ∧ 0 < n ∧ n ≤ count.toNat - j.pos ∧ t.myJob = some { j with pos := j.pos + n } ∧
        EngineAccess s t j va.toNat (.mem .store l.place n bs 0xFFFFFFFF) ∧ bs.length = n ∧
        ∀ k, k < n → bs.getD k 0 = pat.extractLsb' (8 * ((j.pos + k) % 4)) 8) ∧
    (j.cursor < j.tuples → count.toNat ≤ j.pos →
      ∃ t, exec i s = .next t ∧ t.myJob = some { j with cursor := j.cursor + 1, pos := 0 } ∧ OnlyCore s t s.focus.core) ∧
    (j.tuples ≤ j.cursor → ∃ t, exec i s = .next t ∧ CommandDone s t j))

/-- R6, R173: CPYG and CPYS read the list's header, whose reserved bits they ignore, and each index, and move one element for
each, one read at a time (log entry 34). -/
def Sys2Proof.Claims.IndexedCopyCommandSteps : Prop :=
  ∀ s src dst idx j, ∀ i, i = Instr.cpyg src dst idx ∨ i = Instr.cpys src dst idx → Doing s i j →
    (j.hdr = none →
      (j.buf = [] → s.reading j = false → s.myTurn = true → ∀ u l route,
        s.engLoc j accLoad false true 8 idx.toNat = .ok u l route →
        idx.toNat % 8 = 0 →
        ∃ t, exec i s = .next t ∧ EngineAccess s t j idx.toNat (.mem .load l.place 8 [] 0)) ∧
      (j.buf.length = 8 → let n := leNat j.buf % 2 ^ 32
        let z := leNat j.buf / 2 ^ 32 % 8
        (1 ≤ n ∧ n ≤ 65536 ∧ z ≤ 5 → ∃ t, exec i s = .next t ∧ OnlyCore s t s.focus.core ∧
          t.myJob = some { j with hdr := some (n, [1, 2, 4, 8, 32, 64].getD z 0), buf := [] }) ∧
        (¬ (1 ≤ n ∧ n ≤ 65536 ∧ z ≤ 5) → exec i s = .next (s.cmdFault j.cmd.word 3 0)))) ∧
    (∀ n z, j.hdr = some (n, z) →
      (n ≤ j.cursor → ∃ t, exec i s = .next t ∧ CommandDone s t j) ∧
      (j.cursor < n → j.idx = none →
        (j.buf.length = 4 → ∃ t, exec i s = .next t ∧ OnlyCore s t s.focus.core ∧
          t.myJob = some { j with idx := some (sextNat (leNat j.buf) 32), buf := [] }) ∧
        (j.buf = [] → s.reading j = false → s.myTurn = true → ∀ u l route, idx.toNat % 8 = 0 →
          s.engLoc j accLoad false true 4 ((idx.toNat + 8 + 4 * j.cursor : Nat) : Int) = .ok u l route →
          ∃ t, exec i s = .next t ∧
            EngineAccess s t j (idx.toNat + 8 + 4 * j.cursor) (.mem .load l.place 4 [] 0))) ∧
      (∀ x, j.cursor < n → j.idx = some x →
        (i = .cpyg src dst idx → MovesRun i s j (src.toNat + x * z) (dst.toNat + j.cursor * z : Nat) z
          { j with cursor := j.cursor + 1, pos := 0, idx := none }) ∧
        (i = .cpys src dst idx → MovesRun i s j (src.toNat + j.cursor * z : Nat) (dst.toNat + x * z) z
          { j with cursor := j.cursor + 1, pos := 0, idx := none })))

/-- R101, R159, R161, R162, R167, R168: MXLOADA and MXLOADB: the target is invalid from the start until every row or column, and
the scale bytes a form takes from memory, have been read. A loop record is sampled at the start. They read one unit at a time (log
entry 34); that the columns of MXLOADB beyond a short sequence use it again is log entry 91. -/
def Sys2Proof.Claims.MatrixLoadResults : Prop :=
  (∀ s h rest sel a sc, MayStart s h rest → let i : Instr := .mxloada sel 0xFF#8 a sc
    let cfg := s.sampled sel
    let fmt := cfg.fmta % 2 ^ 8
    let klen := cfg.fmta / 2 ^ 8 % 32
    let rows := cfg.fmta / 2 ^ 16 % 32
    let legal := fmt ∈ [0x16, 0x18, 0x1A, 0x1B, 0x1C, 0x1D] ∧ 1 ≤ klen ∧ klen ≤ 24 ∧ 1 ≤ rows ∧ rows ≤ 16
    (legal → ∃ t, exec i s = .next t ∧ CommandStarted s t h rest i cfg none false ∧ t.myCore.abuf.valid = false) ∧
    (∀ loop : BitVec 8, let i' : Instr := .mxloada sel loop a sc
      (legal → ∀ r, s.loopAt s.focus.core loop fmt = .some r →
        ∃ t, exec i' s = .next t ∧ CommandStarted s t h rest i' cfg (some r) false ∧ t.myCore.abuf.valid = false) ∧
      (legal → ∀ reason addr, s.loopAt s.focus.core loop fmt = .bad reason addr →
        exec i' s = .next (s.cmdFault h.word reason addr)) ∧
      (¬ legal → exec i' s = .next (s.cmdFault h.word 3 0)))) ∧
  (∀ s h rest m sel a sc, MayStart s h rest → let i : Instr := .mxloadb m sel 0xFF#8 a sc
    let cfg := s.sampled sel
    let legal := cfg.fmtb % 2 ^ 8 ∈ [0x16, 0x18, 0x1A, 0x1B, 0x1C, 0x1D]
    (legal → ∃ t, exec i s = .next t ∧ CommandStarted s t h rest i cfg none false ∧
      (if m then t.myCore.mb1 else t.myCore.mb0).valid = false ∧
      (if m then t.myCore.mb0 = s.myCore.mb0 else t.myCore.mb1 = s.myCore.mb1)) ∧
    (∀ loop : BitVec 8, let i' : Instr := .mxloadb m sel loop a sc
      (legal → ∀ r, s.loopAt s.focus.core loop (cfg.fmtb % 2 ^ 8) = .some r →
        ∃ t, exec i' s = .next t ∧ CommandStarted s t h rest i' cfg (some r) false ∧
          (if m then t.myCore.mb1 else t.myCore.mb0).valid = false ∧
          (if m then t.myCore.mb0 = s.myCore.mb0 else t.myCore.mb1 = s.myCore.mb1)) ∧
      (legal → ∀ reason addr, s.loopAt s.focus.core loop (cfg.fmtb % 2 ^ 8) = .bad reason addr →
        exec i' s = .next (s.cmdFault h.word reason addr)) ∧
      (¬ legal → exec i' s = .next (s.cmdFault h.word 3 0)))) ∧
  (∀ s j sel loop a sc, let i : Instr := .mxloada sel loop a sc
    let fmt := j.cfg.fmta % 2 ^ 8
    let len := 32 * (j.cfg.fmta / 2 ^ 8 % 32)
    let rows := j.cfg.fmta / 2 ^ 16 % 32
    Doing s i j → ReadsRuns i s j (loadaRuns j a.toNat sc.toNat rows len (tagBits fmt) (sel.getLsbD 1)) (fun bs t =>
      t.myJob = some { j with done := true, buf := [] } ∧ OnlyCore s t s.focus.core ∧
      t.myCore.abuf = loadedA fmt rows len j.cfg.sca (sel.getLsbD 1) bs ∧
      t.myCore = { s.myCore with jobs := t.myCore.jobs, abuf := t.myCore.abuf })) ∧
  (∀ s j m sel loop a sc, let i : Instr := .mxloadb m sel loop a sc
    let fmt := j.cfg.fmtb % 2 ^ 8
    Doing s i j → ReadsRuns i s j (loadbRuns j a.toNat sc.toNat (if tagWide fmt then 10 else 32) (8 * tagBits fmt)
      (sel.getLsbD 1)) (fun bs t =>
      t.myJob = some { j with done := true, buf := [] } ∧ OnlyCore s t s.focus.core ∧
      (if m then t.myCore.mb1 else t.myCore.mb0) = loadedB fmt j.cfg.scb (sel.getLsbD 1) bs ∧
      t.myCore = { s.myCore with jobs := t.myCore.jobs, mb0 := if m then s.myCore.mb0 else t.myCore.mb0,
                                 mb1 := if m then t.myCore.mb1 else s.myCore.mb1 }))

/-- R157, R163–R165, R169: MXRUN, its checks in order, among them the halfwords of a sparse run's mask, then every pass, whose flags
MXFLAGS takes in. -/
def Sys2Proof.Claims.MatrixRunResults : Prop :=
  (∀ s h rest bank two sparse sel pat, MayStart s h rest → let i : Instr := .mxrun bank two sparse sel pat
    let cfg := s.sampled sel
    let nf := cfg.fmtb / 2 ^ 8 % 4
    let len := (if two then 2 else 1) * (if sparse then 768 / keptN nf else 64)
    let macros := if two then [s.myCore.mb0, s.myCore.mb1] else [s.myCore.mb0]
    let bad8 := (∃ m ∈ macros, m.valid = false) ∨ (two = true ∧ s.myCore.mb0.wide ≠ s.myCore.mb1.wide) ∨
      (sparse = true ∧ s.myCore.mb0.wide = true)
    let bad9 := s.myCore.abuf.valid = false ∨ s.myCore.abuf.len ≠ len
    (sparse = true → nf = 3 → exec i s = .next (s.cmdFault h.word 3 0)) ∧
    (¬ (sparse = true ∧ nf = 3) →
      (bad8 → exec i s = .next (s.cmdFault h.word 8 0)) ∧
      (¬ bad8 → bad9 → exec i s = .next (s.cmdFault h.word 9 0)) ∧
      (¬ bad8 → ¬ bad9 → ∃ t, exec i s = .next t ∧ CommandStarted s t h rest i cfg none false))) ∧
  (∀ s j bank two sel pat, let i : Instr := .mxrun bank two false sel pat
    let macros := if two then [s.myCore.mb0, s.myCore.mb1] else [s.myCore.mb0]
    Doing s i j → j.buf = [] →
    let equal := ∀ r, r < s.myCore.abuf.rows → ∀ m, m < macros.length →
      segEqual (s.myCore.abuf.scales.getD r []) (m * 64) 64 = true
    (equal → ∃ t, exec i s = .next t ∧ CommandDone s t j ∧
      t.myCore.bank bank = (runPasses macros s.myCore.abuf 64 false (keptN (j.cfg.fmtb / 2 ^ 8 % 4)) [] (s.myCore.bank bank)).1 ∧
      t.myCore.bank (!bank) = s.myCore.bank (!bank) ∧ t.myCore.mxflags = s.myCore.mxflags |||
        w64 (runPasses macros s.myCore.abuf 64 false (keptN (j.cfg.fmtb / 2 ^ 8 % 4)) [] (s.myCore.bank bank)).2) ∧
    (¬ equal → exec i s = .next (s.cmdFault j.cmd.word 11 0))) ∧
  (∀ s j bank two sel pat, let i : Instr := .mxrun bank two true sel pat
    let n := keptN (j.cfg.fmtb / 2 ^ 8 % 4)
    let macros := if two then [s.myCore.mb0, s.myCore.mb1] else [s.myCore.mb0]
    let equal := ∀ r, r < s.myCore.abuf.rows → ∀ m, m < macros.length →
      segEqual (s.myCore.abuf.scales.getD r []) (m * (768 / n)) (768 / n) = true
    Doing s i j → ReadsRuns i s j [((pat.toNat : Int), (if two then 2 else 1) * 4 * (64 / n) * 2)] (fun bs t =>
      let hs := (List.range (bs.length / 2)).map fun k => leNat (slice bs (2 * k) 2)
      let valid := ∀ h ∈ hs, h < 2 ^ 12 ∧ ((List.range 12).filter fun k => bit h k).length = n
      let r := runPasses macros s.myCore.abuf (768 / n) true n hs (s.myCore.bank bank)
      (¬ valid → t = s.cmdFault j.cmd.word 10 0) ∧ (valid → ¬ equal → t = s.cmdFault j.cmd.word 11 0) ∧
      (valid → equal → CommandDone s t j ∧ t.myCore.bank bank = r.1 ∧ t.myCore.bank (!bank) = s.myCore.bank (!bank) ∧
        t.myCore.mxflags = s.myCore.mxflags ||| w64 r.2)))

/-- R163, R164: the element of a segment that a physical row meets, and one pass: its exact sum, its scale, and its flags, bit 6 for
a NaN code and bit 7 for a scale byte in fault, which makes the sum 0. -/
def Sys2Proof.Claims.PassValues : Prop :=
  (∀ n hs m sl k, gatherAt false n hs m sl k = k) ∧
  (∀ n hs m sl k, n = 2 ∨ n = 4 ∨ n = 8 → k < 64 → maskOk n (hs.getD ((4 * m + sl) * (64 / n) + k / n) 0) = true →
    let h := hs.getD ((4 * m + sl) * (64 / n) + k / n) 0
    ∃ i, i < 12 ∧ gatherAt true n hs m sl k = 12 * (k / n) + i ∧ bit h i = true ∧
      ((List.range i).filter fun x => bit h x).length = k % n) ∧
  (∀ fa sa seg fb sb col (g : Nat → Nat), let p := passOf fa sa seg fb sb col g
    let ia := fun k => image fa (sa / 64 % 4) (seg.getD (g k) 0)
    let ib := fun k => image fb (sb / 64 % 4) (col.getD k 0)
    let bad := scaleFault fa sa = true ∨ scaleFault fb sb = true
    (bad → p.1 = 0) ∧
    (¬ bad → p.1 = ((List.range 64).map fun k => (ia k).1 * (ib k).1).sum ∧
      p.2.1 = (sa % 64 : Nat) + (sb % 64 : Nat) - 64 - tagFrac fa (sa / 64 % 4) - tagFrac fb (sb / 64 % 4)) ∧
    (bit p.2.2 7 = true ↔ bad) ∧ (bit p.2.2 6 = true ↔ ∃ k, k < 64 ∧ ((ia k).2 = true ∨ (ib k).2 = true)) ∧
    ∀ i, i ≠ 6 → i ≠ 7 → bit p.2.2 i = false)

/-- R165: a pass of sum `p` and scale `s` enters an entry of window `w`: rounded to the nearest integer, ties to even, with bit 4 when
that is inexact, and saturated to 96 bits, with bit 5. -/
def Sys2Proof.Claims.PassEntry : Prop :=
  ∀ (a p s w : Int), let e := enterPass a p s w
    let d : Int := 2 ^ (w - s).toNat
    ∃ t : Int, (w ≤ s → t = p * 2 ^ (s - w).toNat) ∧
      (s < w → 2 * (t * d - p).natAbs ≤ d.toNat ∧ (2 * (t * d - p).natAbs = d.toNat → t % 2 = 0)) ∧
      e.1 = max (-(2 : Int) ^ 95) (min (a + t) ((2 : Int) ^ 95 - 1)) ∧ (bit e.2 4 = true ↔ s < w ∧ t * d ≠ p) ∧
      (bit e.2 5 = true ↔ e.1 ≠ a + t) ∧ ∀ i, i ≠ 4 → i ≠ 5 → bit e.2 i = false

/-- R164, R165, R169: a run, dense or sparse, of one macro or both enters in each row and column of the buffer its pass of the first
macro, then that of the second, changes no other entry, and raises the flags of all its passes. -/
def Sys2Proof.Claims.RunEntersPasses : Prop :=
  ∀ (x : Macro) (ys : List Macro) (ab : ABuf) (sl n : Nat) (sparse : Bool) (hs : List Nat) (b : Bank),
    (ys = [] ∨ ∃ y : Macro, ys = [y] ∧ y.wide = x.wide) → ab.rows ≤ 16 →
    let pass := fun (mb : Macro) m r c =>
      passOf ab.fmt (((ab.scales.getD r []).drop (m * sl / 64)).headD 0) (((ab.codes.getD r []).drop (m * sl)).take sl) mb.fmt
        (mb.scales.getD c 0) (mb.codes.getD c []) (gatherAt sparse n hs m (c / 8))
    let first := fun r c => enterPass (b.acc.at (32 * r + c) 0) (pass x 0 r c).1 (pass x 0 r c).2.1 b.base
    let both := fun (y : Macro) r c => enterPass (first r c).1 (pass y 1 r c).1 (pass y 1 r c).2.1 b.base
    let cols := if x.wide then 10 else 32
    let after := runPasses (x :: ys) ab sl sparse n hs b
    0 < sl → after.1.base = b.base ∧
    (∀ k, (ab.rows ≤ k / 32 ∨ cols ≤ k % 32) → after.1.acc.at k 0 = b.acc.at k 0) ∧
    (∀ r c, r < ab.rows → c < cols → after.1.acc.at (32 * r + c) 0 = match ys with
      | [] => (first r c).1
      | y :: _ => (both y r c).1) ∧
    ∀ i, (bit after.2 i = true ↔ ∃ r c, r < ab.rows ∧ c < cols ∧ (bit (pass x 0 r c).2.2 i = true ∨ bit (first r c).2 i = true ∨
      ∃ y ∈ ys, bit (pass y 1 r c).2.2 i = true ∨ bit (both y r c).2 i = true))

/-- R164, R165: a dense run of one macro adds to the entry of row r and column c the exact product of the row's 64 images
and the column's, scaled to the window and rounded to it, and saturates it; no other entry changes. -/
def Sys2Proof.Claims.DenseRunAccumulatesProducts : Prop :=
  ∀ (mb : Macro) (ab : ABuf) (b : Bank) n, ab.rows ≤ 16 → ab.codes.length = ab.rows →
    (∀ row ∈ ab.codes, row.length = 64) → (∀ row ∈ ab.scales, ∀ x ∈ row, scaleFault ab.fmt x = false) →
    (∀ x ∈ mb.scales, scaleFault mb.fmt x = false) →
    let after := (runPasses [mb] ab 64 false n [] b).1
    after.base = b.base ∧
    (∀ r c, r < ab.rows → c < (if mb.wide then 10 else 32) →
      let sa := (ab.scales.getD r []).headD 0
      let sb := mb.scales.getD c 0
      let row := ab.codes.getD r []
      let col := mb.codes.getD c []
      let p : Int := ((List.range 64).map fun k =>
        (image ab.fmt (sa / 64 % 4) (row.getD k 0)).1 * (image mb.fmt (sb / 64 % 4) (col.getD k 0)).1).sum
      let e : Int := (sa % 64 : Nat) + (sb % 64 : Nat) - 64 - tagFrac ab.fmt (sa / 64 % 4) - tagFrac mb.fmt (sb / 64 % 4)
      let a := b.acc.at (32 * r + c) 0
      let q := quantum .rne (decide (p < 0)) p.natAbs (e - b.base) 0 false
      let term : Int := if p < 0 then -(q.1 : Int) else q.1
      after.acc.at (32 * r + c) 0 = max (-(2 : Int) ^ 95) (min (a + term) ((2 : Int) ^ 95 - 1))) ∧
    (∀ k, (ab.rows ≤ k / 32 ∨ (if mb.wide then 10 else 32) ≤ k % 32) → after.acc.at k 0 = b.acc.at k 0)

/-- R157, R170: MXOUT checks every row address before its first write and then writes the rows, whole elements at a time,
accumulating their flags. That the rows beyond a short sequence use it again is log entry 91. -/
def Sys2Proof.Claims.MatrixOutputSteps : Prop :=
  ∀ s j bank ty loop a, let i : Instr := .mxout bank ty loop a
    let e : Nat := match ty with
      | .fp32 => 4
      | .bf16 => 2
      | .int32 => 4
    let addr : Nat → Int := fun r => match j.loop with
      | none => ((a.toNat + r * (32 * e) : Nat) : Int)
      | some _ => (a.toNat : Int) + j.off r
    Doing s i j →
    (16 ≤ j.cursor → ∃ t, exec i s = .next t ∧ CommandDone s t j) ∧
    (∀ r, j.cursor = 0 → j.pos = 0 → r < 16 → addr r % e ≠ 0 → (∀ r', r' < r → addr r' % e = 0) →
      exec i s = .next (s.cmdFault j.cmd.word 7 (wrapInt (addr r) 48))) ∧
    (j.cursor < 16 → (∀ r, r < 16 → addr r % e = 0) → j.pos < 32 * e → j.pos % e = 0 → s.myTurn = true → ∀ u l route,
      s.engLoc j accStore true false (32 * e - j.pos) (addr j.cursor + j.pos) = .ok u l route →
      let elems := (List.range 32).map fun c => outElem ty ((s.myCore.bank bank).acc.at (32 * j.cursor + c) 0) (s.myCore.bank bank).base
      let bytes := elems.flatMap fun x => natLE e x.1
      let n := oneUnit (addr j.cursor + j.pos) (32 * e - j.pos)
      ∃ t, exec i s = .next t ∧
        EngineAccess s t j (addr j.cursor + j.pos).toNat (.mem .store l.place n ((bytes.drop j.pos).take n) 0xFFFFFFFF) ∧
        t.myJob = some (if j.pos + n = 32 * e then { j with cursor := j.cursor + 1, pos := 0 } else { j with pos := j.pos + n }) ∧
        t.myCore.mxflags = s.myCore.mxflags |||
          w64 (((elems.drop (j.pos / e)).take (n / e)).foldl (fun m x => m ||| x.2) 0))

/-- R176, R304: QSIGNAL sends its one operation to the home of its address; a counter record lies in a scratchpad. -/
def Sys2Proof.Claims.SignalCommandSteps : Prop :=
  ∀ s j (addr : VAddr),
    (∀ v u l route, Doing s (.qsignalAdd addr v) j → j.cursor = 0 → s.myTurn = true →
      s.engLoc j accAmo true true 8 addr.toNat = .ok u l route →
      ∃ t, exec (.qsignalAdd addr v) s = .next t ∧ t.myJob = some { j with cursor := 1 } ∧
        EngineAccess s t j addr.toNat (if l.place.space = .sync then .sync l.place (.amo .amoAdd true (v.setWidth 64) 0)
          else .mem .amoAdd l.place 8 (natLE 8 v.toNat) 0)) ∧
    (∀ u l route, Doing s (.qsignalDecz addr) j → j.cursor = 0 → s.myTurn = true →
      s.engLoc j accDecz true true 16 addr.toNat = .ok u l route →
      (l.place.space = .scratch → ∃ t, exec (.qsignalDecz addr) s = .next t ∧ t.myJob = some { j with cursor := 1 } ∧
        EngineAccess s t j addr.toNat (.mem .decz l.place 16 [] 0)) ∧
      (l.place.space ≠ .scratch → exec (.qsignalDecz addr) s = .next (u.cmdFault j.cmd.word 5 addr.toNat))) ∧
    (∀ u l route, Doing s (.qsignalBararr addr) j → j.cursor = 0 → s.myTurn = true →
      s.engLoc j accSync true true 32 addr.toNat = .ok u l route →
      ∃ t, exec (.qsignalBararr addr) s = .next t ∧ t.myJob = some { j with cursor := 1 } ∧
        EngineAccess s t j addr.toNat (.sync l.place .barArr)) ∧
    (∀ i, (∃ v, i = .qsignalAdd addr v) ∨ i = .qsignalDecz addr ∨ i = .qsignalBararr addr → Doing s i j → j.cursor ≠ 0 →
      exec i s = .next s)

/-- R75, R108, R178: a command without accesses to make or outstanding leaves its queue and its count; the data of a read
joins what the command has read, an uncorrectable error faults it; a word that is no command of its queue faults it. -/
def Sys2Proof.Claims.CommandEnds : Prop :=
  (∀ s core q j, (s.core core).job q = some j →
    (j.done = true → (s.aim core q).accessing j = false → ∃ t, exec (.commandPerformed core q) s = .next t ∧
      (t.core core).job q = none ∧ (∀ y, y ≠ q → (t.core core).job y = (s.core core).job y) ∧
      (t.core core).mx = (s.core core).mx - (if q = .mxq then 1 else 0) ∧
      (t.core core).cp = (s.core core).cp - (if q = .mxq then 0 else 1) ∧
      t.core core = { s.core core with mx := (t.core core).mx, cp := (t.core core).cp, jobs := (t.core core).jobs } ∧
      OnlyCore s t core) ∧
    (j.done = false ∨ (s.aim core q).accessing j = true → exec (.commandPerformed core q) s = .next s)) ∧
  (∀ s core q j r data poisoned ok rest back, (s.core core).job q = some j → s.reqs = r :: rest →
    r.owner = (s.aim core q).jobOwner j → (∃ p n d c, r.target = .mem .load p n d c) →
    r.stage = .performed data poisoned ok →
    (s.aim core q).takeOrphan core ((s.core core).lostReq core q) = none →
    (back = false → poisoned = false → ∃ t, exec (.engineReadReturn core q back) s = .next t ∧
      (t.core core).job q = some { j with buf := j.buf ++ data } ∧ (∀ x ∈ t.reqs, x.id ≠ r.id) ∧ t.ctxs = s.ctxs ∧
      t.mem = s.mem) ∧
    (back = true ∨ poisoned = true → ∃ t, exec (.engineReadReturn core q back) s = .next t ∧
      (t.core core).job q = none ∧ (t.core core).qstat.getLsbD (queueNo q) = true)) ∧
  (∀ s core q back u, (s.aim core q).takeOrphan core ((s.core core).lostReq core q) = some u →
    exec (.engineReadReturn core q back) s = .next u) ∧
  (∀ s h rest reason, AtHead s h rest → decodeCommand s.focus.queue h.word = .error reason →
    exec (.rejectedCommand h.word) s = .next (s.cmdFault h.word reason 0))

/-! ## Starts, choice and the inbox -/

/-- R12, R192: a core starts an eligible candidate that no eligible candidate comes before, and none in a cycle in which it has
started one. That a tag's pending start comes before its close is the model's choice of log entry 51. -/
def Sys2Proof.Claims.StartChoice : Prop :=
  ∀ s core k, s.winner core = some k →
    s.eligible core k = true ∧ k ∈ (s.core core).candidateKeys s.now ∧
    (∀ j ∈ (s.core core).candidateKeys s.now, s.eligible core j = true → ¬ StartsBefore s core j k) ∧
    (s.core core).startedAt ≠ some s.now

/-- R193: a core issues for a ready context (its next word is at hand, no register or earlier access holds it, and its unit accepts
it) that no ready context comes before, and the waiting counts follow; with none ready it issues nothing. Among contexts in system
mode the lower number decides (the model's choice, log entry 31). -/
def Sys2Proof.Claims.IssueChoice : Prop :=
  ∀ s core ready merge, let p := s.choose core ready merge
    let t := p.2
    (∀ c, p.1 = some c → Ready s core ready merge c ∧ (∀ d, Ready s core ready merge d → ¬ IssuesBefore s core d c) ∧
      (t.ctx core c).waits = 0 ∧ (t.core core).issuedAt = some s.now) ∧
    (p.1 = none → (∀ d, ¬ Ready s core ready merge d) ∧ t.cores = s.cores) ∧
    (∀ d, d < 4 → p.1 ≠ some d → (Ready s core ready merge d → (t.ctx core d).waits = (s.ctx core d).waits + 1) ∧
      (¬ Ready s core ready merge d → (t.ctx core d).waits = 0)) ∧
    (∀ d, d < 4 → t.ctx core d = { s.ctx core d with waits := (t.ctx core d).waits }) ∧
    (∀ k, (k < 4 * core ∨ 4 * core + 4 ≤ k) → t.ctxs.look k = s.ctxs.look k)

/-- R12, R189–R191, R195, R197: what an eligible candidate other than a system start satisfies. -/
def Sys2Proof.Claims.EligibilityRules : Prop :=
  ∀ (s : State) core k, s.eligible core k = true →
    (∃ c, c < 4 ∧ Free s core c) ∧
    (k < 200 → ∃ tag, ((s.core core).tagenSeen s.now).getLsbD tag = true ∧ ((s.core core).table.at tag .blank).valid = true ∧
      (∀ c a, c < 4 → (s.ctx core c).act = some a → a.tag ≠ some tag) ∧ (∀ c, c < 4 → ¬ Leaving s core c tag) ∧
      (((s.core core).table.at tag .blank).serial = true → ∀ c a t, c < 4 → (s.ctx core c).act = some a →
        a.tag = some t → ((s.core core).table.at t .blank).serial = false) ∧
      (((s.core core).table.at tag .blank).serial = true → ∀ c t, c < 4 → Leaving s core c t →
        ((s.core core).table.at t .blank).serial = false) ∧
      (s.core core).mig = none ∧ (s.core core).muted = false ∧
      (k < 8 → ∃ m rest, (s.core core).queues.at k [] = m :: rest ∧ m.hdr.tag = tag ∧ m.lock = none) ∧
      (8 ≤ k → tag = (k - 8) / 2 ∧
        (k % 2 = 0 → ((s.core core).tagpendSeen s.now).getLsbD tag = true) ∧
        (k % 2 = 1 → (∃ e ∈ (s.core core).reclose, e.1 = tag) ∨ (((s.core core).table.at tag .blank).gated = true ∧
          ((s.core core).rounds.at tag .blank).setCur = ((s.core core).table.at tag .blank).join))))

/-- R12, R13, R84–R88, R194, R350: a message or a codelet post that the core starts. -/
def Sys2Proof.Claims.MessageStarts : Prop :=
  ∀ s core q m rest, (s.core core).queues.at q [] = m :: rest → m.lock = none → s.winner core = some q →
    let e := ((s.updateEffect core m.hdr.tag).core core).table.at m.hdr.tag .blank
    let seq := w64 (m.queue * 2 ^ 42 + b2n m.ovf * 2 ^ 41 + b2n m.replayed * 2 ^ 40 + m.seq % 2 ^ 32)
    (q < 7 → m.post = none → (e.gated = true → m.hdr.round = ((s.core core).rounds.at m.hdr.tag .blank).cur) →
      m.hdr.round < 2 ^ 16 → ((s.core core).rounds.at m.hdr.tag .blank).cur < 2 ^ 16 →
      ∃ t ctx, exec (.activationStart core q) s = .next t ∧ (t.core core).queues.at q [] = rest ∧
        Began s t core ctx m.hdr.tag (.message m) e e.handler m.payload seq (w64 m.hdr.round)
          (w64 (m.hdr.gen % 4 * 64 + m.hdr.sch % 64))
          (w64 (m.hdr.smod % 1024 * 2 ^ 40 + m.hdr.ssite * 2 ^ 19 + m.hdr.score)) m.hdr.fmt) ∧
    (∀ addr counter, q = 7 → m.post = some (addr, counter) →
      ∃ t ctx, exec (.codeletStart core) s = .next t ∧ (t.core core).queues.at 7 [] = rest ∧
        Began s t core ctx m.hdr.tag (.message m) e addr m.payload seq 0 0 0 0)

/-- R79, R84, R191, R197, R205: pending starts clear their bit; a due close starts at its handler with the completing marker's
number, and with the replayed bit where TRET has released it. A close that ended and met a pair mismatch starts again with its own
round (log entry 83). In a close the fields queue and ovf of ACTMSG are 0 by log entry 52, and ACTTAG.fmt is 0 in all of these by log
entry 81: the model's choices. -/
def Sys2Proof.Claims.PendingAndCloseStarts : Prop :=
  ∀ s core tag, let e := ((s.updateEffect core tag).core core).table.at tag .blank
    let rs := (s.core core).rounds.at tag .blank
    (tag < 64 → s.winner core = some (8 + 2 * tag) → ∃ t ctx, exec (.pendingStart core tag) s = .next t ∧
      (t.core core).tagpend.getLsbD tag = false ∧
      Began s t core ctx tag .pending e e.handler [] 0 (w64 (if e.gated then rs.cur else 0)) 0 0 0) ∧
    (s.winner core = some (9 + 2 * tag) → (∀ k ∈ (s.core core).reclose, k.1 ≠ tag) →
      ∃ t ctx, exec (.closeStart core tag) s = .next t ∧
      Began s t core ctx tag (.close rs.seqCur) e e.close [] (w64 (b2n rs.again * 2 ^ 40 + rs.seqCur % 2 ^ 32)) (w64 rs.cur)
        0 0 0) ∧
    (∀ seq round rest, s.winner core = some (9 + 2 * tag) → (s.core core).reclose = (tag, seq, round) :: rest →
      ∃ t ctx, exec (.closeStart core tag) s = .next t ∧ (t.core core).reclose = rest ∧
      Began s t core ctx tag (.closed seq round) e e.close [] (w64 (2 ^ 40 + seq % 2 ^ 32)) (w64 round) 0 0 0)

/-- R195: a message of a gated tag for a later round goes to the hold buffer while it has room, one of an earlier round is
dropped; neither starts. -/
def Sys2Proof.Claims.GatedMessagesAreClassified : Prop :=
  ∀ s core q m rest, (s.core core).queues.at q [] = m :: rest → m.lock = none → m.post = none → q < 7 →
    s.tagMay core m.hdr.tag = true → ((s.core core).table.at m.hdr.tag .blank).gated = true →
    let d := (m.hdr.round + 65536 - ((s.core core).rounds.at m.hdr.tag .blank).cur) % 65536
    (1 ≤ d → d < 32768 → (s.core core).hold.length < 32 → ∃ t, exec (.activationStart core q) s = .next t ∧
      (t.core core).queues.at q [] = rest ∧ (t.core core).hold = (s.core core).hold ++ [.data m] ∧ OnlyCore s t core) ∧
    (1 ≤ d → d < 32768 → 32 ≤ (s.core core).hold.length → exec (.activationStart core q) s = .next s) ∧
    (32768 ≤ d → ∃ t, exec (.activationStart core q) s = .next t ∧ (t.core core).queues.at q [] = rest ∧
      (t.core core).hold = (s.core core).hold ∧ (t.core core).chdrop = (s.core core).chdrop ∧ t.ctxs = s.ctxs ∧
      (t.die (siteDie (s.core core).site)).seq = (s.die (siteDie (s.core core).site)).seq + 1)

/-- R202, R205, R210: a management message, a report or a MOVED notice waits for its system start and starts it; so does the trap of
a pair whose second mismatch found the replay ended (log entry 83). -/
def Sys2Proof.Claims.SystemStarts : Prop :=
  (∀ s core ws rest, s.mgmtAt core = none → s.winner core = some 200 → (s.core core).sysq = .management ws :: rest →
    ∃ t ctx, exec (.managementStart core) s = .next t ∧ (t.core core).sysq = rest ∧
      SystemBegan s t core ctx 0x20 (ws.getD 0 0)) ∧
  (∀ s core f, s.mgmtAt core = some f → ∃ t, exec (.managementStart core) s = .next t ∧
    (t.core core).sysq = (s.core core).sysq ++ [.management (packetWords f.pkt)] ∧ ∀ g ∈ t.net, g.id ≠ f.id) ∧
  (∀ s core v rest, s.winner core = some 200 →
    ((s.core core).sysq = .moved v :: rest → ∃ t ctx, exec (.movedNotice core none) s = .next t ∧
      (t.core core).sysq = rest ∧ SystemBegan s t core ctx 0x21 v) ∧
    (firstReport s.reports core = none → (s.core core).sysq = .report v :: rest → ∃ t ctx, exec (.routeFaultReport core none) s = .next t ∧
      (t.core core).sysq = rest ∧ SystemBegan s t core ctx 0x09 v)) ∧
  (∀ s core a rest, s.mgmtAt core = none → s.winner core = some 200 → (s.core core).sysq = .pairFault a :: rest →
    ∃ t ctx, exec (.managementStart core) s = .next t ∧ (t.core core).sysq = rest ∧
      (t.ctx core ctx).trapcause = w64 (512 * ctx + 0x0D) ∧ (t.ctx core ctx).trapval = 2 ∧ (t.ctx core ctx).trappc = 0 ∧
      (t.ctx core ctx).pc = (s.core core).trapvec &&& ~~~ 3#64 ∧ (t.ctx core ctx).mode = .system ∧
      (∀ k, k ≠ 4 * core + ctx → t.ctxs.look k = s.ctxs.look k)) ∧
  (∀ s core frame, frame.ingress = [] → ∃ t, exec (.movedNotice core (some frame)) s = .next t ∧
    (t.core core).sysq = (s.core core).sysq ++ [.moved frame.val] ∧ OnlyCore s t core)

/-- R186–R189, R350: a data message that arrives, or that was refused and may be taken now (nothing of the generation hold
goes before it). -/
def Sys2Proof.Claims.MessageArrivals : Prop :=
  ∀ s core flight f i, s.atInbox core flight .data = some f →
    ((i = .messageArrival core flight ∧ f.treated = false) ∨
      (i = .heldMessageAccept core flight ∧ f.treated = true ∧ s.releaseAll core = s)) →
    let c := s.core core
    let m := inboxMsg s core f.pkt
    ((c.bound.getLsbD f.pkt.hdr.rch = false ∨ (c.table.at f.pkt.hdr.tag .blank).valid = false) →
      ∃ t, exec i s = .next t ∧ Arrived s t core f ∧
        (t.core core).chdrop.toNat =
          f.pkt.hdr.rch % 64 * 2 ^ 32 + min (c.chdrop.toNat % 2 ^ 32 + 1) (2 ^ 32 - 1) ∧
        (t.core core).queues = c.queues ∧ (t.core core).rings = c.rings ∧
        (t.die (siteDie c.site)).seq = (s.die (siteDie c.site)).seq + 1) ∧
    (Welcome s core f.pkt → (c.table.at f.pkt.hdr.tag .blank).valid = true →
      (c.rings.at m.queue [] = [] → (c.queues.at m.queue []).length < 16 →
        ∃ t, exec i s = .next t ∧ Arrived s t core f ∧
          (t.core core).queues.at m.queue [] = c.queues.at m.queue [] ++ [m] ∧
          (∀ q, q ≠ m.queue → (t.core core).queues.at q [] = c.queues.at q []) ∧ (t.core core).rings = c.rings) ∧
      ((c.rings.at m.queue [] ≠ [] ∨ 16 ≤ (c.queues.at m.queue []).length) → s.bringup.sapling = false →
        (c.rings.at m.queue []).length < 64 →
        ∃ t, exec i s = .next t ∧ Arrived s t core f ∧
          (t.core core).rings.at m.queue [] = c.rings.at m.queue [] ++ [{ m with ovf := true }] ∧
          (t.core core).queues = c.queues) ∧
      (64 ≤ (c.rings.at m.queue []).length →
        ∃ t, exec i s = .next t ∧ t.cores = s.cores ∧ t.ctxs = s.ctxs ∧
          t.net = s.net.map fun g => if g.id = f.id then { f with treated := true } else g))

/-- R187, R195, R196, R198, R236: markers, fences, refills and argument updates. -/
def Sys2Proof.Claims.InboxEvents : Prop :=
  (∀ s core flight f, s.atInbox core flight .marker = some f → Welcome s core f.pkt → (s.core core).hold.length ≤ 32 →
    (∀ g ∈ (s.core core).joinsOn f.pkt.hdr.rch, (s.core core).ahead g f.pkt.hdr.round ≤ 1) →
    ∃ t, exec (.roundMarkerArrival core flight) s = .next t ∧ Arrived s t core f ∧
      (∀ g e, (s.core core).table.look g = some e → e.valid = true → e.gated = true → f.pkt.hdr.rch < 64 →
        e.join.getLsbD f.pkt.hdr.rch = true →
        let old := (s.core core).rounds.at g .blank
        let new := (t.core core).rounds.at g .blank
        new.cur = old.cur ∧
        ((s.core core).ahead g f.pkt.hdr.round = 0 →
          new.setCur = old.setCur ||| 1#64 <<< f.pkt.hdr.rch ∧ new.setNext = old.setNext) ∧
        ((s.core core).ahead g f.pkt.hdr.round = 1 →
          new.setNext = old.setNext ||| 1#64 <<< f.pkt.hdr.rch ∧ new.setCur = old.setCur)) ∧
      (t.core core).queues = (s.core core).queues) ∧
  (∀ s core flight f, s.atInbox core flight .fence = some f → Welcome s core f.pkt →
    ∃ t, exec (.fenceMarkerArrival core flight) s = .next t ∧ Arrived s t core f ∧
      (t.core core).gexp.at f.pkt.hdr.rch 0 = ((s.core core).gexp.at f.pkt.hdr.rch 0 + 1) % 4 ∧
      (∀ ch, ch ≠ f.pkt.hdr.rch → (t.core core).gexp.at ch 0 = (s.core core).gexp.at ch 0) ∧
      (t.core core).queues = (s.core core).queues) ∧
  (∀ s core queue m rest, (s.core core).rings.at queue [] = m :: rest → ((s.core core).queues.at queue []).length < 16 →
    (s.core core).genHold = [] →
    ∃ t, exec (.subringRefill core queue) s = .next t ∧
      (t.core core).queues.at queue [] = (s.core core).queues.at queue [] ++ [m] ∧
      (t.core core).rings.at queue [] = rest ∧ OnlyCore s t core) ∧
  (∀ s core tag v, (s.core core).staged.look tag = some v → s.tagRuns core tag = false →
    (∀ e ∈ (s.core core).table, ¬ (e.2.valid = true ∧ e.2.gated = true)) →
    ∃ t, exec (.argumentUpdateEffect core tag) s = .next t ∧ ((t.core core).table.at tag .blank).const = v ∧
      (t.core core).staged.look tag = none ∧ OnlyCore s t core)

/-- R236, R187: a message of a later generation is held, and returns in order once its generation is expected. -/
def Sys2Proof.Claims.GenerationsKeepOrder : Prop :=
  (∀ s core flight f, s.atInbox core flight .data = some f → f.treated = false →
    (s.core core).bound.getLsbD f.pkt.hdr.rch = true → core ∉ s.coppice.skippedSet →
    ((s.core core).table.at f.pkt.hdr.tag .blank).valid = true →
    f.pkt.hdr.gen ≠ (s.core core).gexp.at f.pkt.hdr.rch 0 → (s.core core).genHold.length < 16 →
    ∃ t, exec (.messageArrival core flight) s = .next t ∧ Arrived s t core f ∧
      (t.core core).genHold = (s.core core).genHold ++ [(f.pkt, (s.core core).arrivals)] ∧
      (t.core core).queues = (s.core core).queues) ∧
  (∀ s core flight f p n, s.atInbox core flight .fence = some f → (s.core core).bound.getLsbD f.pkt.hdr.rch = true →
    f.pkt.hdr.gen = (s.core core).gexp.at f.pkt.hdr.rch 0 → (s.core core).genHold = [(p, n)] →
    p.hdr.kind = .data → p.hdr.rch = f.pkt.hdr.rch → f.pkt.hdr.gen < 4 → p.hdr.gen = (f.pkt.hdr.gen + 1) % 4 →
    (let q := ((s.core core).table.at p.hdr.tag .blank).queue
     (s.core core).rings.at q [] = [] → ((s.core core).queues.at q []).length < 16 →
     ∃ t, exec (.fenceMarkerArrival core flight) s = .next t ∧ (t.core core).genHold = [] ∧
       (t.core core).queues.at q [] = (s.core core).queues.at q [] ++ [{ inboxMsg s core p with seq := n }]))

/-- R20, R28, R72, R204: the oldest committed message enters the router, or waits for its twin in a checked pair; an activation
past its time limit, counted from the issue of its first instruction and from the cycle after the last write of ACTLIM, traps at the
instruction that has not completed. -/
def Sys2Proof.Claims.InjectionAndTimeLimit : Prop :=
  (∀ s core m rest, (s.core core).outq = m :: rest → ∃ t, exec (.messageInjection core) s = .next t ∧
    (t.core core).outq = rest ∧ (∀ k, ButPushes (s.ctxs.at k .blank) (t.ctxs.at k .blank)) ∧
    ((∀ f ∈ s.net, f.spot = .queued → f.site ≠ (s.core core).site) → t.ctxs = s.ctxs) ∧
    ((s.core core).pair = none → (∀ g ∈ s.net, g.id < s.fresh) → ∃ f ∈ t.net, f.id = s.fresh ∧ f.pkt.hdr = m.hdr ∧
      f.site = (s.core core).site ∧ (f.spot = .queued ∨ f.spot = .buffer) ∧
      (m.hdr.kind = .data → f.pkt.body = .message m.payload) ∧ t.injected = s.injected + 1 ∧
      t.net.length = s.net.length + 1) ∧
    (∀ p, (s.core core).pair = some p → t.net = s.net ∧ ∃ w, w.sender = m.sender ∧ w.since = s.now ∧ w.pkt.hdr = m.hdr ∧
      (t.core core).pair = some { p with waiting := p.waiting ++ [w] })) ∧
  (∀ s core ctx a, (s.ctx core ctx).act = some a → a.mode = .app → a.issued = true → (s.core core).actlim ≠ 0 →
    (a.begun + (s.core core).actlim.toNat ≤ s.now → (∀ w, (s.core core).actlimAt = some w → w < s.now) → ∃ t pc, exec (.acttime core ctx) s = .next t ∧
      TrapEntered s t core ctx 0x10 pc pc ∧
      ((∀ r ∈ s.reqs, r.holds = true → r.owner ≠ .ctx core ctx (s.ctx core ctx).epoch) → pc = (s.ctx core ctx).pc) ∧
      (pc ≠ (s.ctx core ctx).pc → ∃ r ∈ s.reqs, r.holds = true ∧ r.owner = .ctx core ctx (s.ctx core ctx).epoch ∧ pc = r.pc)) ∧
    (s.now < a.begun + (s.core core).actlim.toNat ∨ (∃ w, (s.core core).actlimAt = some w ∧ s.now ≤ w) →
      exec (.acttime core ctx) s = .next s)) ∧
  (∀ s core ctx a, (s.ctx core ctx).act = some a → a.issued = false → exec (.acttime core ctx) s = .next s)

/-! ## Homes, replies and the mesh -/

/-- R65, R269: a store of the core's own memory is performed: exactly its bytes are written. A checked pair's shadow copy
is written with it (R204). -/
def Sys2Proof.Claims.OwnStoresArePerformed : Prop :=
  ∀ s id r p n data mask, OwnTurn s id r → r.target = .mem .store p n data mask → data.length = n →
    ∃ t, exec (.memoryRequestArrival (.own id)) s = .next t ∧
      (∀ i, i < n → (∀ o ∈ s.mirrors p.owner, p.space = .scratch → o = p.owner ∨ p.off + n ≤ 0x8000) →
        t.mem.read (p.phys + i) = storedByte s p data mask i) ∧
      (p.space ≠ .scratch ∨ s.mirrors p.owner = [] → SameMemoryBut s t p n) ∧
      (NothingQueued s → t = { s with mem := t.mem, poison := t.poison, reqs := t.reqs, coppice := t.coppice }) ∧
      ∃ r' ∈ t.reqs, r'.id = id ∧ r'.stage = .performed [] false true

/-- R65, R66, R269: a load of the core's own memory reads its bytes, in error where the unit is. -/
def Sys2Proof.Claims.OwnLoadsArePerformed : Prop :=
  ∀ s id r p n data mask, OwnTurn s id r → r.target = .mem .load p n data mask →
    ∃ t, exec (.memoryRequestArrival (.own id)) s = .next t ∧ t.mem = s.mem ∧
      (NothingQueued s → t = { s with reqs := t.reqs }) ∧
      (r.isLeft = false → ∃ r' ∈ t.reqs, r'.id = id ∧ r'.stage = .performed (s.readPlace p n) (s.poisoned p n) true)

/-- R270, R282: a stream element is one unit: a part of one waits at its home until the other part has come, and the last
part to come performs them together in one step. That an element across a multiple of 32 KiB is made in two parts, which wait for
each other at their homes, is the model's reading of log entry 45. -/
def Sys2Proof.Claims.ElementsAreOneUnit : Prop :=
  (∀ s id r op p n data cmp, s.req id = some r → r.target = .mem op p n data cmp → op ≠ .decz → r.route = none →
    r.stage = .going → s.ownReady r = true → (∃ q ∈ s.siblings r, q.isHeld = false) →
    exec (.memoryRequestArrival (.own id)) s = .next (s.setReq { r with stage := .held none })) ∧
  (∀ s id r q p n p' n', s.req id = some r → r.target = .mem .load p n [] 0 → r.route = none → r.stage = .going →
    s.ownReady r = true → s.siblings r = [q] → q.stage = .held none → q.target = .mem .load p' n' [] 0 → q ∈ s.reqs →
    NothingQueued s →
    ∃ t, exec (.memoryRequestArrival (.own id)) s = .next t ∧ t.mem = s.mem ∧
      (∃ x ∈ t.reqs, x.id = id ∧ x.stage = .performed (s.readPlace p n) (s.poisoned p n) true) ∧
      ∃ x ∈ t.reqs, x.id = q.id ∧ x.stage = .performed (s.readPlace p' n') (s.poisoned p' n') true)

/-- R269, R291–R294: an AMO or CAS of the core's own memory: it answers the old value and writes the new one in one step;
on a word in error it writes nothing; what it writes in a scratchpad of a checked pair is mirrored (R204). What an operation that its
core's move left behind returns is discarded (R207). -/
def Sys2Proof.Claims.OwnAtomicsArePerformed : Prop :=
  ∀ s id r op p n data cmp, OwnTurn s id r → r.target = .mem op p n data cmp → (n = 4 ∨ n = 8) →
    inMap p n = false → data.length = n →
    let old := leNat (s.readPlace p n)
    let v := leNat data
    let w := 8 * n
    let si := fun x => sextNat x w
    (s.poisoned p n = true → op ∉ [.load, .store, .decz] → ∃ t, exec (.memoryRequestArrival (.own id)) s = .next t ∧
      t.mem = s.mem ∧ (r.isLeft = false → ∃ r' ∈ t.reqs, r'.id = id ∧ r'.stage = .performed (s.readPlace p n) true true)) ∧
    (s.poisoned p n = false → ∀ new,
      ((op = .amoAdd ∧ new = (old + v) % 2 ^ w) ∨ (op = .amoAnd ∧ new = old &&& v) ∨ (op = .amoOr ∧ new = old ||| v) ∨
       (op = .amoXor ∧ new = old ^^^ v) ∨ (op = .amoMin ∧ new = if si v < si old then v else old) ∨
       (op = .amoMax ∧ new = if si old < si v then v else old) ∨ (op = .amoMinu ∧ new = min v old) ∨
       (op = .amoMaxu ∧ new = max v old) ∨ (op = .amoSwap ∧ new = v) ∨
       (op = .amoFadd ∧ new = (fmtF32.add .rne old v).code) ∨
       (op = .cas ∧ new = if old = cmp.toNat % 2 ^ w then v else old)) →
      ∃ t, exec (.memoryRequestArrival (.own id)) s = .next t ∧
        (p.space ≠ .scratch ∨ s.mirrors p.owner = [] → t.mem.readN p.phys n = natLE n new ∧ SameMemoryBut s t p n) ∧
        (p.space = .scratch → p.off + n ≤ 0x8000 → p.owner < 2 ^ 21 → (∀ o ∈ s.mirrors p.owner, o < 2 ^ 21) →
          Mirrored s t p n (natLE n new) (op = .cas → old = cmp.toNat % 2 ^ w)) ∧
        (NothingQueued s → t = { s with mem := t.mem, poison := t.poison, reqs := t.reqs, coppice := t.coppice }) ∧
        (r.isLeft = false → ∃ r' ∈ t.reqs, r'.id = id ∧ r'.stage = .performed (s.readPlace p n) false true))

/-- R221, R245, R269, R397: a routed request is performed where it ends; a load or atomic, and a store of another module,
is answered on its return route, and the packet leaves the mesh. What is written in the scratchpad of a checked pair is mirrored
(R204). -/
def Sys2Proof.Claims.RoutedRequestsArePerformed : Prop :=
  ∀ s f rid op p n data cmp ret, HomeTurn s f rid op p n data cmp ret →
    (op = .load → ∃ t, exec (.memoryRequestArrival (.packet f.id)) s = .next t ∧ t.mem = s.mem ∧
      Answered t ret (.memRep rid (s.readPlace p n) (s.poisoned p n) true)) ∧
    (op = .store → cmp = 0xFFFFFFFF → data.length = n → p.space ≠ .scratch →
      ∃ t, exec (.memoryRequestArrival (.packet f.id)) s = .next t ∧ t.mem.readN p.phys n = data ∧ SameMemoryBut s t p n ∧
        (f.pkt.hdr.smod = s.moduleId → Gone s t f.id ∧
          ∀ r, s.req rid = some r → r.isLeft = false → ∃ r' ∈ t.reqs, r'.id = rid ∧ r'.stage = .performed [] false true) ∧
        (f.pkt.hdr.smod ≠ s.moduleId → Answered t ret (.memRep rid [] false true))) ∧
    (op = .store → data.length = n → ∃ t, exec (.memoryRequestArrival (.packet f.id)) s = .next t ∧
      (∀ i, i < n → (∀ o ∈ s.mirrors p.owner, p.space = .scratch → o = p.owner ∨ p.off + n ≤ 0x8000) →
        t.mem.read (p.phys + i) = storedByte s p data cmp i) ∧
      (∀ o ∈ s.mirrors p.owner, p.space = .scratch → o < 2 ^ 21 → p.owner < 2 ^ 21 → p.off + n ≤ 0x8000 → ∀ i, i < n →
        t.mem.read (Place.phys ⟨.scratch, o, p.off⟩ + i) = storedByte s p data cmp i) ∧
      (p.space ≠ .scratch ∨ s.mirrors p.owner = [] → SameMemoryBut s t p n)) ∧
    (op ∉ [.load, .store, .decz] → s.poisoned p n = false →
      ∃ t, exec (.memoryRequestArrival (.packet f.id)) s = .next t ∧
        Answered t ret (.memRep rid (s.readPlace p n) false true) ∧
        (n = 4 ∨ n = 8 → inMap p n = false →
          let old := leNat (s.readPlace p n)
          let want := cmp.toNat % 2 ^ (8 * n)
          let new := natLE n (amoNew op n old (leNat data) want)
          (p.space ≠ .scratch ∨ s.mirrors p.owner = [] → SameMemoryBut s t p n ∧ t.mem.readN p.phys n = new) ∧
          (p.space = .scratch → p.off + n ≤ 0x8000 → p.owner < 2 ^ 21 → (∀ o ∈ s.mirrors p.owner, o < 2 ^ 21) →
            Mirrored s t p n new (op = .cas → old = want))))

/-- R65–R67: the reply of a load writes its destination and its context's count falls; one in error raises the
uncorrectable-error trap at the instruction and writes nothing. -/
def Sys2Proof.Claims.LoadReplies : Prop :=
  ∀ s id r data bad ok core ctx, s.req id = some r → r.stage = .performed data bad ok →
    r.cls = some .ld → r.owner = .ctx core ctx (s.ctx core ctx).epoch → (∀ q ∈ s.reqs, q.group = r.group → q = r) →
    NothingQueued s →
    (bad = false → ∃ t, exec (.loadReply (.own id)) s = .next t ∧ (t.ctx core ctx).ld = (s.ctx core ctx).ld - 1 ∧
      (t.ctx core ctx).pc = (s.ctx core ctx).pc ∧ t.mem = s.mem ∧
      (∀ k, k ≠ 4 * core + ctx → t.ctxs.look k = s.ctxs.look k) ∧ (∀ q ∈ t.reqs, q.id ≠ id ∨ q ≠ r) ∧
      (∀ d n sxt, r.dest = .glob d n sxt → 0 < d → d < 8 →
        (t.ctx core ctx).readX (reg d) = (if sxt then BitVec.ofInt 64 (sextNat (leNat (data.take n)) (8 * n))
          else w64 (leNat (data.take n))) ∧
        ∀ q, q ≠ reg d → (t.ctx core ctx).readX q = (s.ctx core ctx).readX q) ∧
      (∀ i n sxt, r.dest = .win i n sxt → i / 16 = (s.ctx core ctx).depth →
        (t.ctx core ctx).win.at i 0 = (if sxt then BitVec.ofInt 64 (sextNat (leNat (data.take n)) (8 * n))
          else w64 (leNat (data.take n))) ∧
        ∀ j, j ≠ i → (t.ctx core ctx).win.at j 0 = (s.ctx core ctx).win.at j 0) ∧
      (∀ d mask, r.dest = .block d mask → data.length = 32 → ∀ i, i < 32 →
        lane ((t.ctx core ctx).readV d) 8 i =
          if mask.testBit i then (data.getD i 0).toNat else lane ((s.ctx core ctx).readV d) 8 i)) ∧
    (bad = true → ∀ a, (s.ctx core ctx).act = some a → a.mode = .app → ∃ t,
      exec (.loadReply (.own id)) s = .next t ∧
      (t.ctx core ctx).trapcause = w64 (512 * ctx + 5) ∧ (t.ctx core ctx).trapval = w64 r.va ∧
      (t.ctx core ctx).trappc = r.pc ∧ (t.ctx core ctx).mode = .system ∧ (t.ctx core ctx).ld = (s.ctx core ctx).ld - 1 ∧
      t.mem = s.mem)

/-- R75, R295: a store's completion makes its context's count fall; a waiting release sets out once every earlier access of
its context is performed, an injected PUSH among them. -/
def Sys2Proof.Claims.StoreCompletions : Prop :=
  (∀ s id r data bad ok core ctx, s.req id = some r → r.stage = .performed data bad ok → r.cls = some .st → r.dest = .none →
    isStore r.target = true → r.owner = .ctx core ctx (s.ctx core ctx).epoch → (∀ q ∈ s.reqs, q.group = r.group → q = r) → NothingQueued s →
    ∃ t, exec (.storeAck (.own id)) s = .next t ∧
      t.ctx core ctx = { s.ctx core ctx with st := (s.ctx core ctx).st - 1 } ∧ t.mem = s.mem ∧
      (∀ k, k ≠ 4 * core + ctx → t.ctxs.look k = s.ctxs.look k)) ∧
  (∀ s id r core ctx e, s.req id = some r → r.stage = .release → r.owner = .ctx core ctx e →
    ((∀ q ∈ s.reqs, q.id < id → q.pending = true → ∀ e', q.owner = .ctx core ctx e' → ∃ b, q.dest = .fetch b) →
      (∀ n ∈ (s.ctx core ctx).pushes, n < id → s.pushOut n = false) → s.heldBack r = false → isStore r.target = true → ∃ t, exec (.strelInject id) s = .next t ∧ t.mem = s.mem ∧
        (∃ r' ∈ t.reqs, r'.id = id ∧ r'.stage = .going) ∧ AllButPushes s t ∧
        (PortsEmpty s (s.core core).site → t.ctxs = s.ctxs)) ∧
    ((∃ q ∈ s.reqs, q.id < id ∧ q.pending = true ∧ (∃ e', q.owner = .ctx core ctx e') ∧ ∀ b, q.dest ≠ .fetch b) ∨
      (∃ n ∈ (s.ctx core ctx).pushes, n < id ∧ s.pushOut n = true) → exec (.strelInject id) s = .next s))

/-- R194, R303, R304: DECZ at its counter record: it counts down by one, and the last one posts the record's codelet to the
home core's queue 7; a record with a reserved bit or a count of 0 is logged and left. So for a record of the core's own scratchpad,
and for one that a packet has come to, which is answered. That a record in error is answered with the error, and left, is the model's
reading (log entry 48). -/
def Sys2Proof.Claims.CounterRecordSteps : Prop :=
  (∀ s id r p n data cmp, OwnTurn s id r → r.target = .mem .decz p n data cmp → p.space = .scratch →
    s.mirrors p.owner = [] → s.poisoned p 16 = false → p.owner < 2 ^ 21 → p.off + 16 ≤ 0x8000 → NothingQueued s →
    let d := recordOf s p
    (recordOk d → 1 < d.1 % 2 ^ 32 → ∃ t, exec (.deczHome (.own id)) s = .next t ∧ CountedDown s t p ∧ t.cores = s.cores ∧
      (r.isLeft = false → ∃ r' ∈ t.reqs, r'.id = id ∧ r'.stage = .performed [] false true)) ∧
    (∀ c, recordOk d → d.1 % 2 ^ 32 = 1 → (s.site p.owner).core = some c → TakesCodelet s c p →
      ∃ t, exec (.deczHome (.own id)) s = .next t ∧ CountedDown s t p ∧ Posted s t c p) ∧
    (¬ recordOk d ∨ d.1 % 2 ^ 32 = 0 → ∃ t, exec (.deczHome (.own id)) s = .next t ∧ LoggedAndLeft s t p)) ∧
  (∀ s f rid p n data cmp ret e tr, s.ejected f.id (homePort p) = some f → f.pkt.hdr.kind = .memReq →
    f.pkt.body = .memReq rid .decz p n data cmp ret e tr → s.served f = true → p.space = .scratch → s.mirrors p.owner = [] →
    p.owner < 2 ^ 21 → p.off + 16 ≤ 0x8000 →
    let d := recordOf s p
    (s.poisoned p 16 = true → ∃ t, exec (.deczHome (.packet f.id)) s = .next t ∧ t.mem = s.mem ∧
      Answered t ret (.memRep rid [] true true)) ∧
    (s.poisoned p 16 = false →
      (recordOk d → 1 < d.1 % 2 ^ 32 → ∃ t, exec (.deczHome (.packet f.id)) s = .next t ∧ CountedDown s t p ∧ Gone s t f.id ∧
        Answered t ret (.memRep rid [] false true)) ∧
      (∀ c, recordOk d → d.1 % 2 ^ 32 = 1 → (s.site p.owner).core = some c → TakesCodelet s c p →
        ∃ t, exec (.deczHome (.packet f.id)) s = .next t ∧ CountedDown s t p ∧ Posted s t c p ∧
          Answered t ret (.memRep rid [] false true)) ∧
      (∀ c, recordOk d → d.1 % 2 ^ 32 = 1 → (s.site p.owner).core = some c →
        ((s.core c).table.at (d.1 / 2 ^ 32 % 64) .blank).valid = true → 64 ≤ ((s.core c).rings.at 7 []).length →
        exec (.deczHome (.packet f.id)) s = .next s) ∧
      (¬ recordOk d ∨ d.1 % 2 ^ 32 = 0 → ∃ t, exec (.deczHome (.packet f.id)) s = .next t ∧ LoggedAndLeft s t p ∧
        Answered t ret (.memRep rid [] false true))))

/-- R67, R176, R253, R299: the answer to an operation of class SY. -/
def Sys2Proof.Claims.SynchronisationReplies : Prop :=
  ∀ s f rid r core ctx, s.replyAt f.id = some f → s.req rid = some r →
    r.owner = .ctx core ctx (s.ctx core ctx).epoch → r.cls = some .sy → (∀ q ∈ s.reqs, q.group = r.group → q = r) →
    NothingQueued s →
    let cnt := fun (t : State) => (t.ctx core ctx).sy = (s.ctx core ctx).sy - 1
    (∀ v d n, f.pkt.hdr.kind = .syncRep → f.pkt.body = .syncRep rid (.value v) → r.dest = .glob d n true → 0 < d → d < 8 →
      n = 4 ∨ n = 8 → ∃ t, exec (.syReply (.packet f.id)) s = .next t ∧ cnt t ∧ Gone s t f.id ∧
        (t.ctx core ctx).readX (reg d) = BitVec.ofInt 64 (sextNat v.toNat (8 * n))) ∧
    (∀ st g d, f.pkt.hdr.kind = .syncRep → f.pkt.body = .syncRep rid (.status st g) → r.dest = .glob d 8 false → 0 < d →
      d < 8 → ∃ t, exec (.syReply (.packet f.id)) s = .next t ∧ cnt t ∧
        (t.ctx core ctx).readX (reg d) = w64 (g % 2 ^ 32 * 256 + st % 256)) ∧
    (∀ g addr, f.pkt.hdr.kind = .syncRep → f.pkt.body = .syncRep rid (.gen g) → r.dest = .barrier addr →
      ∃ t, exec (.syReply (.packet f.id)) s = .next t ∧ cnt t ∧ (t.ctx core ctx).barrier = some (addr, g)) ∧
    (∀ g p, f.pkt.hdr.kind = .syncRep → f.pkt.body = .syncRep rid .done → r.target = .sync p (.phase g) → r.dest = .none →
      ∃ t, exec (.syReply (.packet f.id)) s = .next t ∧ cnt t ∧ g ∉ (t.core core).phases) ∧
    (∀ a, f.pkt.hdr.kind = .syncRep → f.pkt.body = .syncRep rid .refused → (s.ctx core ctx).act = some a → a.mode = .app →
      ∃ t, exec (.syReply (.packet f.id)) s = .next t ∧ (t.ctx core ctx).trapcause = w64 (512 * ctx + 6) ∧
        (t.ctx core ctx).trapval = w64 r.va ∧ (t.ctx core ctx).mode = .system ∧ cnt t) ∧
    (∀ v e d o w np, f.pkt.hdr.kind = .pairRep → f.pkt.body = .pairRep rid v e false o w np → r.dest = .vec d 0 32 →
      ∃ t, exec (.syReply (.packet f.id)) s = .next t ∧ cnt t ∧ (t.ctx core ctx).readV d = v)

/-- R287, R291, R297–R300: the synchronisation engine's operations on words and barriers. -/
def Sys2Proof.Claims.EngineOperations : Prop :=
  ∀ s die f id p op ret, s.nextOp die = some f → f.pkt.body = .syncReq id p op ret →
    let d := s.die die
    let u := p.off / 32
    (∀ o wide v cmp, op = .amo o wide v cmp → d.units.at u 0 ≠ 0 → ∃ t, exec (.syncOperation die) s = .next t ∧
      t.mem = s.mem ∧ Sent t ret (.syncRep id .refused)) ∧
    (∀ o wide v cmp, op = .amo o wide v cmp → d.units.at u 0 = 0 → p.space = .sync → o ∉ [.load, .store, .decz] →
      let n := if wide then 8 else 4
      s.poisoned p n = false → ∃ t, exec (.syncOperation die) s = .next t ∧
        t.mem.readN p.phys n = natLE n (amoNew o n (leNat (s.readPlace p n)) (leNat (natLE n v.toNat)) (cmp.toNat % 2 ^ (8 * n))) ∧
        SameMemoryBut s t p n ∧ Sent t ret (.syncRep id (.value (w64 (leNat (s.readPlace p n)))))) ∧
    (∀ n, op = .barInit n → ∃ t, exec (.syncOperation die) s = .next t ∧ Sent t ret (.syncRep id .done) ∧
      (∀ b, d.bars.look u = some b → (t.die die).bars.look u = some ⟨n, 0, (b.gen + 1) % 2 ^ 32, some b.gen⟩ ∧
        (∀ w ∈ d.barWaits, w.unit = u → Sent t w.ret (.syncRep w.id (.status 1 b.gen))) ∧
        ∀ w ∈ (t.die die).barWaits, w.unit ≠ u) ∧
      (d.bars.look u = none → (t.die die).bars.look u = some ⟨n, 0, 0, none⟩ ∧ (t.die die).units.at u 0 = 2)) ∧
    (op = .barArr → (d.bars.look u = none → ∃ t, exec (.syncOperation die) s = .next t ∧
        Sent t ret (.syncRep id .refused) ∧ t.dies = s.dies) ∧
      (∀ b, d.bars.look u = some b → ∃ t, exec (.syncOperation die) s = .next t ∧ Sent t ret (.syncRep id (.gen b.gen)) ∧
        (b.arrived + 1 ≠ b.n → (t.die die).bars.look u = some { b with arrived := b.arrived + 1 } ∧
          (t.die die).barWaits = d.barWaits) ∧
        (b.arrived + 1 = b.n → (t.die die).bars.look u = some { b with gen := (b.gen + 1) % 2 ^ 32, arrived := 0 } ∧
          (∀ w ∈ d.barWaits, w.unit = u → Sent t w.ret (.syncRep w.id (.status 0 b.gen))) ∧
          ∀ w ∈ (t.die die).barWaits, w.unit ≠ u))) ∧
    (∀ g, op = .barWait g → (d.bars.look u = none → ∃ t, exec (.syncOperation die) s = .next t ∧
        Sent t ret (.syncRep id (.status 3 0))) ∧
      (∀ b, d.bars.look u = some b → ∃ t, exec (.syncOperation die) s = .next t ∧ (t.die die).bars = d.bars ∧
        ((g = none ∨ g = some b.gen) → d.barWaits.length < 1024 →
          (t.die die).barWaits = d.barWaits ++ [⟨u, id, ret, f.pkt.hdr.ssite⟩]) ∧
        ((g = none ∨ g = some b.gen) → 1024 ≤ d.barWaits.length → Sent t ret (.syncRep id (.status 2 b.gen))) ∧
        (∀ k, g = some k → k ≠ b.gen →
          Sent t ret (.syncRep id (.status (if b.abgen = some k then 1 else 0) k))))) ∧
    (∀ desc, op = .objInit desc → ∃ t, exec (.syncOperation die) s = .next t ∧ Sent t ret (.syncRep id .done) ∧
      (t.die die).objs.look u = some ⟨desc.toNat / 2 ^ 32, desc.toNat / 16 % 2 ^ 20, desc.getLsbD 2, desc.toNat % 4, []⟩ ∧
      ∀ w ∈ (t.die die).waits, w.base ≠ p.off)

/-- R240–R244, R249: pairing requests at the home of their object. SYNC_FAULT and SYNC_DROP stand at the engine's site in its die's log
by log entry 53, the model's choice. -/
def Sys2Proof.Claims.ObjectOperations : Prop :=
  ∀ s die f id op win p wide np v ret site, s.nextOp die = some f →
    f.pkt.body = .pairReq id op win p wide np v ret site →
    let d := s.die die
    let u := p.off / 32
    let waiting := fun (push : Bool) (l : List Waiter) => l.filter fun w => w.base == p.off && (w.push.isSome == push)
    ((d.objs.look u = none ∨ ∃ o, d.objs.look u = some o ∧ o.wide ≠ wide) →
      ∃ t, exec (.syncOperation die) s = .next t ∧ (t.die die).objs = d.objs ∧ (t.die die).waits = d.waits ∧
        (op ≠ .push → Sent t ret (.pairRep id 0 false true u wide np)) ∧
        (op = .push → (t.die die).seq = d.seq + 1)) ∧
    (∀ o, d.objs.look u = some o → o.wide = wide →
      (op = .push → waiting false d.waits = [] → o.elems.length < o.cap → ∃ t, exec (.syncOperation die) s = .next t ∧
        (t.die die).objs.look u = some { o with elems := o.elems ++ [v] } ∧ (t.die die).waits = d.waits) ∧
      (∀ w rest, op = .push → waiting false d.waits = w :: rest → ∃ t, exec (.syncOperation die) s = .next t ∧
        (t.die die).objs = d.objs ∧ Sent t w.ret (.pairRep w.id v false false u w.wide w.nopair) ∧
        ∀ x ∈ (t.die die).waits, ¬ (x.id = w.id ∧ x.push = none)) ∧
      (op = .push → waiting false d.waits = [] → o.cap ≤ o.elems.length → ∃ t, exec (.syncOperation die) s = .next t ∧
        (t.die die).objs = d.objs ∧
        (d.waits.length < 256 → ∃ w, (t.die die).waits = d.waits ++ [w] ∧ w.base = p.off ∧ w.push = some v) ∧
        (256 ≤ d.waits.length → (t.die die).waits = d.waits ∧ (t.die die).seq = d.seq + 1)) ∧
      (op ≠ .push → o.elems ≠ [] → waiting true d.waits = [] → ∃ t i, exec (.syncOperation die) s = .next t ∧
        i < o.elems.length ∧ (o.kind = 0 → i = o.elems.length - 1) ∧ (2 ≤ o.kind → i = 0) ∧
        Sent t ret (.pairRep id (o.elems.getD i 0) false false u wide np) ∧
        (t.die die).objs.look u = some { o with elems := o.elems.eraseIdx i } ∧ (t.die die).waits = d.waits) ∧
      (∀ w rest x, op ≠ .push → o.elems ≠ [] → waiting true d.waits = w :: rest → w.push = some x →
        ∃ t i, exec (.syncOperation die) s = .next t ∧ i < o.elems.length ∧
          Sent t ret (.pairRep id (o.elems.getD i 0) false false u wide np) ∧
          (t.die die).objs.look u = some { o with elems := o.elems.eraseIdx i ++ [x] }) ∧
      (op = .pop ∨ (op = .popw ∧ 256 ≤ d.waits.length) → o.elems = [] → ∃ t e, exec (.syncOperation die) s = .next t ∧
        (t.die die).objs = d.objs ∧ (t.die die).waits = d.waits ∧ Sent t ret (.pairRep id e true false u wide np) ∧
        ∀ j, j < (if o.wide then 4 else 1) → slane e 64 j = sextNat o.empty 32) ∧
      (op = .popw → o.elems = [] → d.waits.length < 256 → ∃ t, exec (.syncOperation die) s = .next t ∧
        (t.die die).objs = d.objs ∧ (t.die die).waits = d.waits ++ [⟨p.off, none, id, ret, site, wide, np⟩]))

/-- R276, R289, R302: phases. The last local member's arrival is reported to the home engine over the route installed at LOAD; when
every die with members has reported, the phase number advances and the releases leave; a die releases its members in ascending core
number, each at the site its arrival came from. The packets of this traffic have the form of log entry 37, the model's choice. -/
def Sys2Proof.Claims.PhaseSteps : Prop :=
  (∀ s die g f id p ret, s.nextOp die = some f → f.pkt.body = .syncReq id p (.phase g) ret → die ≠ (s.group g).home →
    let old := (s.die die).phases.at g ⟨[], false, []⟩
    let arrived := old.arrived ++ [⟨f.pkt.hdr.score, f.pkt.hdr.ssite, id, ret⟩]
    ∃ t, exec (.syncOperation die) s = .next t ∧ t.mem = s.mem ∧
      (old.sent = false → 0 < s.localMembers die g → s.localMembers die g ≤ arrived.length →
        (t.die die).phases.at g ⟨[], false, []⟩ = { old with arrived, sent := true } ∧
        Sent t (s.engRoutes.at (64 * die + (s.group g).home) []) (.phase die g false)) ∧
      (old.sent = true ∨ arrived.length < s.localMembers die g →
        (t.die die).phases.at g ⟨[], false, []⟩ = { old with arrived })) ∧
  (∀ s die g f, s.nextOp (s.group g).home = some f → f.pkt.body = .phase die g false → let home := (s.group g).home
    let heard := fun k => k = die ∨ k ∈ (s.die home).diesDone.at g []
    ∃ t, exec (.dieArrival die g) s = .next t ∧ t.mem = s.mem ∧ t.cores = s.cores ∧
      ((∀ k, k < 64 → 0 < s.localMembers k g → heard k) →
        (t.group g).phase = ((s.group g).phase + 1) % 2 ^ 32 ∧ (t.die home).diesDone.look g = none ∧
        (∀ k, k < 64 → k ≠ home → 0 < s.localMembers k g → Sent t (s.engRoutes.at (64 * home + k) []) (.phase home g true)) ∧
        (home < 64 → 0 < s.localMembers home g →
          ((t.die home).phases.at g ⟨[], false, []⟩).releasing.Perm ((s.die home).phases.at g ⟨[], false, []⟩).arrived)) ∧
      (¬ (∀ k, k < 64 → 0 < s.localMembers k g → heard k) →
        (t.group g).phase = (s.group g).phase ∧ ∀ k, heard k → k ∈ (t.die home).diesDone.at g [])) ∧
  (∀ s die g k f, s.nextOp die = some f → f.pkt.body = .phase k g true →
    ((s.die die).phases.at g ⟨[], false, []⟩).releasing = [] →
    ∃ t l, exec (.phaseReleaseArrival die g) s = .next t ∧ (t.die die).phases.at g ⟨[], false, []⟩ = ⟨[], false, l⟩ ∧
      l.Perm ((s.die die).phases.at g ⟨[], false, []⟩).arrived ∧ l.Pairwise (fun a b => a.core ≤ b.core)) ∧
  (∀ s die g a rest, ((s.die die).phases.at g ⟨[], false, []⟩).releasing = a :: rest →
    ∃ t, exec (.phaseReleaseArrival die g) s = .next t ∧ Sent t a.ret (.syncRep a.id .done) ∧
      ((t.die die).phases.at g ⟨[], false, []⟩).releasing = rest)

/-- R23, R103–R105, R107, R171: the address generators of the streams: at most 8 elements ahead inbound, in order outbound,
one access per turn; an element that returns in error stops the stream at its address, and the elements behind it are discarded. -/
def Sys2Proof.Claims.StreamElements : Prop :=
  (∀ s core q, let st := (s.core core).stream q
    st.bound = true → st.fault = none → (s.core core).turnOf st.eng (q + 1) (s.ready core st.eng) = true →
    ((st.outb = false → st.next < st.count ∧ st.next < st.used + 8) ∧
      (st.outb = true → st.pushed ≠ [] ∧ ∀ r ∈ s.reqs, r.group ∈ st.inflight → r.pending = false)) →
    ∀ u va n l route, elementParts (st.addr st.next) st.esize = some [(va, n)] →
      s.streamParts core (.stream core q st.serial) st.mode (if st.outb then accStore else accLoad) (!st.outb) [(va, n)] [] = .ok u [(va, n, l, route)] →
      ∃ t, exec (.streamElementAccess core q) s = .next t ∧ AllButPushes u t ∧
        ((t.core core).stream q).next = st.next + 1 ∧ ((t.core core).stream q).pushed = st.pushed.drop 1 ∧
        (t.core core).turns.at st.eng 0 = q + 1 ∧
        ∃ r ∈ t.reqs, r.owner = .stream core q st.serial ∧ r.va = va ∧ r.group ∈ ((t.core core).stream q).inflight ∧
          r.target = (if st.outb then .mem .store l.place n ((st.pushed.headD []).take n) 0xFFFFFFFF
            else .mem .load l.place n [] 0)) ∧
  (∀ s core q g more r data poisoned ok bad, let st := (s.core core).stream q
    st.bound = true → st.outb = false → st.inflight = g :: more → s.reqs.filter (fun x => x.group == g) = [r] →
    r.stage = .performed data poisoned ok → (∀ x ∈ s.reqs, x.id = r.id → x = r) →
    s.takeOrphan core ((s.core core).strayReq core q) = none →
    ∃ t, exec (.streamElementArrival core q bad) s = .next t ∧ (∀ x ∈ t.reqs, x.group ≠ g) ∧ t.ctxs = s.ctxs ∧
      (bad = false → poisoned = false → ((t.core core).stream q).inflight = more ∧
        ((t.core core).stream q).arrived = st.arrived ++ [data]) ∧
      (bad = true ∨ poisoned = true → st.fault = none → ((t.core core).stream q).arrived = st.arrived ∧
        ((t.core core).stream q).inflight = [] ∧ ((t.core core).stream q).next = st.next - (more.length + 1) ∧
        ((t.core core).stream q).fault =
          some (6, (st.addr (st.next - (more.length + 1)) % 2 ^ 48).toNat, st.next - (more.length + 1)))) ∧
  (∀ s core q bad r data poisoned ok, s.reqs = [r] → (s.core core).strayReq core q r = true → isStore r.target = false →
    r.stage = .performed data poisoned ok →
    ∃ t, exec (.streamElementArrival core q bad) s = .next t ∧ t = { s with reqs := [] })

/-- R35, R59: an instruction block that was asked for arrives whole. -/
def Sys2Proof.Claims.FetchBlocks : Prop :=
  ∀ s core ctx base r data ok, s.reqs = [r] → r.owner = .ctx core ctx (s.ctx core ctx).epoch → r.dest = .fetch base →
    r.stage = .performed data false ok → (∃ k ∈ (s.ctx core ctx).blocks, k.base = base) →
    ∃ t k, exec (.fetchBlockReturn core ctx false) s = .next t ∧ t.reqs = [] ∧ k ∈ (t.ctx core ctx).blocks ∧
      k.base = base ∧ k.ready = true ∧ k.words = (List.range 8).map (fun i => BitVec.ofNat 32 (leNat (slice data (4 * i) 4))) ∧
      t.ctx core ctx = { s.ctx core ctx with blocks := (t.ctx core ctx).blocks } ∧ t.mem = s.mem

/-- R209, R223, R225, R378: the checks of a router on a packet's header, in order; a transfer packet at a site that is not marked
as its target is discarded. -/
def Sys2Proof.Claims.RouterChecks : Prop :=
  ∀ (s : State) (f : Flight), let h := f.pkt.hdr
    let c := f.run
    let e := s.site f.site
    (isReservedKind h.kind = true → s.hopOf f = .drop 6) ∧
    (isReservedKind h.kind = false → h.fin = true →
      ((h.dsite ≠ f.site ∨ (h.ext = true ∧ h.dmod ≠ s.moduleId)) → s.hopOf f = .drop 5) ∧
      (h.dsite = f.site → (h.ext = false ∨ h.dmod = s.moduleId) →
        (h.port = 0 → isInboxKind h.kind = true → e.core = none → e.fwd = none → e.shadowOf = none → s.hopOf f = .drop 5) ∧
        (h.kind = .migrate → e.migTarget ≠ some h.score → s.hopOf f = .discard) ∧
        (h.kind = .migrate → e.migTarget = some h.score → s.hopOf f = .eject h.port) ∧
        (h.kind ≠ .migrate →
          (isInboxKind h.kind = false ∨ h.port ≠ 0 ∨ e.core ≠ none ∨ e.fwd ≠ none ∨ e.shadowOf ≠ none) →
          s.hopOf f = .eject h.port))) ∧
    (isReservedKind h.kind = false → h.fin = false →
      (f.first = true → f.ingressed = true → c.bump = false → s.hopOf f = .drop 1) ∧
      (f.first = true → (f.ingressed = false ∨ c.bump = true) →
        (c.bump = true → f.cls = 3 → s.hopOf f = .drop 4) ∧
        ((c.bump = false ∨ f.cls ≠ 3) →
          (h.cur ≠ 0 → c.dir = dirOpposite (h.runs.getD (h.cur - 1) noRun).dir → s.hopOf f = .drop 1) ∧
          (c.bump = false → c.dir = .w → f.nonW = true → s.hopOf f = .drop 1))) ∧
      ((f.first = false ∨ (c.bump = true ∧ f.cls ≠ 3 ∧ h.cur = 0) ∨
          (c.bump = false ∧ f.ingressed = false ∧ h.cur = 0 ∧ (c.dir ≠ .w ∨ f.nonW = false))) →
        (∀ to', hop f.site c.dir = some to' →
          (s.linkDown f.site c.dir = true → s.hopOf f = .drop 3) ∧
          (s.linkDown f.site c.dir = false → s.hopOf f = .link to' c.dir)) ∧
        (hop f.site c.dir = none → portAt f.site c.dir = none → s.hopOf f = .drop 2)))

/-- R209, R218, R222, R225, R226, R228, R289: what a router does with the packet at the head of an input buffer: it is dropped, or
takes its hop in its lane's turn when the next buffer has a credit, else it waits. A packet for the synchronisation engine goes on
from the ejection buffer of port 3 into the engine's own buffer of 64 operations. That a packet moves whole and needs at most 4
credits is log entry 16, and that ROUTE_DROP carries the router's site is log entry 53: the model's choices. -/
def Sys2Proof.Claims.RouterSteps : Prop :=
  ∀ s f, s.flight f.id = some f → f.spot = .buffer → s.bufferHead f = true →
    (∀ reason, s.hopOf f = .drop reason → f.pkt.hdr.kind ≠ .migrate → ∃ t, exec (.routerHeaderStep f.id) s = .next t ∧
      Gone s t f.id ∧ t.consumed = s.consumed + 1 ∧ AllButPushes s t ∧ t.cores = s.cores ∧
      (t.die (siteDie f.site)).seq = (s.die (siteDie f.site)).seq + 1 ∧
      (isReplyKind f.pkt.hdr.kind = false → f.pkt.hdr.smod = s.moduleId → (∀ d g r, f.pkt.body ≠ .phase d g r) →
        ∃ word id, t.reports = s.reports ++ [(f.pkt.hdr.score, word, id)])) ∧
    (s.hopOf f = .discard → ∃ t, exec (.routerHeaderStep f.id) s = .next t ∧ Gone s t f.id ∧ t.cores = s.cores ∧
      t.reports = s.reports ∧ t.sites = s.sites) ∧
    (s.behindPair f = false →
      (∀ port, s.hopOf f = .eject port → s.used.at (bufKey f.site (4 + port) f.lane) 0 + f.need ≤ 4 →
        s.laneTurn f ⟨4 + port, f.lane, true⟩ = true →
        ∃ t g, exec (.routerHeaderStep f.id) s = .next t ∧ g ∈ t.net ∧ g.id = f.id ∧ g.pkt = f.pkt ∧
          (g.spot = .eject port ∨ (port = 3 ∧ g.spot = .intake)) ∧
          g.site = f.site ∧ g.came = s.now ∧ AllButPushes s t ∧ t.cores = s.cores ∧ t.mem = s.mem) ∧
      (∀ to' d, s.hopOf f = .link to' d → f.pairingPoint = false ∨ f.treated = true →
        s.used.at (bufKey to' (dirOpposite d).code f.hopped.lane) 0 + f.hopped.need ≤ 4 →
        s.laneTurn f ⟨d.code, f.hopped.lane, true⟩ = true →
        ∃ t g, exec (.routerHeaderStep f.id) s = .next t ∧ g ∈ t.net ∧ g.id = f.id ∧ g.site = to' ∧
          ((∀ x ∈ s.net, x.spot ≠ .replay f.site d) → g.spot = .buffer ∧ ∃ q older, g.trail = q :: older ∧ q.site = to' ∧
            q.inDir = dirOpposite d ∧ s.now + pktFlits f.pkt ≤ q.tail ∧
            ∀ x ∈ s.net, ∀ p ∈ x.trail, p.site = to' → p.inDir = dirOpposite d → p.tail < q.tail) ∧
          ((∃ x ∈ s.net, x.spot = .replay f.site d) → g.spot = .replay f.site d) ∧
          g.inDir = some (dirOpposite d) ∧ g.pkt = { f.pkt with hdr := headerHopped f.pkt.hdr } ∧ g.came = s.now ∧
          (∀ x ∈ s.net, x.id ≠ f.id → ∃ y ∈ t.net, y.id = x.id ∧ y.pkt = x.pkt ∧ y.site = x.site ∧ y.inDir = x.inDir) ∧
          t.outTurn.at (8 * f.site + d.code) 7 = f.hopped.lane ∧ t.cores = s.cores ∧ AllButPushes s t ∧ t.mem = s.mem) ∧
      (∀ port span, s.hopOf f = .cross port span → f.pairingPoint = false ∨ f.treated = true →
        s.mayCross port f.hopped = true → s.laneTurn f ⟨f.run.dir.code, f.hopped.lane, true⟩ = true →
        ∃ t g, exec (.routerHeaderStep f.id) s = .next t ∧ g ∈ t.net ∧ g.id = f.id ∧ g.spot = .egress port span ∧
          g.pkt.hdr = headerHopped f.pkt.hdr)) ∧
    (∀ to' d, s.hopOf f = .link to' d →
      (4 < s.used.at (bufKey to' (dirOpposite d).code f.hopped.lane) 0 + f.hopped.need ∨
        (f.pairingPoint = true ∧ f.treated = false) ∨ s.behindPair f = true ∨
        (f.mayLeave = true ∧ s.laneTurn f ⟨d.code, f.hopped.lane, true⟩ = false)) →
      exec (.routerHeaderStep f.id) s = .next s)

/-- R218, R228, R229: credits, failed checks, replay, and the link that 16 failures in a row take down. A failed check takes back the
packet of the flit and every later one of the link, wherever they have got to, and counts from 1 again after a packet whose checks were
good; what is taken back stands at the router it came to until it is resent. Nothing is resent over a link that 16 failures in a row have
reached. -/
def Sys2Proof.Claims.LinkSteps : Prop :=
  (∀ s site (dir : Dir) lane n first rest, let key := 128 * site + 8 * dir.code + lane
    s.owed = first ++ (key, n) :: rest → (∀ e ∈ first, e.1 ≠ key) →
    ∃ t, exec (.creditReturn site dir lane) s = .next t ∧ t.owed = first ++ rest ∧
      t.used.at key 0 = s.used.at key 0 - n ∧ (∀ k, k ≠ key → t.used.at k 0 = s.used.at k 0) ∧ t.net = s.net) ∧
  (∀ s site (dir : Dir) x, hop site dir = some x → (s.net.map fun f => f.id).Nodup →
    ((∀ f ∈ s.net, ∀ p, ¬ InCheck s x dir f p) → exec (.flitCrcError site dir) s = .next s) ∧
    ((∃ f ∈ s.net, ∃ p, InCheck s x dir f p) → ∃ t, exec (.flitCrcError site dir) s = .next t ∧
      ((∀ f ∈ s.net, ∀ p ∈ f.trail, p.site = x → p.inDir = dirOpposite dir → s.now ≤ p.tail) →
        t.crcFails.at (4 * site + dir.code) 0 = s.crcFails.at (4 * site + dir.code) 0 + 1) ∧
      ((∃ f ∈ s.net, ∃ p ∈ f.trail, p.site = x ∧ p.inDir = dirOpposite dir ∧ p.tail < s.now) →
        t.crcFails.at (4 * site + dir.code) 0 = 1) ∧
      (∀ f ∈ s.net, ∀ p, InCheck s x dir f p → ∃ g ∈ t.net, g.id = f.id ∧ g.spot = .replay site dir ∧ g.site = x ∧
        g.pkt = p.pkt ∧ g.inDir = some (dirOpposite dir)) ∧
      (∀ f ∈ s.net, (∀ p, ¬ InCheck s x dir f p) → ∃ g ∈ t.net, g.id = f.id ∧ g.site = f.site ∧ g.pkt = f.pkt ∧
        (f.spot ≠ .queued → g.spot = f.spot)))) ∧
  (∀ s site dir, (s.linkDown site dir = false → s.crcFails.at (4 * site + dir.code) 0 < 16 → ∃ t, exec (.linkReplay site dir) s = .next t ∧
      (∀ f ∈ t.net, f.spot ≠ .replay site dir) ∧
      t.net.map (fun f => (f.id, f.stamp, f.pkt, f.site, f.inDir)) = s.net.map (fun f => (f.id, f.stamp, f.pkt, f.site, f.inDir)) ∧
      (∀ f ∈ s.net, f.spot = .replay site dir → ∃ g ∈ t.net, g.id = f.id ∧ g.spot = .buffer ∧ ∃ q, g.trail = q :: f.trail ∧
        q.site = f.site ∧ q.inDir = dirOpposite dir ∧ s.now ≤ q.tail) ∧
      t = { s with net := t.net }) ∧
    (s.linkDown site dir = true ∨ 16 ≤ s.crcFails.at (4 * site + dir.code) 0 → exec (.linkReplay site dir) s = .next s)) ∧
  (∀ s site (dir : Dir), (s.crcFails.at (4 * site + dir.code) 0 < 16 → exec (.linkDown site dir) s = .next s) ∧
    (16 ≤ s.crcFails.at (4 * site + dir.code) 0 → (∀ f ∈ s.net, ∀ a d, f.spot ≠ .replay a d) →
      ∃ t, exec (.linkDown site dir) s = .next t ∧ t.linkDown site dir = true ∧ t.net = s.net ∧
        (∀ x, hop site dir = some x → (t.site x).down.testBit (downBit (dirOpposite dir)) = true) ∧
        (t.site site).down.testBit (downBit dir) = true ∧
        (t.die (siteDie site)).seq = (s.die (siteDie site)).seq + 1))

/-- R246–R250: a push and a pop that meet at a router are paired there; a request that finds no partner parks for its window
and then goes on with none. Each clause is for a packet whose turn it is: nothing is due to leave the buffer, and none of the
packets of its cycle at an earlier port is still to be treated. -/
def Sys2Proof.Claims.PairingBufferSteps : Prop :=
  (∀ s f a, s.flight f.id = some f → s.atPoint f = true → s.departOne f.site = none →
    (∀ g ∈ s.net, g.site = f.site → g.came = f.came → g.portOrder < f.portOrder → s.atPoint g = false) →
    pairInfo f.pkt = some a →
    (∀ g b r, s.eligibleHere f = true → s.partner f = some g → pairInfo g.pkt = some b →
      a.op = .push → s.replyPath g.pkt f.site = some r →
      ∃ t, exec (.pairingArrival f.id) s = .next t ∧ Gone s t f.id ∧ Gone s t g.id ∧
        Sent t r.runs (.pairRep b.id a.value false false (b.obj.off / 32) b.wide b.nopair)) ∧
    (∀ g b r, s.eligibleHere f = true → s.partner f = some g → pairInfo g.pkt = some b →
      a.op ≠ .push → s.replyPath f.pkt f.site = some r →
      ∃ t, exec (.pairingArrival f.id) s = .next t ∧ Gone s t f.id ∧ Gone s t g.id ∧
        Sent t r.runs (.pairRep a.id b.value false false (a.obj.off / 32) a.wide a.nopair)) ∧
    (s.eligibleHere f = true → s.partner f = none → s.parkedAhead f = none →
      (s.parkedAt f.site).length < 8 → 0 < a.win → ∃ t g, exec (.pairingArrival f.id) s = .next t ∧ g ∈ t.net ∧
        g.id = f.id ∧ g.spot = .parked s.now (s.now + a.win) 0 ∧ g.pkt = f.pkt) ∧
    (∀ e, s.eligibleHere f = true → s.partner f = none → s.parkedAhead f = some e →
      ((s.parkedAt f.site).length < 8 → ∃ t g, exec (.pairingArrival f.id) s = .next t ∧ g ∈ t.net ∧
        g.id = f.id ∧ g.spot = .parked s.now (max (s.now + a.win) e.lastMatch) 0 ∧ g.pkt = f.pkt) ∧
      (8 ≤ (s.parkedAt f.site).length → exec (.pairingArrival f.id) s = .next s)) ∧
    (s.eligibleHere f = false ∨ (s.partner f = none ∧ s.parkedAhead f = none ∧
        (a.win = 0 ∨ 8 ≤ (s.parkedAt f.site).length)) →
      ∃ t g, exec (.pairingArrival f.id) s = .next t ∧ g ∈ t.net ∧ g = { f with treated := true })) ∧
  (∀ s site f, oldest ((s.parkedAt site).filter fun g => decide (g.dueAt ≤ s.now) && s.parkedFirst g) = some f →
    ∃ t g, exec (.parkedDeparture site) s = .next t ∧ g ∈ t.net ∧ g.id = f.id ∧
      g.spot = .buffer ∧ g.treated = true ∧ ∀ a, pairInfo g.pkt = some a → a.win = 0)

/-! ## Translation -/

/-- R96, R97, R306: below 2^32 the core-local map itself names the place: the own scratchpad, the scratchpads of the 128
cores of the block, the cluster scratchpad; everything else below 2^32 but the own DRAM range, and everything at 2^48 or
above, is an access fault, and so is an operation on a synchronisation object there. A fetch other than from the own scratchpad and
the own DRAM range is one too, at or above 2^32 as well. -/
def Sys2Proof.Claims.LowAddressesTranslate : Prop :=
  ∀ (s : State) (who : Requester) (mode : Mode) (a : Acc) (va : Nat), let n := reqCore who
    (va < 0x8000 → a.sync ≠ 2 →
      s.translate who mode a va = .ok s (s.nearLoc ⟨.scratch, (s.core n).site, va⟩) true false) ∧
    (∀ m k site, k < 128 → va / 0x8000 = 128 + k → m < 524288 → coreLX m = coreLX n / 16 * 16 + k % 16 →
      coreLY m = coreLY n / 8 * 8 + k / 16 → s.siteOf m = some site → a.sync ≠ 2 → a.x = false →
      s.translate who mode a va = .ok s (s.nearLoc ⟨.scratch, site, va % 0x8000⟩) true false) ∧
    (0x80_0000 ≤ va → va < 0xA0_0000 → a.sync ≠ 2 → a.x = false →
      s.translate who mode a va = .ok s (s.nearLoc ⟨.cluster, coreCluster n, va - 0x80_0000⟩) true false) ∧
    ((0x8000 ≤ va ∧ va < 0x40_0000) ∨ (0xA0_0000 ≤ va ∧ va < 0x4000_0000) ∨ (0x4040_0000 ≤ va ∧ va < 2 ^ 32) ∨ 2 ^ 48 ≤ va →
      s.translate who mode a va = .fault s cAccess) ∧
    (a.sync = 2 → va < 0x4000_0000 → s.translate who mode a va = .fault s cAccess) ∧
    (a.x = true → 0x8000 ≤ va → ¬ (0x4000_0000 ≤ va ∧ va < 0x4040_0000) → s.translate who mode a va = .fault s cAccess)

/-- R95, R96, R306, R307, R309, R310, R313: an address at or above 2^32, or one of the own DRAM range, which stands for the slot of
the core in the logical-core window, of which the requester holds the leaf. The checks are made in the
order sync space, rights, bounds; the place is the leaf's frame and the offset in the page, of a target-5 page the row's cores
one after the other. The top 128 KiB of a DRAM region, by the offset in the window slot or in the region of which the place is
a part, are closed to app mode. -/
def Sys2Proof.Claims.HighAddressesTranslate : Prop :=
  ∀ (s : State) (who : Requester) (mode : Mode) (a : Acc) (given va : Nat) (p : Page),
    (given = va ∧ 2 ^ 32 ≤ va ∧ va < 2 ^ 48 ∧ a.x = false) ∨
      (0x4000_0000 ≤ given ∧ given < 0x4040_0000 ∧
        va = 0x400_0000_0000 + reqCore who * 0x80_0000 + 0x40_0000 + (given - 0x4000_0000)) →
    s.slotBad va = false →
    (s.core (reqCore who)).held who va = some p →
    let e := p.leaf.toNat
    let target := bits e 32 30
    let site := bits e 53 33
    let modl := bits e 63 54
    let off := bits e 29 20 * 0x1_0000 + (va - p.base)
    let rights := (mode = .app → bit e 8 = true) ∧ (a.r = true → bit e 9 = true) ∧ (a.w = true → bit e 10 = true) ∧
      (a.x = true → bit e 11 = true)
    (bit e 7 = true → ∃ t, s.translate who mode a given = .wait t) ∧
    (bit e 7 = false →
      (target = 4 → a.sync = 0 → ∃ t, s.translate who mode a given = .fault t cSync) ∧
      (target ≠ 4 → a.sync = 2 → ∃ t, s.translate who mode a given = .fault t cAccess) ∧
      (target = 4 → a.sync ≠ 0 → modl ≠ s.moduleId → ∃ t, s.translate who mode a given = .fault t cAccess) ∧
      (¬ rights → (target = 4 ↔ a.sync ≠ 0) → ∃ t, s.translate who mode a given = .fault t cAccess) ∧
      (rights → s.bringup.sapling = false → ∀ space owner,
        ((target = 0 ∧ space = .dram ∧ owner = site) ∨ (target = 1 ∧ space = .scratch ∧ owner = site) ∨
         (target = 2 ∧ space = .cluster ∧ owner = siteCluster site) ∨ (target = 3 ∧ space = .die ∧ owner = siteDie site) ∨
         (target = 4 ∧ space = .sync ∧ owner = siteDie site)) →
        (target = 4 → a.sync ≠ 0 ∧ modl = s.moduleId) → (target ≠ 4 → a.sync ≠ 2) →
        let reserved := (∃ o, slotDramOff va = some o ∧ 0x3E_0000 ≤ o) ∨
          (slotDramOff va = none ∧ space = .dram ∧ 0x3E_0000 ≤ s.regionOff owner off)
        (off < space.size → (mode = .app → ¬ reserved) →
          ∃ t l near own, s.translate who mode a given = .ok t l near own ∧ l.mod = modl ∧ l.place = ⟨space, owner, off⟩ ∧
            l.tracked = bit e 13 ∧ l.notrace = bit e 12 ∧ l.fifo = bit e 14 ∧
            (near = true ↔ modl = s.moduleId ∧ space = .cluster ∧ owner = coreCluster (reqCore who))) ∧
        (space.size ≤ off ∨ (mode = .app ∧ reserved) → ∃ t, s.translate who mode a given = .fault t cAccess)) ∧
      (rights → s.bringup.sapling = false → target = 5 → a.sync ≠ 2 →
        let j := off / 0x40_0000
        let p : Place := ⟨.dram, site + (if j < s.skip site then j else j + 1), off % 0x40_0000⟩
        let reserved := (∃ o, slotDramOff va = some o ∧ 0x3E_0000 ≤ o) ∨
          (slotDramOff va = none ∧ 0x3E_0000 ≤ s.regionOff p.owner p.off)
        ((mode = .app → ¬ reserved) →
          ∃ t l near own, s.translate who mode a given = .ok t l near own ∧ l.mod = modl ∧ l.place = p) ∧
        (mode = .app → reserved → ∃ t, s.translate who mode a given = .fault t cAccess)))

/-- R307: an address of the logical-core window whose slot's core is absent, or in the hole of the slot, is an access
fault. -/
def Sys2Proof.Claims.WindowHolesFault : Prop :=
  ∀ (s : State) (who : Requester) (mode : Mode) (a : Acc) n o, n < 524288 → o < 0x80_0000 → a.x = false →
    (s.siteOf n = none ∨ (0x8000 ≤ o ∧ o < 0x40_0000)) →
    s.translate who mode a (0x400_0000_0000 + n * 0x80_0000 + o) = .fault s cAccess

/-- R309: the walk of a die's copy of the table; a target-5 leaf over a disabled row is malformed. Its root is the model's choice of place (log entry 12). -/
def Sys2Proof.Claims.WalkReadsTheTable : Prop :=
  ∀ (s : State) die va,
    let entry := fun off i => leNat (s.readPlace ⟨.die, die, off + 8 * i⟩ 8)
    let e0 := entry rootTable (bits va 47 36)
    let e1 := entry (bits e0 24 3 * 8) (bits va 35 26)
    let e2 := entry (bits e1 24 3 * 8) (bits va 25 21)
    let e3 := entry (bits e2 24 3 * 8) (bits va 20 16)
    let inner := fun e => bit e 0 = true ∧ bit e 1 = false
    let leaf := fun e => bit e 0 = true ∧ bit e 1 = true
    (bit e0 0 = false ∨ (inner e0 ∧ (bit e1 0 = false ∨ (inner e1 ∧ (bit e2 0 = false ∨ (inner e2 ∧ bit e3 0 = false))))) →
      s.walkTable die va = .none) ∧
    let barred := bits e1 63 54 = s.moduleId ∧ s.skip (bits e1 53 33) = 31
    (leaf e0 → s.walkTable die va = .malformed e0) ∧
    (inner e0 → leaf e1 → (leafOk e1 1 = true → ¬ barred → s.walkTable die va = .leaf ⟨va - va % 2 ^ 26, 2 ^ 26, w64 e1⟩) ∧
      (leafOk e1 1 = false ∨ barred → s.walkTable die va = .malformed e1)) ∧
    (inner e0 → inner e1 → leaf e2 → (leafOk e2 2 = true → s.walkTable die va = .leaf ⟨va - va % 2 ^ 21, 2 ^ 21, w64 e2⟩) ∧
      (leafOk e2 2 = false → s.walkTable die va = .malformed e2)) ∧
    (inner e0 → inner e1 → inner e2 → leaf e3 →
      (leafOk e3 3 = true → s.walkTable die va = .leaf ⟨va - va % 2 ^ 16, 2 ^ 16, w64 e3⟩) ∧
      (leafOk e3 3 = false → s.walkTable die va = .malformed e3)) ∧
    (inner e0 → inner e1 → inner e2 → inner e3 → s.walkTable die va = .malformed e3)

/-- R311, R312: the leaf for an address comes from the requester's holder, else from the die cache, else from a walk: the
request joins the walk of its page, takes one of 96 walkers, waits in a queue of 256, or is refused. One whose own walk has failed
takes its fault (R313). -/
def Sys2Proof.Claims.LeafSearch : Prop :=
  ∀ (s : State) (who : Requester) (va : Nat), let n := reqCore who
    let dn := siteDie (s.core n).site
    let d := s.die dn
    let page := va / 0x1_0000
    (d.failed.contains (page, who, s.reqEpoch who) = true →
      ∃ t, s.leafFor who va = .none t ∧ (page, who, s.reqEpoch who) ∉ (t.die dn).failed) ∧
    (d.failed.contains (page, who, s.reqEpoch who) = false →
    (∀ p, (s.core n).held who va = some p → ∃ t, s.leafFor who va = .found t p ∧ t.dies = s.dies ∧ t.mem = s.mem) ∧
    (∀ p, (s.core n).held who va = none → d.probe va = some p → p.covers va = true →
      Stands s who →
      ∃ t, s.leafFor who va = .found t p ∧ t.mem = s.mem ∧ (t.core n).held who va = some p) ∧
    ((s.core n).held who va = none → d.probe va = none →
      d.waiting page who = true → s.leafFor who va = .wait s) ∧
    ((s.core n).held who va = none → d.probe va = none →
      d.waiting page who = false → ∃ t, s.leafFor who va = .wait t ∧ t.mem = s.mem ∧ (t.die dn).waiting page who = true ∧
        let walked := ∃ w ∈ d.walks, w.page = page
        (walked → (t.die dn).walks.length = d.walks.length ∧ (t.die dn).missq = d.missq) ∧
        (¬ walked → d.walks.length < 96 → (t.die dn).walks = d.walks ++ [⟨page, [who]⟩]) ∧
        (¬ walked → 96 ≤ d.walks.length → d.missq.length < 256 → (t.die dn).missq = d.missq ++ [(page, who)] ∧
          (t.die dn).walks = d.walks) ∧
        (¬ walked → 96 ≤ d.walks.length → 256 ≤ d.missq.length → (t.die dn).refusedMiss = d.refusedMiss ++ [(page, who)] ∧
          (t.die dn).missq = d.missq ∧ (t.die dn).walks = d.walks)))

/-- R309, R311–R314: a walk's result reaches every requester it serves (an address generator that has ended needs none), and its
walker is free. That XLATE_BAD names the malformed entry is the model's choice of log entry 103. -/
def Sys2Proof.Claims.WalksComplete : Prop :=
  ∀ (s : State) dn page w, (s.die dn).walks.find? (fun w => w.page == page) = some w → (s.die dn).missq = [] →
    let va := page * 0x1_0000
    let freed := fun t : State => (t.die dn).walks = (s.die dn).walks.filter (fun v => v.page != page) ∧ t.ctxs = s.ctxs
    (∀ p, s.walkTable dn va = .leaf p → bit p.leaf.toNat 7 = false → ∃ t, exec (.walkComplete dn page) s = .next t ∧ freed t ∧
      t.mem = s.mem ∧ (∀ r ∈ w.reqs, Stands s r → (t.core (reqCore r)).held r va = some p) ∧
      ((t.die dn).dtc.at (dtcSet p.base p.size) []).head? = some p) ∧
    (∀ p, s.walkTable dn va = .leaf p → bit p.leaf.toNat 7 = true → ∃ t, exec (.walkComplete dn page) s = .next t ∧ freed t ∧
      t.cores = s.cores ∧ ∀ r ∈ w.reqs, (page, r) ∈ (t.die dn).busyWait) ∧
    (s.walkTable dn va = .none → ∃ t, exec (.walkComplete dn page) s = .next t ∧ freed t ∧ t.cores = s.cores ∧
      t.mem = s.mem ∧ ∀ r ∈ w.reqs, (page, r, s.reqEpoch r) ∈ (t.die dn).failed) ∧
    (∀ e, s.walkTable dn va = .malformed e → ∃ t, exec (.walkComplete dn page) s = .next t ∧ freed t ∧ t.cores = s.cores ∧
      (t.die dn).seq = (s.die dn).seq + 1 ∧ ∀ r ∈ w.reqs, (page, r, s.reqEpoch r) ∈ (t.die dn).failed)

/-- R312, R314: a refused miss, and a translation that met a busy leaf, is tried again: it joins or begins a walk, and it is
refused again where walkers and queue are full. -/
def Sys2Proof.Claims.MissesAreTriedAgain : Prop :=
  ∀ (s : State) dn r page, let d := s.die dn
    let walked := ∃ w ∈ d.walks, w.page = page
    let tried := fun (t : State) (k : Die) =>
      (walked → (t.die dn).walks = d.walks.map (fun w => if w.page = page then { w with reqs := w.reqs ++ [r] } else w) ∧
        (t.die dn).missq = d.missq) ∧
      (¬ walked → d.walks.length < 96 → (t.die dn).walks = d.walks ++ [⟨page, [r]⟩] ∧ (t.die dn).missq = d.missq) ∧
      (¬ walked → 96 ≤ d.walks.length → d.missq.length < 256 →
        (t.die dn).walks = d.walks ∧ (t.die dn).missq = d.missq ++ [(page, r)]) ∧
      (¬ walked → 96 ≤ d.walks.length → 256 ≤ d.missq.length →
        (t.die dn).walks = d.walks ∧ (t.die dn).missq = d.missq ∧ (t.die dn).refusedMiss = k.refusedMiss ++ [(page, r)]) ∧
      t = { s with dies := t.dies } ∧ ∀ k, k ≠ dn → t.dies.look k = s.dies.look k
    ((page, r) ∈ d.refusedMiss → ∃ t, exec (.missRetry dn r page) s = .next t ∧
      tried t { d with refusedMiss := d.refusedMiss.filter fun e => e != (page, r) }) ∧
    ((page, r) ∈ d.busyWait → ∃ t, exec (.busyRetry dn r page) s = .next t ∧ tried t d ∧ (page, r) ∉ (t.die dn).busyWait)

/-- R309, R314: die management writes a leaf in four steps: the old entry turns busy, the page leaves every holder, the
accesses under it are waited for, in whichever module it names, and data, with the errors in them, and new entry are written. A
leaf that another move of die management holds waits, and what moves from or to another module lies outside State: the model's
reading and choice (log entries 119 and 125). -/
def Sys2Proof.Claims.PageUpdateSteps : Prop :=
  ∀ (s : State) (va : VAddr) (leaf : Word) move slot, leafWritable leaf.toNat = true → s.leafSlot va.toNat (leafLevel leaf.toNat) = some slot →
    let e := leaf.toNat
    let size := leafSize e
    let base := va.toNat / size * size
    let old := s.ptEntry 0 slot
    (s.pageMove = none → s.leafTaken slot = true → exec (.pageUpdate va leaf move) s = .next s) ∧
    (s.pageMove = none → s.leafTaken slot = false → bit old 0 = true → bit old 1 = true → bit old 7 = false → ∃ t,
      exec (.pageUpdate va leaf move) s = .next t ∧ t.pageMove = some ⟨va.toNat, leaf, 1, w64 old, move⟩ ∧
        (∀ d, d < 64 → t.mem.readN (⟨.die, d, slot⟩ : Place).phys 8 = natLE 8 (old + 128)) ∧
        t = { s with pageMove := t.pageMove, mem := t.mem, poison := t.poison }) ∧
    (s.pageMove = none → s.leafTaken slot = false → bit old 0 = false → exec (.pageUpdate va leaf move) s =
      .next { s with pageMove := some ⟨va.toNat, leaf, 1, w64 old, move⟩ }) ∧
    (∀ m, s.pageMove = some m → m.va = va.toNat → m.leaf = leaf → m.move = move →
      (m.step = 1 → ∃ t, exec (.pageUpdate va leaf move) s = .next t ∧ t.pageMove = some { m with step := 2 } ∧
        t.mem = s.mem ∧ (∀ n k, t.ctx n k = { s.ctx n k with checks := (t.ctx n k).checks }) ∧
        (∀ n p, p ∈ (t.core n).utlb → ¬ (p.base < base + size ∧ base < p.base + p.size)) ∧
        (∀ d k p, p ∈ (t.die d).dtc.at k [] → ¬ (p.base < base + size ∧ base < p.base + p.size))) ∧
      (m.step = 2 → (bit m.old.toNat 0 = true → (∃ r ∈ s.leafRuns m.old.toNat, s.runBusyIn (bits m.old.toNat 63 54) r.1 r.2 = true) → exec (.pageUpdate va leaf move) s = .next s) ∧
        ((bit m.old.toNat 0 = true → ∀ r ∈ s.leafRuns m.old.toNat, s.runBusyIn (bits m.old.toNat 63 54) r.1 r.2 = false) → exec (.pageUpdate va leaf move) s =
          .next { s with pageMove := some { m with step := 3 } })) ∧
      (m.step = 3 → ∃ t, exec (.pageUpdate va leaf move) s = .next t ∧ t.pageMove = none ∧ t.cores = s.cores ∧
        (∀ d, d < 64 → t.mem.readN (⟨.die, d, slot⟩ : Place).phys 8 = natLE 8 e) ∧
        (move = false → ∀ a, (∀ d, d < 64 → a < (⟨.die, d, slot⟩ : Place).phys ∨ (⟨.die, d, slot⟩ : Place).phys + 8 ≤ a) →
          t.mem.read a = s.mem.read a) ∧
        (move = true → leafLevel e = 3 → leafLevel m.old.toNat = 3 → bits e 32 30 = 0 → bits m.old.toNat 32 30 = 0 →
          bits e 63 54 = s.moduleId → bits m.old.toNat 63 54 = s.moduleId → bit m.old.toNat 0 = true →
          (∀ i, i < 0x1_0000 →
            t.mem.read ((leafPlace e).phys + i) = s.mem.read ((leafPlace m.old.toNat).phys + i)) ∧
          ∀ u, u < 0x800 → t.poisoned { leafPlace e with off := (leafPlace e).off + 32 * u } 32 =
            s.poisoned { leafPlace m.old.toNat with off := (leafPlace m.old.toNat).off + 32 * u } 32)))

/-! ## Checked pairs and migration -/

/-- R204: PAIR copies the scratchpad to the site beside the core's, which becomes its shadow, and frees the context; at the
row's edge or beside a site that is not spare it is an access trap, on a paired core an illegal instruction, and while
another context runs or a queue is not drained it stalls. TRAPVAL at the row's edge is the model's reading of log entry 94. -/
def Sys2Proof.Claims.PairResults : Prop :=
  ∀ (s : State) west, let c := s.myCore
    let target := if west then c.site - 1 else c.site + 1
    let edge := sitePos c.site = if west then 0 else 16
    s.me.mode = .system → s.me.act ≠ none →
      (edge ∨ s.isSpare target = false → ∃ t, exec (.pair west) s = .next t ∧
        CoreFaulted s t s.focus.core s.focus.ctx cAccess (w64 target) s.me.pc) ∧
      (¬ edge → s.isSpare target = true → c.pair ≠ none → ∃ t, exec (.pair west) s = .next t ∧
        CoreFaulted s t s.focus.core s.focus.ctx cIllegal (wordOf (.pair west)) s.me.pc) ∧
      (¬ edge → s.isSpare target = true → c.pair = none → (s.othersActive = true ∨ c.queuesDrained = false) →
        exec (.pair west) s = .next s) ∧
      (¬ edge → s.isSpare target = true → c.pair = none → s.othersActive = false → c.queuesDrained = true →
        ∃ t, exec (.pair west) s = .next t ∧ t.myCore.pair = some ⟨target, [], [], [], [], none⟩ ∧ t.me.act = none ∧
          t.me.pc = s.me.pc ∧ (t.site target).state = .good ∧ (t.site target).shadowOf = some s.focus.core ∧
          (∀ i, i < 0x8000 → t.mem.read ((⟨.scratch, target, i⟩ : Place).phys) = s.mem.read ((⟨.scratch, c.site, i⟩ : Place).phys)) ∧
          SameMemoryBut s t ⟨.scratch, target, 0⟩ 0x8000)

/-- R206: UNPAIR does nothing on an unpaired core; else it stalls until no other context runs, the shadow is a spare site
again and the context is free. -/
def Sys2Proof.Claims.UnpairResults : Prop :=
  ∀ (s : State), s.me.mode = .system → s.me.act ≠ none →
    (s.myCore.pair = none → ∃ t, exec .unpair s = .next t ∧ Jumps s t (s.me.pc + 4)) ∧
    (∀ p, s.myCore.pair = some p → s.othersActive = true → exec .unpair s = .next s) ∧
    (∀ p, s.myCore.pair = some p → s.othersActive = false → ∃ t, exec .unpair s = .next t ∧ t.myCore.pair = none ∧
      t.me.act = none ∧ (t.site p.shadow).state = .spare ∧ (t.site p.shadow).shadowOf = none ∧ t.mem = s.mem ∧
      t.net.map (fun f => f.pkt) = s.net.map (fun f => f.pkt) ++ p.waiting.map (fun w => w.pkt))

/-- R207: MIGRATE begins a move and frees the context; a target that is not a spare site is an access trap, a paired core an
illegal instruction. That a second MIGRATE keeps the first is the model's reading of log entry 58, and that of two failing checks
the pair's is reported is its choice of log entry 96. -/
def Sys2Proof.Claims.MigrateResults : Prop :=
  ∀ (s : State) a full, let i : Instr := if full then .migrateFull a else .migrateCtx a
    s.me.mode = .system → s.me.act ≠ none →
      (s.myCore.pair ≠ none → ∃ t, exec i s = .next t ∧
        CoreFaulted s t s.focus.core s.focus.ctx cIllegal (wordOf i) s.me.pc) ∧
      (s.myCore.pair = none → s.isSpare (s.x a).toNat = false → ∃ t, exec i s = .next t ∧
        CoreFaulted s t s.focus.core s.focus.ctx cAccess (s.x a) s.me.pc) ∧
      (s.myCore.pair = none → s.isSpare (s.x a).toNat = true → s.myCore.mig = none → ∃ t, exec i s = .next t ∧
        t.myCore.mig = some ⟨(s.x a).toNat, full, 0, 0, 0, s.now, false, []⟩ ∧ t.me.act = none ∧ t.mem = s.mem ∧
        (t.site (s.x a).toNat).migTarget = some s.focus.core ∧
        ∀ k, k ≠ 4 * s.focus.core + s.focus.ctx → t.ctxs.look k = s.ctxs.look k) ∧
      (∀ m, s.myCore.pair = none → s.isSpare (s.x a).toNat = true → s.myCore.mig = some m → ∃ t, exec i s = .next t ∧
        t.myCore.mig = some m ∧ t.me.act = none ∧ t.mem = s.mem ∧ t.sites = s.sites)

/-- R39, R204, R206, R207: in app mode PAIR, UNPAIR and MIGRATE are illegal instructions. -/
def Sys2Proof.Claims.MovesAreSystemOnly : Prop :=
  ∀ (s : State) a west, s.me.mode = .app → s.me.act ≠ none →
    ∀ i ∈ [Instr.pair west, .unpair, .migrateCtx a, .migrateFull a],
      ∃ t, exec i s = .next t ∧ TrapEntered s t s.focus.core s.focus.ctx cIllegal (wordOf i) s.me.pc

/-- The request of a dropped packet, if it has one, is the only one of its instruction and belongs to the sender. -/
def Sys2Proof.Claims.OneRequest (s : State) (core : Nat) (p : Packet) (w : Sender) : Prop :=
  isReplyKind p.hdr.kind = true ∨ (packetReq p).bind s.req = none ∨
    ∃ r e, (packetReq p).bind s.req = some r ∧ r.owner = .ctx core w.ctx e ∧ ∀ x ∈ s.reqs, x.group = r.group → x.id = r.id

/-- R25, R204, R205: the twin of the oldest waiting packet: it matches within 64 cycles and the packet enters the router; or both
are dropped, and the first mismatch of the activation that sent it replays that activation at once, the second in the replay is
a pair fault; an activation that a mismatch has ended meets no second one. The rules for an activation in system mode and for one that has ended are the model's readings (log entries 19
and 83). -/
def Sys2Proof.Claims.TwinResults : Prop :=
  ∀ (s : State) core p w rest, (s.core core).pair = some p → p.waiting = w :: rest →
    (s.now ≤ w.since + 64 →
      (∃ t f, exec (.twinCompare core false) s = .next t ∧ f ∈ t.net ∧ f.pkt = w.pkt ∧ f.id = s.fresh ∧
        f.site = (s.core core).site ∧ t.net.map (fun g => g.pkt) = s.net.map (fun g => g.pkt) ++ [w.pkt] ∧
        (t.core core).pair = some { p with waiting := rest } ∧ AllButPushes s t ∧ t.mem = s.mem) ∧
      exec (.twinTimeout core) s = .next s) ∧
    (w.since + 64 < s.now → ∃ t, exec (.twinTimeout core) s = .next t ∧ exec (.twinCompare core true) s = .next t ∧
      exec (.twinCompare core false) s = .next t) ∧
    (w.sender = none → isReplyKind w.pkt.hdr.kind = true ∨ (packetReq w.pkt).bind s.req = none →
      ∃ t, exec (.twinCompare core true) s = .next t ∧ (t.core core).pair = some { p with waiting := rest } ∧
        t = { s with cores := t.cores }) ∧
    (∀ q, w.sender = some q → Sys2Proof.Claims.OneRequest s core w.pkt q → q.act.mode = .app →
      let running := (s.ctx core q.ctx).epoch = q.epoch ∧ (s.ctx core q.ctx).act = some q.act
      let here := (q.ctx, q.epoch)
      (here ∈ p.spent → ∃ t, exec (.twinCompare core true) s = .next t ∧ (t.core core).pair = some { p with waiting := rest } ∧
        (t.ctx core q.ctx).act = (s.ctx core q.ctx).act ∧ (t.core core).queues = (s.core core).queues ∧ t.net = s.net ∧
        t.mem = s.mem) ∧
      (here ∉ p.spent → here ∉ p.replays → running → ∀ tag, q.act.tag = some tag →
        ∃ t p', exec (.twinCompare core true) s = .next t ∧
          (t.ctx core q.ctx).act = some ⟨.app, some tag, q.act.origin, ((s.core core).table.at tag .blank).role, s.now + 8, false⟩ ∧
          (t.core core).pair = some p' ∧ p'.waiting = rest ∧ (q.ctx, (t.ctx core q.ctx).epoch) ∈ p'.replays ∧ here ∈ p'.spent ∧
          (∀ m, q.act.origin = .message m → (t.ctx core q.ctx).actmsg = actmsgWord { m with replayed := true }) ∧
          (∀ n, q.act.origin = .close n → (t.ctx core q.ctx).actmsg = w64 (2 ^ 40 + n % 2 ^ 32)) ∧
          t.net = s.net ∧ t.mem = s.mem ∧ ∀ k, k ≠ 4 * core + q.ctx → t.ctxs.look k = s.ctxs.look k) ∧
      (here ∉ p.spent → here ∈ p.replays → running → q.act.tag ≠ none → ∃ t p', exec (.twinCompare core true) s = .next t ∧
          (t.ctx core q.ctx).mode = .system ∧ (t.ctx core q.ctx).trapcause = w64 (512 * q.ctx + 0x0D) ∧
          (t.ctx core q.ctx).trapval = 2 ∧ (t.ctx core q.ctx).trappc = (s.ctx core q.ctx).pc ∧
          (t.core core).pair = some p' ∧ p'.waiting = rest ∧ p'.broken = some (q.ctx, (t.ctx core q.ctx).epoch) ∧ t.net = s.net ∧
          (t.die (siteDie (s.core core).site)).seq = (s.die (siteDie (s.core core).site)).seq + 1) ∧
      (here ∉ p.spent → here ∉ p.replays → (s.ctx core q.ctx).epoch ≠ q.epoch → ∀ m tag, q.act.origin = .message m →
        q.act.tag = some tag → ∃ t p', exec (.twinCompare core true) s = .next t ∧
          (t.core core).queues.at m.queue [] = { m with lock := none, replayed := true } :: (s.core core).queues.at m.queue [] ∧
          (t.core core).pair = some p' ∧ (tag, .message { m with lock := none, replayed := true }) ∈ p'.again ∧ here ∈ p'.spent) ∧
      (here ∉ p.spent → here ∉ p.replays → (s.ctx core q.ctx).epoch ≠ q.epoch → ∀ seq tag, q.act.origin = .close seq →
        q.act.tag = some tag → ∃ t, exec (.twinCompare core true) s = .next t ∧ (t.core core).reclose = (s.core core).reclose ++
          [(tag, seq, (((s.core core).rounds.at tag .blank).cur + 65535) % 65536)]) ∧
      (here ∉ p.spent → here ∈ p.replays → (s.ctx core q.ctx).epoch ≠ q.epoch → q.act.tag ≠ none →
        ∃ t p', exec (.twinCompare core true) s = .next t ∧ (t.core core).sysq = (s.core core).sysq ++ [.pairFault q.act] ∧
          (t.core core).pair = some p' ∧ here ∈ p'.spent ∧
          (t.die (siteDie (s.core core).site)).seq = (s.die (siteDie (s.core core).site)).seq + 1))

/-- R207: the drain of a move: activations may end for 65,536 cycles; what runs then is aborted with cause ACTTIME at its
instruction that has not completed, all four trap registers written, and its message kept; the move goes on to its drain when the core is quiet. -/
def Sys2Proof.Claims.MovesEndActivations : Prop :=
  ∀ (s : State) core m, (s.core core).mig = some m → m.phase = 0 →
    (s.now < m.since + 65536 → exec (.migrationDrainTimeout core) s = .next s) ∧
    (m.since + 65536 ≤ s.now → ∃ t, exec (.migrationDrainTimeout core) s = .next t ∧
      (t.core core).mig = some { m with phase := 1, since := s.now } ∧ t.mem = s.mem ∧
      (∀ k, k < 4 → (t.ctx core k).act = none) ∧
      (∀ k a, k < 4 → (s.ctx core k).act = some a → a.mode = .app →
        (t.ctx core k).trapcause = w64 (512 * k + cActtime) ∧ (t.ctx core k).trapval = (t.ctx core k).trappc ∧
        ((∀ r ∈ s.reqs, r.holds = true → r.owner ≠ .ctx core k (s.ctx core k).epoch) → (t.ctx core k).trappc = (s.ctx core k).pc) ∧
        ((t.ctx core k).trappc ≠ (s.ctx core k).pc → ∃ r ∈ s.reqs, r.holds = true ∧ r.owner = .ctx core k (s.ctx core k).epoch ∧
          (t.ctx core k).trappc = r.pc) ∧ (t.ctx core k).trapmsg = (s.ctx core k).actmsg ∧
        ∀ g, a.origin = .message g → ∃ g' ∈ (t.core core).queues.at g.queue [], g' = { g with lock := none, replayed := true }) ∧
      ∀ k, k < 4 * core ∨ 4 * core + 4 ≤ k → t.ctxs.look k = s.ctxs.look k) ∧
    (∀ crc u g, s.quiet core = true → exec (.migrationTransfer core crc u g) s =
      .next (s.setCore core { s.core core with mig := some { m with phase := 1, since := s.now } })) ∧
    (∀ crc u g, s.quiet core = false → exec (.migrationTransfer core crc u g) s = .next s)

/-- R207, R209: when the queues are drained and no store is outstanding, within 65,536 cycles, the save sets out: its parts in
ascending number, each in ascending unit, at most 8 units in a packet on the way to the target. A drain that ends later is
abandoned. The number of units of each part is the model's choice of log entry 20, what else the drain waits for is log entry 96. -/
def Sys2Proof.Claims.MovesSendTheSave : Prop :=
  (∀ (s : State) core m crc u g, (s.core core).mig = some m → m.phase = 1 →
    (m.since + 65536 < s.now → ∃ t, exec (.migrationTransfer core crc u g) s = .next t ∧ (t.core core).mig = none) ∧
    (s.now ≤ m.since + 65536 → s.moveReady core = false → exec (.migrationTransfer core crc u g) s = .next s) ∧
    (s.now ≤ m.since + 65536 → s.moveReady core = true → ∀ v, s.splitRows (s.core core).region = some v →
      ∃ t l, exec (.migrationTransfer core crc u g) s = .next t ∧
        (t.core core).mig = some { m with phase := 2, part := 0, unit := 0, since := s.now, leaves := l })) ∧
  (∀ (s : State) core m crc u g, (s.core core).mig = some m → m.phase = 2 → s.moveArrived core m.target = none →
    let all := if m.part = 0 then 1024 else if m.part = 8 then (if m.full then 0x2_0000 else 0) else if m.part = 9 then 1 else 8
    (m.part ≤ 9 → m.unit < all → ∃ t f, exec (.migrationTransfer core crc u g) s = .next t ∧ f ∈ t.net ∧ f.id = s.fresh ∧
      f.site = (s.core core).site ∧ f.pkt.hdr.kind = .migrate ∧ f.pkt.hdr.sch = m.part ∧ f.pkt.hdr.dsite = m.target ∧
      f.pkt.hdr.score = core ∧ (f.pkt.hdr.ext = false → pktFlits f.pkt = 1 + min 8 (all - m.unit)) ∧
      (t.core core).mig = some { m with unit := m.unit + min 8 (all - m.unit) } ∧ AllButPushes s t ∧ t.mem = s.mem) ∧
    (m.part ≤ 9 → all ≤ m.unit → exec (.migrationTransfer core crc u g) s =
      .next (s.setCore core { s.core core with mig := some { m with part := m.part + 1, unit := 0 } })) ∧
    (9 < m.part → exec (.migrationTransfer core crc u g) s = .next s))

/-- A transfer packet of a core stands at a site. -/
def Sys2Proof.Claims.MoveFlight (core target : Nat) (f : Flight) : Prop :=
  f.site = target ∧ f.spot = .eject 0 ∧ f.pkt.hdr.kind = .migrate ∧ f.pkt.hdr.score = core

/-- R209, R211: a transfer packet at the target: a part is taken; the end packet installs the save, or abandons the move
where its check fails. -/
def Sys2Proof.Claims.MovesInstall : Prop :=
  ∀ (s : State) core m f crc, (s.core core).mig = some m → m.phase = 2 → s.moveArrived core m.target = some f →
    (∀ g ∈ s.net, g.id = f.id → g = f) →
    (∀ n a b, f.pkt.body = .migrate (.part n) a b → n ≤ 8 → ∃ t, exec (.migrationTransfer core crc [] []) s = .next t ∧
      (∀ g ∈ t.net, g.id ≠ f.id) ∧ t.cores = s.cores ∧ t.mem = s.mem) ∧
    (∀ a b, f.pkt.body = .migrate .endPart a b → crc = false → ∃ t, exec (.migrationTransfer core crc [] []) s = .next t ∧
      (t.core core).mig = none ∧ (t.core core).site = (s.core core).site ∧ (t.site m.target).state = .fenced ∧
      (∀ g ∈ t.net, ¬ Sys2Proof.Claims.MoveFlight core m.target g) ∧
      ((∀ g ∈ s.net, Sys2Proof.Claims.MoveFlight core m.target g → g = f) →
        (t.die (siteDie (s.core core).site)).seq = (s.die (siteDie (s.core core).site)).seq + 1)) ∧
    (∀ a b, f.pkt.body = .migrate .endPart a b → crc = true → (s.site m.target).state = .spare →
      s.moveStill (s.core core) m = true → m.leaves = [] → m.dark = false → m.target ≠ (s.core core).site →
      siteExists m.target = true → siteExists (s.core core).site = true → (s.core core).pair = none → ∃ t, exec (.migrationTransfer core crc [] []) s = .next t ∧ (t.core core).site = m.target ∧ (t.core core).mig = none ∧
        (t.core core).region = (if m.full then m.target else (s.core core).region) ∧
        (t.core core).table = (s.core core).table ∧ (t.core core).queues.look = (s.core core).queues.look ∧
        (t.core core).tagen = (s.core core).tagen ∧ (t.core core).bound = (s.core core).bound ∧
        (t.core core).qstat = (s.core core).qstat ||| 256 ∧ (t.core core).mb0 = .blank ∧ (t.core core).cmds = [] ∧
        (t.site (s.core core).site).fwd = some m.target ∧ (t.site (s.core core).site).core = none ∧
        (t.site m.target).core = some core ∧ (t.site m.target).state = .good ∧
        (∀ k, k < 4 → (t.ctx core k).ld = 0 ∧ (t.ctx core k).st = 0 ∧ (t.ctx core k).sy = 0) ∧
        (∀ i, i < 0x8000 → t.mem.read ((⟨.scratch, m.target, i⟩ : Place).phys) =
          s.mem.read ((⟨.scratch, (s.core core).site, i⟩ : Place).phys)))

/-- R209, R211: an error at the target fences it and abandons the move, a drain past its limit abandons it without fencing: the
core stays and takes activations again, and no transfer packet is left at the site. -/
def Sys2Proof.Claims.MovesAreAbandoned : Prop :=
  ∀ (s : State) core m err, (s.core core).mig = some m →
    ((err = true ∧ m.phase = 2) ∨ (err = false ∧ m.phase = 1 ∧ m.since + 65536 < s.now) →
      ∃ t, exec (.migrationAbandon core err) s = .next t ∧ t.core core = { s.core core with mig := none } ∧
        (t.site m.target).state = (if err then .fenced else (s.site m.target).state) ∧ (t.site m.target).migTarget ≠ some core ∧
        (∀ g ∈ t.net, ¬ Sys2Proof.Claims.MoveFlight core m.target g) ∧
        ((∀ g ∈ s.net, ¬ Sys2Proof.Claims.MoveFlight core m.target g) → t.net = s.net ∧
          (t.die (siteDie (s.core core).site)).seq = (s.die (siteDie (s.core core).site)).seq + 1) ∧ t.ctxs = s.ctxs) ∧
    (¬ ((err = true ∧ m.phase = 2) ∨ (err = false ∧ m.phase = 1 ∧ m.since + 65536 < s.now)) →
      exec (.migrationAbandon core err) s = .next s)

/-- R210, R253, R277: the vacated site sends messages and markers on to the new site and tells their senders, and discards replies, of
which a PHASE's release still ends the phase; the entry stays until management retires it. That round markers and management messages
are sent on as well is log entry 105, and the runs management forms are those of log entry 11: the model's choices. -/
def Sys2Proof.Claims.VacatedSitesForward : Prop :=
  ∀ (s : State) site id f new, s.ejected id 0 = some f → f.site = site → (s.site site).fwd = some new →
    (f.pkt.hdr.kind = .data ∨ f.pkt.hdr.kind = .marker ∨ f.pkt.hdr.kind = .fence ∨ f.pkt.hdr.kind = .mgmt →
      ∃ t g, exec (.forwardPacket site id) s = .next t ∧ g ∈ t.net ∧ g.site = site ∧ g.id = s.fresh ∧
        g.pkt.body = f.pkt.body ∧ g.pkt.hdr.dsite = new ∧ g.pkt.hdr.kind = f.pkt.hdr.kind ∧ g.pkt.hdr.runs = s.managedRuns site new ∧
        Gone s t id ∧ t.mem = s.mem ∧ AllButPushes s t ∧ (PortsEmpty s site → t.ctxs = s.ctxs) ∧
        (f.pkt.hdr.smod = s.moduleId → (t.core f.pkt.hdr.score).sysq =
          (s.core f.pkt.hdr.score).sysq ++ [.moved (w64 (site * 2 ^ 21 + new))])) ∧
    (f.pkt.hdr.kind = .memRep ∨ f.pkt.hdr.kind = .syncRep ∨ f.pkt.hdr.kind = .pairRep →
      ∃ t, exec (.forwardPacket site id) s = .next t ∧ Gone s t id ∧ t.ctxs = s.ctxs ∧
        ((∀ rid, f.pkt.body ≠ .syncRep rid .done) → t.cores = s.cores) ∧
        (∀ rid r n p g, f.pkt.body = .syncRep rid .done → s.req rid = some r → r.target = .sync p (.phase g) →
          ownerCore r.owner = some n → g ∉ (t.core n).phases) ∧
        (t.die (siteDie site)).seq = (s.die (siteDie site)).seq + 1) ∧
    (∃ t, exec (.forwardingEntryRetire site) s = .next t ∧ (t.site site).fwd = none ∧
      (t.site site).core = (s.site site).core ∧ t = { s with sites := t.sites, stateGen := t.stateGen })

/-! ## Power, errors, bring-up -/

/-- R263, R264: a failed phase derates a cluster; a second one, or a failed controller, fences its sites and makes it dark, and
its cores begin to move, in ascending number, each to the next spare site of the die (log entry 18), as long as there is one; a power-on that is under way ends. So while the rail is on and no hold-up runs, in a stage of a power-on
as well; a cluster that is off has no regulator to fail. -/
def Sys2Proof.Claims.RegulatorFailures : Prop :=
  ∀ (s : State) cl, let c := s.cluster cl
    let live := c.rail ≠ 0 ∧ c.holdup = none
    (live → c.phases ≠ 5 → ∃ t, exec (.regPhase cl) s = .next t ∧ (t.cluster cl).reg = (if c.reg = 2 then 2 else 1) ∧
      (t.cluster cl).phases = 5 ∧
      (t.cluster cl).permitted = min c.permitted 100 ∧ (t.cluster cl).clock = min c.clock 1000 ∧
      (t.cluster cl).former = min c.former 1000 ∧
      (t.die (cl / 64)).seq = (s.die (cl / 64)).seq + 1 ∧ t.cores = s.cores ∧ t.ctxs = s.ctxs) ∧
    (live → c.phases = 5 → exec (.regPhase cl) s = exec (.regDark cl) s) ∧
    (¬ live → exec (.regPhase cl) s = .next s ∧ exec (.regDark cl) s = .next s) ∧
    (live → ∃ t, exec (.regDark cl) s = .next t ∧ (t.cluster cl).reg = 2 ∧ (t.cluster cl).holdup = some s.now ∧
      (t.cluster cl).stageAt = none ∧ (∀ x ∈ clusterSites cl, (t.site x).state = .fenced) ∧ AllButPushes s t ∧
      (∀ a n b, s.coresOn (clusterSites cl) = a ++ n :: b → (a ++ n :: b).Nodup →
        (∀ k ∈ a ++ n :: b, (s.core k).pair = none ∧ (s.core k).mig = none) →
        let free := (dieSites (cl / 64)).filter fun x => (s.darken cl).isSpare x && ((s.darken cl).site x).migTarget.isNone
        (∀ dst, free[a.length]? = some dst → (t.core n).mig = some ⟨dst, false, 0, 0, 0, s.now, false, []⟩) ∧
        (free[a.length]? = none → (t.core n).mig = none)) ∧
      (s.coresOn (clusterSites cl)).Pairwise (fun m n => m ≤ n))

/-- R264, R367: 100 µs after the failure the rail is off: the cores that have not moved are retired and the scratchpads of
the cluster have lost their contents; 100 µs after its failure so has the DRAM above a failed converter. That lost bytes read as 0 is
the model's choice of log entry 1, and microseconds are cycles of the module clock by log entry 3. -/
def Sys2Proof.Claims.HoldupEnds : Prop :=
  ∀ (s : State) cl, cl < 4096 →
    ((s.cluster cl).holdup = none → (s.die (cl / 64)).rehoming = [] → exec (.holdupEnd cl) s = .next s) ∧
    (∀ t0, (s.cluster cl).holdup = some t0 → s.now < t0 + 120000 → exec (.holdupEnd cl) s = .next s) ∧
    (∀ t0, (s.cluster cl).holdup = some t0 → t0 + 120000 ≤ s.now →
      let conv := (s.die (cl / 64)).convHold
      ∃ t, exec (.holdupEnd cl) s = .next t ∧ (t.cluster cl).rail = 0 ∧ (t.cluster cl).permitted = 0 ∧
        (t.cluster cl).stages = 0 ∧
        (∀ n ∈ s.coresOn (clusterSites cl), (t.core n).absent = true ∧ ∀ k, k < 4 → (t.ctx n k).act = none) ∧
        (∀ x ∈ clusterSites cl, ∀ i, i < 0x8000 → t.mem.read (⟨.scratch, x, i⟩ : Place).phys = 0) ∧
        (∀ i, i < 0x20_0000 → t.mem.read (⟨.cluster, cl, i⟩ : Place).phys = 0) ∧
        (conv = none → (t.cluster cl).holdup = none) ∧
        (∀ t1, conv = some t1 → t0 < t1 → (t.cluster cl).holdup = some t1) ∧
        (∀ t1, conv = some t1 → t1 ≤ t0 → (t.cluster cl).holdup = none ∧ (t.die (cl / 64)).convDark = true ∧
          ∀ x ∈ clusterSites cl, ∀ i, i < 0x40_0000 → t.mem.read (⟨.dram, x, i⟩ : Place).phys = 0))

/-- R367: a converter failure darkens the clusters of the die that are on together; one that is off is held up from then on, one in a
hold-up goes on in it. -/
def Sys2Proof.Claims.ConverterFailure : Prop :=
  ∀ (s : State) d, d < 64 →
    ((s.die d).convHold.isSome = true → exec (.convFail d) s = .next s) ∧
    ((s.die d).convHold = none → ∃ t, exec (.convFail d) s = .next t ∧ (t.die d).convHold = some s.now ∧
      (∀ n k, t.ctx n k = { s.ctx n k with checks := (t.ctx n k).checks, sy := (t.ctx n k).sy, pushes := (t.ctx n k).pushes }) ∧
      (s.die d).seq < (t.die d).seq ∧
      ∀ k, k < 64 → let c := s.cluster (64 * d + k)
        (c.rail ≠ 0 → c.holdup = none → (t.cluster (64 * d + k)).reg = 2 ∧ (t.cluster (64 * d + k)).holdup = some s.now) ∧
        (c.rail = 0 → c.holdup = none → t.cluster (64 * d + k) = { c with holdup := some s.now }) ∧
        (c.holdup ≠ none → t.cluster (64 * d + k) = c))

/-- R262, R265: power-on in stages: a stage begins with headroom and no earlier cluster waiting, and after 4 µs allows 3 A
more; a power-on that waits a millisecond is recorded. Microseconds are cycles of the module clock by log entry 3. The rail is a free multiple of 5 mV from 600 to 750, and the measured
current a free value within what the cluster may draw (log entry 23). -/
def Sys2Proof.Claims.PowerOnStages : Prop :=
  ∀ (s : State) cl, let c := s.cluster cl
    (600 ≤ railSet cl ∧ railSet cl ≤ 750 ∧ railSet cl % 5 = 0) ∧
    s.current cl ≤ c.permitted + (if c.stageAt.isSome then 480 else 0) ∧
    (c.stages < 4 → c.stageAt = none → c.holdup = none →
      (s.headroomOk (cl / 64) = true → s.earlierWaits cl = false → ∃ t, exec (.powerStageStart cl) s = .next t ∧
        t.cluster cl = { c with stageAt := some s.now, waitAt := none, waitLogged := false, rail := railSet cl } ∧
        t.ctxs = s.ctxs ∧ t.cores = s.cores) ∧
      (s.headroomOk (cl / 64) = false ∨ s.earlierWaits cl = true → ∃ t, exec (.powerStageStart cl) s = .next t ∧
        t.cluster cl = { c with waitAt := some (c.waitAt.getD s.now) } ∧ t.ctxs = s.ctxs ∧ t.cores = s.cores)) ∧
    (4 ≤ c.stages ∨ c.stageAt ≠ none ∨ c.holdup ≠ none → exec (.powerStageStart cl) s = .next s) ∧
    (∀ t0, c.stageAt = some t0 →
      (s.now < t0 + 4800 → exec (.powerStageEnd cl) s = .next s) ∧
      (t0 + 4800 ≤ s.now → ∃ t, exec (.powerStageEnd cl) s = .next t ∧
        t.cluster cl = { c with
          stages := c.stages + 1, stageAt := none
          permitted := min (30 * (c.stages + 1)) (if c.phases = 6 then 120 else 100)
          waitAt := if c.stages + 1 < 4 then some s.now else none
          reg := if c.stages + 1 = 4 ∧ c.reg = 2 then (if c.phases = 6 then 0 else 1) else c.reg } ∧
        t.cores = s.cores ∧ t.ctxs = s.ctxs)) ∧
    (∀ t0, c.waitAt = some t0 → c.waitLogged = false →
      (s.now < t0 + 1200000 → exec (.powerWait cl) s = .next s) ∧
      (t0 + 1200000 ≤ s.now → ∃ t, exec (.powerWait cl) s = .next t ∧ t.cluster cl = { c with waitLogged := true } ∧
        (t.die (cl / 64)).seq = (s.die (cl / 64)).seq + 1 ∧ t.ctxs = s.ctxs))

/-- R262, R366, R368, R372: a fatal error: every die logs it, the 64 records go to the oldest flash slot, cores and their
scratchpads are gone and the module is in stage 0. That DRAM keeps its bytes is log entry 61, that lost bytes read as 0 is log entry 1,
and what goes with the rails is as the model reads R262: its choices. -/
def Sys2Proof.Claims.FatalErrors : Prop :=
  ∀ (s : State),
    let fatal := fun t : State =>
      t.bringup.stage = 0 ∧ t.bringup.fatal = true ∧ t.cores = [] ∧ t.ctxs = [] ∧ t.reqs = [] ∧ t.net = [] ∧ t.running = none ∧
      t.image = none ∧ (∀ d, d < 64 → (s.die d).seq < (t.die d).seq) ∧
      (∀ a, 2 ^ 48 ≤ a → a < 3 * 2 ^ 48 → t.mem.read a = 0) ∧ (∀ a, a < 2 ^ 48 → t.mem.read a = s.mem.read a) ∧
      (∀ d i, d < 64 → i < 0x4_0000 → (t.flash.at (s.fatals % 4) []).read (0x4_0000 * d + i) =
        t.mem.read (⟨.die, d, recordBase + i⟩ : Place).phys) ∧
      ∀ k, k ≠ s.fatals % 4 → t.flash.look k = s.flash.look k
    (∀ cl j d, 115 ≤ j ∨ 95 ≤ d → ∃ t, exec (.thermalSample cl j d) s = .next t ∧ fatal t) ∧
    (∀ v us, v < 720 → 1000 < us → ∃ t, exec (.trayUndervoltage v us) s = .next t ∧ fatal t) ∧
    (∀ f us, f < 40000 → 1000000 < us → ∃ t, exec (.coolantLowFlow f us) s = .next t ∧ fatal t) ∧
    (∀ v us, 720 ≤ v ∨ us ≤ 1000 → exec (.trayUndervoltage v us) s = .next s) ∧
    (∀ f us, 40000 ≤ f ∨ us ≤ 1000000 → exec (.coolantLowFlow f us) s = .next s)

/-- R368: from 100 °C a cluster is throttled to 1,000 MHz and recorded, and below 95 °C it returns to its clock. -/
def Sys2Proof.Claims.ThermalThrottling : Prop :=
  ∀ (s : State) cl j d, let c := s.cluster cl
    d < 95 → j < 115 →
      (100 ≤ j → c.throttled = false → ∃ t, exec (.thermalSample cl j d) s = .next t ∧
        t.cluster cl = { c with former := c.clock, clock := min c.clock 1000, throttled := true } ∧
        (t.die (cl / 64)).seq = (s.die (cl / 64)).seq + 1 ∧ t.cores = s.cores ∧ t.ctxs = s.ctxs) ∧
      (j < 95 → c.throttled = true → ∃ t, exec (.thermalSample cl j d) s = .next t ∧
        t.cluster cl = { c with clock := c.former, throttled := false } ∧ t.dies = s.dies ∧ t.mem = s.mem ∧
        t.cores = s.cores ∧ t.ctxs = s.ctxs) ∧
      ((95 ≤ j ∧ j < 100) ∨ (100 ≤ j ∧ c.throttled = true) ∨ (j < 95 ∧ c.throttled = false) →
        exec (.thermalSample cl j d) s = .next s)

/-- R373: a corrected error is counted and recorded at most once a millisecond; a scrub changes no byte; an error in die
management's own state that cannot be corrected is a fatal error. The place of the record and its number among the events of a cycle
are those of log entry 17. -/
def Sys2Proof.Claims.SoftErrors : Prop :=
  ∀ (s : State) die, let d := s.die die
    (s.ownStateBad die = true → ∃ t, exec (.softErr die) s = .next t ∧ t.bringup.stage = 0 ∧ t.bringup.fatal = true ∧
      t.cores = [] ∧ t.ctxs = []) ∧
    (s.ownStateBad die = false →
      ((∀ t0, d.softAt = some t0 → t0 + 1200000 ≤ s.now) → ∃ t, exec (.softErr die) s = .next t ∧ (t.die die).soft = 0 ∧
        (t.die die).softAt = some s.now ∧ (t.die die).seq = d.seq + 1 ∧ t.ctxs = s.ctxs ∧ t.cores = s.cores ∧
        ((d.logAt = s.now → d.logged = []) →
          leNat (t.mem.readN ((⟨.die, die, recordBase + 64 * (d.place % 4096) + 24⟩ : Place).phys) 8) = (d.soft + 1) % 2 ^ 64)) ∧
      (∀ t0, d.softAt = some t0 → s.now < t0 + 1200000 → ∃ t, exec (.softErr die) s = .next t ∧
        t.die die = { d with soft := d.soft + 1 } ∧ t.mem = s.mem ∧ t = { s with dies := t.dies })) ∧
    (∀ site, exec (.dramScrub site) s = .next s)

/-- R7, R328, R369, R372: a cold reset puts the module at its reset values; fuses, flash, manifest, host memory and the
records of the dies stay (the last is the model's reading, log entry 24), and the next record of a die takes the place of its oldest.
That memory then reads as 0 is the model's choice of log entry 1. -/
def Sys2Proof.Claims.ColdResetResults : Prop :=
  ∀ (s : State), ∃ t, exec .coldReset s = .next t ∧ t.cores = [] ∧ t.ctxs = [] ∧ t.reqs = [] ∧ t.net = [] ∧ t.sites = [] ∧
    t.grafts = [] ∧ t.groups = [] ∧ t.queues = [] ∧ t.hwin = [] ∧ t.hevt = 0 ∧ t.image = none ∧ t.running = none ∧
    t.bringup.stage = 0 ∧ t.bringup.sapling = false ∧ t.bringup.fuseVersion = s.bringup.fuseVersion ∧ t.now = 0 ∧
    t.manifest = s.manifest ∧ t.flash = s.flash ∧ t.hostMem = s.hostMem ∧
    (∀ d i, d < 64 → i < 0x4_0000 → t.mem.read (⟨.die, d, recordBase + i⟩ : Place).phys =
      s.mem.read (⟨.die, d, recordBase + i⟩ : Place).phys) ∧
    (∀ a, (∀ d i, d < 64 → i < 0x4_0000 → a ≠ (⟨.die, d, recordBase + i⟩ : Place).phys) → a < 3 * 2 ^ 48 + 2 ^ 32 →
      t.mem.read a = 0) ∧
    (∀ d, t.die d = { Die.blank with attach := (s.die d).attach, place := (s.die d).place })

/-- R265, R328, R369–R371, R374: power-on: in stage 0 the boot ROM's check of the firmware and the supplies; in stage 1, once
every cluster has powered on, the manifest; a check that fails ends bring-up with its cause, else training begins and sapling
mode is offered. That the STAGE record stands in die 0 is the model's choice of log entry 25. -/
def Sys2Proof.Claims.PowerStage : Prop :=
  ∀ (s : State) fw v man sup,
    let ends := fun (stage fail : Nat) (sapling : Bool) => ∃ t, exec (.stagePower fw v man sup) s = .next t ∧
      t.bringup.stage = stage ∧ t.bringup.fail = fail ∧ t.bringup.sapling = sapling ∧
      (t.die 0).seq = (s.die 0).seq + 1 ∧ t.running = s.running ∧ t.ctxs = s.ctxs ∧ t.manifest = s.manifest ∧
      (stage = 1 → t.clusters = [] ∧ t.bringup.trained = false ∧ t.bringup.version = v)
    (1 < s.bringup.stage → exec (.stagePower fw v man sup) s = .next s) ∧
    (s.bringup.stage = 0 →
      (fw = false ∨ v < s.bringup.fuseVersion → ends 15 1 false) ∧
      (fw = true → s.bringup.fuseVersion ≤ v → sup = false → ends 15 3 false) ∧
      (fw = true → s.bringup.fuseVersion ≤ v → sup = true → ends 1 0 false)) ∧
    (s.bringup.stage = 1 →
      (sup = false → ends 15 3 false) ∧
      (sup = true → (∃ k, k < 4096 ∧ (s.cluster k).stages ≠ 4) → exec (.stagePower fw v man sup) s = .next s) ∧
      (sup = true → (∀ k, k < 4096 → (s.cluster k).stages = 4) →
        (man = false → ends 15 2 false) ∧ (man = true → ends 2 0 true)))

/-- R369, R371: training, link test and graft of bring-up. A bank that fails training counts as bad in the map, and the manifest
stays as it is. The STAGE record stands in die 0 (log entry 25). -/
def Sys2Proof.Claims.BringUpStages : Prop :=
  ∀ (s : State),
    (∀ bad, s.bringup.stage = 2 → s.bringup.trained = false →
      (∃ t, exec (.stageDramTraining bad false) s = .next t ∧ t.bringup.stage = 15 ∧ t.bringup.fail = 4 ∧ t.accepting = false) ∧
      (∃ t, exec (.stageDramTraining bad true) s = .next t ∧ t.bringup = { s.bringup with trained := true } ∧
        t = { s with bringup := t.bringup, training := t.training } ∧
        ∀ p ∈ bad, (t.training.at p.1 0).testBit (p.2 % 8) = true)) ∧
    (∀ failing ok, s.bringup.stage = 2 → s.bringup.trained = true → s.running.isSome = true →
      exec (.stageLinkTest failing ok) s = .next s) ∧
    (∀ failing, s.bringup.stage = 2 → s.bringup.trained = true → s.running = none →
      (∃ t, exec (.stageLinkTest failing true) s = .next t ∧ t.bringup.stage = 4 ∧ t.bringup.sapling = false ∧
        t.image = none ∧ t.ctxs = s.ctxs ∧ ∀ p ∈ failing, bit (t.site p.1).down (3 - p.2.code) = true) ∧
      (∃ t, exec (.stageLinkTest failing false) s = .next t ∧ t.bringup.stage = 15 ∧ t.bringup.fail = 5 ∧ t.accepting = false)) ∧
    (s.bringup.stage = 4 → ∃ t, exec .stageGraft s = .next t ∧ t.bringup.stage = 5 ∧ t.bringup.fail = 0 ∧ t.accepting = true ∧
      t.ctxs = s.ctxs ∧ (t.die 0).seq = (s.die 0).seq + 1) ∧
    (s.bringup.stage ≠ 4 → exec .stageGraft s = .next s)

/-- R256–R258, R261, R327: between launches graft entries are rewritten: a row's entry follows R258 unless a reserved value or 31
is written, a row that skips 0 beside one that skips 16 is disabled, the generation counts up and the cores of the rows that are
written, or that stand in them, go where the entries put them, while the others stay; a home that gets its core back forwards nothing
any more. What writes no entry leaves the generation as it was. That a rewrite waits for moves and pairs
to end, and for a page update under way, is the model's choice and reading (log entries 85 and 119). -/
def Sys2Proof.Claims.GraftRewrites : Prop :=
  (∀ (s : State) rows remaps, s.running.isSome = true ∨ s.unsettled = true ∨ s.pageMove.isSome = true →
    exec (.graftRewrite rows remaps) s = .next s) ∧
  (∀ (s : State) key v, s.running = none → s.unsettled = false → s.pageMove = none → ∃ t, exec (.graftRewrite [(key, v)] []) s = .next t ∧
    (let row := fun k => if k = key then (if 17 ≤ v % 32 then v % 32 else s.rowEntry [] key) else s.grafts.at k 8
     ∀ k, t.grafts.at k 8 = if row k = 0 ∧ (∃ w, westRow k = some w ∧ row w = 16) then 31 else row k) ∧
    t.graftGen = s.graftGen + 1 ∧ t.remaps = s.remaps ∧
    ((∀ p ∈ s.tableLeaves, bits p.2 32 30 ≠ 5) → t.ctxs = s.ctxs ∧ t.mem = s.mem) ∧
    (let written := fun k => k = key ∨ s.grafts.at k 8 ≠ t.grafts.at k 8
     let home := fun n => siteRowKey (siteUnder n 8)
     ∀ n c c', s.cores.look n = some c → t.cores.look n = some c' →
      (written (home n) ∨ written (siteRowKey c.site) → c'.site = siteUnder n (t.grafts.at (home n) 8) ∧ c'.region = c'.site ∧
        (c'.absent = true ↔ t.grafts.at (home n) 8 = 31 ∨ t.marked c'.site = true)) ∧
      (¬ written (home n) → ¬ written (siteRowKey c.site) → (∀ m, t.graftedCore c.site = some m → m = n) →
        c'.site = c.site ∧ c'.region = c.region ∧ c'.absent = c.absent)) ∧
    (let written := fun k => k = key ∨ s.grafts.at k 8 ≠ t.grafts.at k 8
     ∀ x n, (s.sites.look x).isSome = true → ¬ written (siteRowKey x) → t.graftedCore x = some n →
      written (siteRowKey (s.core n).site) → s.marked x = false → (t.site x).core = some n ∧ (t.site x).fwd = none) ∧
    ((∃ k, s.grafts.at k 8 ≠ t.grafts.at k 8) → s.stateGen < t.stateGen)) ∧
  (∀ (s : State) a b x k, 8 ≤ b → ∃ t, exec (.graftRewrite [] [(a, b, x, k)]) s = .next t ∧ t.graftGen = s.graftGen)

/-- R257: under any skip values the sites of the cores are distinct, and none is at its row's skipped position. -/
def Sys2Proof.Claims.CoresNeverShareASite : Prop :=
  ∀ (skip : Nat → Nat), (∀ r, skip r ≤ 16) → ∀ n m, n < 524288 → m < 524288 →
    let site := fun k => siteUnder k (skip (siteRowKey (siteUnder k 8)))
    (site n = site m → n = m) ∧ siteExists (site n) = true ∧ siteRowKey (site n) = siteRowKey (siteUnder n 8) ∧
      sitePos (site n) ≠ skip (siteRowKey (site n))

/-- R372: an event's record stands in its die's log, and no other byte of memory changes; of two events of one cycle the one of
the lower site, then of the lower code, has the lower number. How the records of a cycle are numbered and placed is log entry 17, and the
field that names no core is all ones by log entry 53: the model's choices. That byte 15 tells of a launch of this module is its reading
(log entry 123). -/
def Sys2Proof.Claims.EventRecords : Prop :=
  ∀ (s : State) d code site core detail bytes, d < 64 → let t := s.log d code site core detail bytes
    let p : Place := ⟨.die, d, recordBase + 64 * ((s.die d).place % 4096)⟩
    let head := fun (seq code site : Nat) => natLE 8 s.nanos ++ natLE 4 seq ++ natLE 2 code ++ natLE 1 d ++
      [if s.running.any (fun r => r.cmd.kind == 2) then 1 else 0] ++ natLE 4 site
    (t.die d).seq = (s.die d).seq + 1 ∧
    t = { s with dies := t.dies, mem := t.mem, poison := t.poison } ∧ (∀ k, k ≠ d → t.dies.look k = s.dies.look k) ∧
    (((s.die d).logAt = s.now → (s.die d).logged = []) → SameMemoryBut s t p 64 ∧
      t.mem.readN p.phys 32 = head (s.die d).seq code site ++ natLE 4 (core.getD 0xFFFF_FFFF) ++ natLE 8 detail.toNat) ∧
    (∀ e, (s.die d).logAt = s.now → (s.die d).logged = [e] → 0 < (s.die d).seq →
      (site < e.site ∨ (site = e.site ∧ code < e.code) →
        t.mem.readN (⟨.die, d, recordBase + 64 * (((s.die d).place + 4095) % 4096)⟩ : Place).phys 20 = head ((s.die d).seq - 1) code site) ∧
      (¬ (site < e.site ∨ (site = e.site ∧ code < e.code)) → t.mem.readN p.phys 20 = head (s.die d).seq code site))

/-! ## Queues, launches, the host -/

/-- R333, R334: a claim returns reserve and counts it up, unless the ring is full; a publish of a claimed slot sets its bit,
any other sets badpub. -/
def Sys2Proof.Claims.ClaimAndPublish : Prop :=
  ∀ (s : State) q, let x := s.queue q
    (HostFree s (.claim q) → x.reserve - x.head = 128 → exec (.qclaim q) s = .next { s with hostOut := s.hostOut ++ [.value 0x8000000000000000] }) ∧
    (HostFree s (.claim q) → x.reserve - x.head ≠ 128 → ∃ t, exec (.qclaim q) s = .next t ∧
      t.hostOut = s.hostOut ++ [.value (w64 (x.reserve % 2 ^ 32))] ∧ t.queue q = { x with reserve := x.reserve + 1 } ∧
      t = { s with queues := t.queues, hostOut := t.hostOut } ∧ ∀ k, k ≠ q → t.queues.look k = s.queues.look k) ∧
    (∀ (slot : BitVec 7) port, HostFree s (.publish q slot port) → ∃ t, exec (.qpublish q slot port) s = .next t ∧ t = { s with queues := t.queues } ∧
      (∀ k, k ≠ q → t.queues.look k = s.queues.look k) ∧
      ((∃ i, i < x.reserve - x.tail ∧ (x.tail + i) % 128 = slot.toNat) →
        slot.toNat ∈ (t.queue q).pub ∧ (∀ n, n ≠ slot.toNat → (n ∈ (t.queue q).pub ↔ n ∈ x.pub)) ∧
        (t.queue q).badpub = x.badpub ∧ (t.queue q).head = x.head ∧ (t.queue q).reserve = x.reserve) ∧
      ((¬ ∃ i, i < x.reserve - x.tail ∧ (x.tail + i) % 128 = slot.toNat) → t.queue q = { x with badpub := true }))

/-- R332, R333: a host write through BAR2 stores its bytes in the rings, and only there. -/
def Sys2Proof.Claims.RingWrites : Prop :=
  ∀ (s : State) q off data, HostFree s (.ring q off data) → 8192 * q + off + data.length ≤ 0x8_0000 → ∃ t, exec (.hostRingWrite q off data) s = .next t ∧
    t.mem.readN ((ringPlace 0).phys + 8192 * q + off) data.length = data ∧
    SameMemoryBut s t ⟨.die, 0, (ringPlace 0).off + 8192 * q + off⟩ data.length ∧
    t = { s with mem := t.mem, poison := t.poison }

/-- R334, R336: with none running the controller chooses, by priority, then the longer time since a completion, the queue
whose head slot is published; its 64 bytes are read, its slot is free and it is switched in, for the least recently served of 8.
That only a queue switched out shows it is the model's reading (log entry 120). A command whose record waited for a page
completes first. -/
def Sys2Proof.Claims.QueueTakes : Prop :=
  (∀ (s : State) q, s.nextQueue = some q → (s.queue q).takeable = true ∧ q < 64 ∧
    ∀ k, k < 64 → (s.queue k).takeable = true →
      (s.queue k).prio % 4 < (s.queue q).prio % 4 ∨
      ((s.queue k).prio % 4 = (s.queue q).prio % 4 ∧ (s.queue q).doneAt ≤ (s.queue k).doneAt)) ∧
  (∀ (s : State), s.finishing = none → (s.running.isSome = true ∨ s.accepting = false) → exec .queueTake s = .next s) ∧
  (∀ (s : State) r status detail late, s.running = some r → r.finish = some (status, detail, late) →
    ∃ t, exec .queueTake s = .next t ∧ Ends s t r status) ∧
  (∀ (s : State) q, s.running = none → s.accepting = true → s.nextQueue = some q →
    let x := s.queue q
    let slot := x.head % 128
    let cmd := LaunchCmd.ofBytes (s.readPlace ⟨.die, 0, (ringPlace q).off + 64 * slot⟩ 64)
    ∃ t, exec .queueTake s = .next t ∧ (t.queue q).head = x.head + 1 ∧ slot ∉ (t.queue q).pub ∧ t.cached.head? = some q ∧
      t.cached.length ≤ 8 ∧ (t.queue q).swapped = false ∧ (∀ k, k ∈ s.cached → k ∉ t.cached → (t.queue k).swapped = true) ∧
      (∀ k, k ∈ t.cached ∨ k ∉ s.cached → k ≠ q → t.queues.look k = s.queues.look k) ∧ t.cores = s.cores ∧ t.ctxs = s.ctxs ∧
      (cmd.reserved = false → t.mem = s.mem ∧
        t.running = some (Running.start q (x.ports.at slot 0) cmd s.now s.events)) ∧
      (cmd.reserved = true → Ends s t { Running.start q (x.ports.at slot 0) cmd s.now s.events with cmd := s.recordCmd cmd } 0x23))

/-- R232, R330, R331, R337: LOAD installs the image at its host address when it passes every check; one that fails completes with
the status of the first check that fails and leaves no image loaded. Reserved bits of GRP and TRAPVEC read as zero (R6). An
address with no image, or outside host memory, is refused as an image with a bad magic would be (log entry 35). -/
def Sys2Proof.Claims.LoadResults : Prop :=
  ∀ (s : State) r, s.running = some r → r.cmd.kind = 1 → r.phase = 0 →
    let found := if addrSpace r.cmd.image.toNat = 8 then s.hostImages.look (r.cmd.image.toNat % 2 ^ 48) else none
    (found = none → ∃ t, exec .load s = .next t ∧ Completed s t r 0x11 ∧ t.image = none) ∧
    (∀ img, found = some img →
      (∀ status detail, s.loadCheck img r.cmd.arg.toNat = some (status, detail) → ∃ t, exec .load s = .next t ∧ Completed s t r status ∧
        t.image = none ∧ t.cores = s.cores ∧ t.ctxs = s.ctxs) ∧
      (s.loadCheck img r.cmd.arg.toNat = none → ∃ t, exec .load s = .next t ∧ Ends s t r 0 ∧ t.image = some img ∧ t.reqs = [] ∧
        (∀ g, t.groups.look g = (img.groups.look g).map Group'.ofBits) ∧
        (∀ k, (t.ctxs.at k .blank).act = none ∧ (t.ctxs.at k .blank).ld = 0 ∧ (t.ctxs.at k .blank).st = 0 ∧
          (t.ctxs.at k .blank).sy = 0 ∧ (t.ctxs.at k .blank).blocks = []) ∧
        (∀ x e, t.sites.look x = some e → e.shadowOf = none ∧ e.migTarget = none) ∧
        (∀ i ∈ img.cores, (∀ j ∈ img.cores, j.core = i.core → j = i) →
          let c := t.core i.core
          (∀ tag, c.table.look tag = (i.table.look tag).map TagEntry.ofVec) ∧
          (∀ tag, tag < 64 → (c.tagen.getLsbD tag = i.table.any (fun e => e.1 == tag && e.2.getLsbD 204)) ∧
            (c.tagpend.getLsbD tag = i.table.any (fun e => e.1 == tag && e.2.getLsbD 203))) ∧
          (∀ k sl, c.slots.look k = some sl → sl.gen = 0 ∧ sl.round = 0) ∧
          (∀ k e, i.slots.look k = some e → (c.slot k).route = (RouteRec.ofWords e.record).route ∧
            (c.slot k).rch = (RouteRec.ofWords e.record).rch ∧ (c.slot k).fmt = (RouteRec.ofWords e.record).fmt) ∧
          c.named = true ∧ c.bound = i.bound ∧ c.grp = i.grp &&& 0xF_FFFF_FFFF ∧ c.trapvec = i.trapvec &&& 0xFFFF_FFFF_FFFF_FFFC ∧
          c.queues = [] ∧ c.pair = none ∧ c.mig = none ∧ c.site = (s.core i.core).site)))

/-- R331, R337: the checks of LOAD in their order; `n` is the length the command gives. Which values
of a handler-table entry count as reserved is log entry 101. -/
def Sys2Proof.Claims.LoadChecksInOrder : Prop :=
  ∀ (s : State) (img : Image) n,
    let first := fun (o : Option Nat) (status : Nat) => ∀ d, o = some d → s.loadCheck img n = some (status, d)
    (first (img.badHdr n) 0x11 ∧ ((img.magic ≠ 0x494C_4251 ∨ img.version ≠ 1 ∨ img.length ≠ 64 + img.rest.length ∨
      n ≠ img.length ∨ img.digest ≠ shake256 img.rest) ↔ img.badHdr n ≠ none)) ∧ (img.badHdr n = none →
      first s.badSkip 0x12 ∧ (s.badSkip = none →
        (img.graftGen ≠ s.graftGen → s.loadCheck img n = some (0x13, s.graftGen)) ∧ (img.graftGen = s.graftGen →
          first (s.absentCore img) 0x14 ∧ (s.absentCore img = none →
            first (s.badRegion img) 0x15 ∧ (s.badRegion img = none →
              first (badHandler img) 0x16 ∧ (badHandler img = none →
                first (s.badChannel img) 0x17 ∧ (s.badChannel img = none →
                  first (firstBadGroup img) 0x18 ∧ (firstBadGroup img = none →
                    first (s.firstBadPage img.pages) 0x19 ∧
                    (s.firstBadPage img.pages = none → s.loadCheck img n = none)))))))))

/-- R337–R339, R358, R371: a LAUNCH is refused in sapling mode for RECORD or COPPICE, without an image, without the default it asks
for, with another image's id, with another graft generation, or for its argument tile; else round state is cleared and its
rounds begin. -/
def Sys2Proof.Claims.LaunchResults : Prop :=
  ∀ (s : State) r, s.running = some r → r.cmd.kind = 2 → r.phase = 0 →
    let c := r.cmd
    let own := c.mode ≠ 0 ∨ c.rounds ≠ 0 ∨ c.arg ≠ 0 ∨ c.rec' ≠ 0 ∨ c.arglen ≠ 0 ∨ c.reccap ≠ 0
    let refused := fun (q : Running) (status : Nat) => ∃ t, exec .launch s = .next t ∧ Ends s t q status
    let named := { r with cmd := s.recordCmd c }
    let first := (c.dflt = true ∧ own) ∨ (s.bringup.sapling = true ∧ c.mode ≠ 0)
    (first → refused named 0x23) ∧
    (¬ first → s.image = none → refused named 0x21) ∧
    (∀ img, ¬ first → s.image = some img →
      (resolvedCmd img c = none → refused named 0x23) ∧
      (∀ k, resolvedCmd img c = some k →
        let bad := (c.dflt = true ∧ ∃ d, img.default' = some d ∧ (d.reserved = true ∨ d.kind ≠ 2 ∨ d.dflt = true)) ∨
          (s.bringup.sapling = true ∧ k.mode ≠ 0) ∨ 2 < k.mode ∨ k.rounds = 0
        (bad → refused named 0x23) ∧
        (¬ bad → k.image ≠ w64 img.id → refused named 0x21) ∧
        (¬ bad → k.image = w64 img.id → img.graftGen ≠ s.graftGen → refused named 0x13) ∧
        (¬ bad → k.image = w64 img.id → img.graftGen = s.graftGen →
          ((∃ d, s.readTile k = .refused d) ∨ (∃ off, s.readTile k = .unread off) → refused { r with cmd := k } 0x22) ∧
          (s.readTile k = .busy → exec .launch s = .next s) ∧
          (∀ payload updates, s.readTile k = .tile payload updates → ∃ t q, exec .launch s = .next t ∧
            t.running = some q ∧ q.phase = 1 ∧ q.round = r.round ∧ q.payload = payload ∧ q.updates = updates ∧ q.cmd = k ∧
            t.ctxs = s.ctxs ∧ t.mem = s.mem ∧
            (∀ n x, t.cores.look n = some x → x.qstat = 0 ∧ x.qerrm = 0 ∧ x.qerrc0 = 0 ∧ x.qerrc1 = 0 ∧
              ((k.mode = 2 → n ∉ t.coppice.skippedSet) → ∀ j sl, x.slots.look j = some sl → sl.round = 0)) ∧
            (k.mode = 0 → q.reexec = r.reexec ∧ ∀ n, (t.core n).trace = (s.core n).trace) ∧
            (k.mode = 1 → t.coppice.skippedSet = [] ∧ ∀ b ∈ s.blocks, (t.core b).trace.recording = true)))))

/-- R198, R339: a round begins: its updates are staged and every core with a valid tag 1 receives a start message; a message that
finds no room, in its queue or in the sub-ring behind it, which sapling mode does not have, waits, with those behind it in its die.
That it waits is the model's reading (log entry 124). -/
def Sys2Proof.Claims.RoundsBegin : Prop :=
  (∀ (s : State) r, s.running = some r → r.phase = 1 → s.coppice.skippedSet = [] → ∃ t q, exec .roundStart s = .next t ∧
    t.running = some q ∧ q.phase = 2 ∧ q.sweep = none ∧ q.sweepAt = s.now + 2048 ∧ q.round = r.round ∧ t.ctxs = s.ctxs ∧
    (∀ u ∈ r.updates, u.2.2.1 = r.round → (∀ v ∈ r.updates, v.2.2.1 = r.round → v.1 = u.1 → v.2.1 = u.2.1 → v = u) →
      (t.core u.1).staged.look u.2.1 = some u.2.2.2) ∧
    (∀ n ∈ q.starts, n ∈ s.blocks ∧ ((s.core n).table.at 1 .blank).valid = true) ∧
    (s.blocks.Nodup → (∀ n ∈ s.blocks, ((s.core n).table.at 1 .blank).valid = true →
        let k := ((s.core n).table.at 1 .blank).queue
        (s.core n).rings.at k [] = [] ∧ ((s.core n).queues.at k []).length < 16) →
      q.starts = [] ∧ ∀ n ∈ s.blocks, ((s.core n).table.at 1 .blank).valid = true →
        let k := ((s.core n).table.at 1 .blank).queue
        ∃ m, (t.core n).queues.at k [] = (s.core n).queues.at k [] ++ [m] ∧ m.hdr.tag = 1 ∧ m.hdr.round = r.round ∧
          m.hdr.fmt = 0 ∧ m.hdr.kind = .data ∧ m.payload = r.payload ∧ m.seq = (s.core n).arrivals ∧
          (t.core n).arrivals = (s.core n).arrivals + 1)) ∧
  (∀ (s : State) r, s.running = some r → r.phase = 2 → r.starts = [] → exec .roundStart s = .next s) ∧
  (∀ (s : State) r, s.running = some r → r.phase = 2 → r.starts ≠ [] → r.starts.Nodup →
    let queue := fun n => (s.core n).queues.at ((s.core n).table.at 1 .blank).queue []
    let ring := fun n => (s.core n).rings.at ((s.core n).table.at 1 .blank).queue []
    let whole := fun n => (ring n ≠ [] ∨ 16 ≤ (queue n).length) ∧ (s.bringup.sapling = true ∨ 64 ≤ (ring n).length)
    ∃ t q, exec .roundStart s = .next t ∧ t.running = some q ∧ q.phase = 2 ∧ q.starts.Sublist r.starts ∧
      ∀ a n b, r.starts = a ++ n :: b → let k := ((s.core n).table.at 1 .blank).queue
        (n ∈ q.starts ↔ whole n ∨ ∃ j ∈ a, coreDie j = coreDie n ∧ whole j) ∧
        (n ∈ q.starts → t.cores.look n = s.cores.look n) ∧
        (n ∉ q.starts → (t.core n).arrivals = (s.core n).arrivals + 1 ∧
          ∃ m : Msg, m.hdr.tag = 1 ∧ m.hdr.round = r.round ∧ m.hdr.kind = .data ∧ m.payload = r.payload ∧ m.seq = (s.core n).arrivals ∧
            (ring n = [] ∧ (queue n).length < 16 → (t.core n).queues.at k [] = queue n ++ [m] ∧ (t.core n).rings = (s.core n).rings) ∧
            (¬ (ring n = [] ∧ (queue n).length < 16) →
              (t.core n).rings.at k [] = ring n ++ [{ m with ovf := true }] ∧ (t.core n).queues = (s.core n).queues)))

/-- R171, R358: copy engine 0 of a skipped block re-injects its next logged message on the slot's current route, in its turn. -/
def Sys2Proof.Claims.LogsAreReplayed : Prop :=
  ∀ (s : State) n p rest, s.coppice.replays.at n [] = p :: rest →
    ((s.core n).turnOf 0 9 (s.ready n 0) = false → exec (.logReplay n) s = .next s) ∧
    ((s.core n).turnOf 0 9 (s.ready n 0) = true →
      (∀ r, ((s.core n).slot p.hdr.sch).route = some r → (s.core n).pair = none → ∃ t f, exec (.logReplay n) s = .next t ∧
        f ∈ t.net ∧ f.id = s.fresh ∧ f.site = (s.core n).site ∧ f.pkt.body = p.body ∧ f.pkt.hdr.runs = r.runs ∧
        f.pkt.hdr.dsite = r.dsite ∧ f.pkt.hdr.tag = p.hdr.tag ∧ f.pkt.hdr.round = p.hdr.round ∧
        t.net.map (fun g => g.pkt) = s.net.map (fun g => g.pkt) ++ [f.pkt] ∧
        t.coppice.replays.at n [] = rest ∧ (t.core n).turns.at 0 0 = 9 ∧ AllButPushes s t ∧ t.mem = s.mem) ∧
      (((s.core n).slot p.hdr.sch).route = none → ∃ t, exec (.logReplay n) s = .next t ∧ t.net = s.net ∧
        t.coppice.replays.at n [] = rest ∧ t.ctxs = s.ctxs))

/-- R339, R340, R342, R354: sweeps stand on a grid of 2,048 cycles; two at consecutive points that find every block idle and the
same equal counts end the round. After the last round the launch completes, degraded if a core was retired, and a PLAIN one
leaves no trace valid. A block is idle here when the model's `State.idle` finds it so, which asks for more than R340 lists: committed
messages injected, no system start waiting (log entry 28), no standing arrival (log entry 113). -/
def Sys2Proof.Claims.QuiescenceEndsRounds : Prop :=
  ∀ (s : State) r, s.running = some r → r.phase = 2 →
    let idle := (∀ b ∈ s.blocks, s.idle b = true) ∧ s.injected = s.consumed
    let point := r.starts = [] ∧ r.sweepAt ≤ s.now ∧ (s.now - r.sweepAt) % 2048 = 0
    let next := s.now + 2048
    (¬ point → exec .quiescenceSweep s = .next s) ∧
    (point → ¬ idle → exec .quiescenceSweep s =
      .next { s with running := some { r with sweep := none, sweepAt := next } }) ∧
    (point → idle → s.now ≠ r.sweepAt ∨ r.sweep ≠ some (s.injected, s.consumed) → exec .quiescenceSweep s =
      .next { s with running := some { r with sweep := some (s.injected, s.consumed), sweepAt := next } }) ∧
    (point → idle → s.now = r.sweepAt → r.sweep = some (s.injected, s.consumed) → r.cmd.mode = 0 →
      (∀ n, (s.core n).trace.recording = false) →
      (r.round + 1 < r.cmd.rounds → exec .quiescenceSweep s =
        .next { s with running := some { r with round := r.round + 1, phase := 1, sweep := none } }) ∧
      (r.cmd.rounds ≤ r.round + 1 → ∃ t, exec .quiescenceSweep s = .next t ∧
        Ends s t r (if r.retired = [] then 0 else 1) ∧ t.image = s.image ∧ t.ctxs = s.ctxs ∧
        (HostRecord r → ∀ n c, t.cores.look n = some c → c.trace.valid = false)))

/-- R341, R342: LABORT and the time limit end a launch, from its take on: every activation ends without a trap context, what
waits is discarded, and the command completes when the packet counts agree. That commands which have started and system starts are
discarded too is the model's reading (log entry 67). -/
def Sys2Proof.Claims.LaunchesAreEnded : Prop :=
  ∀ (s : State) r, s.running = some r →
    let stopped := fun (t : State) (status : Nat) =>
      t.running = some { r with phase := 3, status, starts := [], cmd := if r.phase = 0 then s.recordCmd r.cmd else r.cmd } ∧
      (∀ k, (t.ctxs.at k .blank).act = none) ∧ t.image = s.image ∧
      ((∀ n, (s.core n).trace.recording = false) → (∀ n p, (s.core n).pair = some p → p.broken = none) → t.mem = s.mem) ∧
      (∀ n c, t.cores.look n = some c → c.queues = [] ∧ c.rings = [] ∧ c.hold = [] ∧ c.cmds = [] ∧ c.jobs = [] ∧
        c.reclose = [] ∧ c.sysq = [] ∧ c.trace.recording = false)
    (r.cmd.kind = 2 → r.phase ≤ 2 →
      (∀ v, HostFree s (.abort v) → v.getLsbD 0 = true → ∃ t, exec (.labort v) s = .next t ∧ stopped t 2) ∧
      (r.cmd.limit ≠ 0 → r.took + 1200 * r.cmd.limit ≤ s.now → ∃ t, exec .launchTimeout s = .next t ∧ stopped t 3)) ∧
    (∀ v, HostFree s (.abort v) → v.getLsbD 0 = false ∨ r.cmd.kind ≠ 2 ∨ 2 < r.phase → exec (.labort v) s = .next s) ∧
    (r.cmd.limit = 0 ∨ s.now < r.took + 1200 * r.cmd.limit ∨ r.cmd.kind ≠ 2 ∨ 2 < r.phase → exec .launchTimeout s = .next s) ∧
    (r.phase = 3 → s.netQuiet = true → ∃ t, exec .quiescenceSweep s = .next t ∧ Ends s t r r.status ∧ t.image = s.image) ∧
    (r.phase = 3 → s.netQuiet = false → exec .quiescenceSweep s = .next s)

/-- R314, R343, R344: the host reads and writes device memory through its window with the rights of system mode; what cannot be
reached is an Unsupported Request or a dropped write with HOST_FAULT, and the same holds of an address of another module and of
a unit in error (log entry 77). HOST_FAULT stands in the log of die 0 (log entry 53), its record where log entry 17 says. An
access to a page that is being moved waits, and so do the later inputs it keeps back; a waiting one is performed as soon as it
can be. -/
def Sys2Proof.Claims.HostAccesses : Prop :=
  ∀ (s : State) port off, let va := s.hwin.at port 0 * 2 ^ 36 + off
    let said := fun (m : HostMsg) => { s with hostOut := s.hostOut ++ [m] }
    let held := fun (h : HostInput) => ∀ i, Brings i h → exec i s = .next { s with hostHeld := s.hostHeld ++ [h] }
    (∀ h, ¬ HostFree s h → held h) ∧
    (∀ h rest t, s.hostHeld = h :: rest → s.hostAct h = some t → execHostRetry s = .next { t with hostHeld := rest }) ∧
    (∀ n, HostFree s (.read port off n) → 0 < n → va % 0x8000 + n ≤ 0x8000 →
      (s.image = none → exec (.hostRead port off n) s = .next (said (.unsupported port))) ∧
      (s.image.isSome = true → s.busyAt va = true → held (.read port off n)) ∧
      (s.image.isSome = true → s.busyAt va = false →
        (∀ l, s.translateDirect .system accLoad va = .inl l →
          (l.mod = s.moduleId → s.poisoned l.place n = false →
            exec (.hostRead port off n) s = .next (said (.readData port (s.readPlace l.place n)))) ∧
          (l.mod ≠ s.moduleId ∨ s.poisoned l.place n = true → exec (.hostRead port off n) s = .next (said (.unsupported port)))) ∧
        (∀ c, s.translateDirect .system accLoad va = .inr c → ∃ t, exec (.hostRead port off n) s = .next t ∧
          t.hostOut = s.hostOut ++ [.unsupported port] ∧ t.ctxs = s.ctxs ∧ t.cores = s.cores ∧
          (t.die 0).seq = (s.die 0).seq + (if (s.badLeafAt va).isSome = true then 1 else 0)))) ∧
    (∀ n l, HostFree s (.read port off n) → 0x8000 < va % 0x8000 + n → va % 0x8000 + n ≤ 0x1_0000 → s.image.isSome = true →
      s.busyAt va = false → s.translateDirect .system accLoad va = .inl l → l.mod = s.moduleId →
      let k := 0x8000 - va % 0x8000
      (s.busyAt (va + k) = true → held (.read port off n)) ∧
      (s.busyAt (va + k) = false →
        (∀ c, s.translateDirect .system accLoad (va + k) = .inr c → ∃ t, exec (.hostRead port off n) s = .next t ∧
          t.hostOut = s.hostOut ++ [.unsupported port] ∧ t.ctxs = s.ctxs ∧ t.cores = s.cores) ∧
        (∀ m, s.translateDirect .system accLoad (va + k) = .inl m → m.mod = s.moduleId → s.poisoned l.place k = false →
          s.poisoned m.place (n - k) = false → exec (.hostRead port off n) s =
            .next (said (.readData port (s.readPlace l.place k ++ s.readPlace m.place (n - k))))))) ∧
    (∀ data, HostFree s (.write port off data) → 0 < data.length → va % 8 + data.length ≤ 8 →
      (s.image.isSome = true → s.busyAt va = true → held (.write port off data)) ∧
      (∀ l, s.image.isSome = true → s.busyAt va = false → s.translateDirect .system accStore va = .inl l →
        l.mod = s.moduleId →
        ∃ t, exec (.hostWrite port off data) s = .next t ∧ t.mem.readN l.place.phys data.length = data ∧ t.ctxs = s.ctxs ∧
          t.cores = s.cores ∧ (s.mirrors l.place.owner = [] → SameMemoryBut s t l.place data.length)) ∧
      (s.image = none ∨ (s.busyAt va = false ∧ s.badLeafAt va = none ∧ ((∃ c, s.translateDirect .system accStore va = .inr c) ∨
          ∃ l, s.translateDirect .system accStore va = .inl l ∧ l.mod ≠ s.moduleId)) →
        ∃ t, exec (.hostWrite port off data) s = .next t ∧ (t.die 0).seq = (s.die 0).seq + 1 ∧ t.ctxs = s.ctxs ∧
          t.cores = s.cores ∧ (((s.die 0).logAt = s.now → (s.die 0).logged = []) →
            SameMemoryBut s t ⟨.die, 0, recordBase + 64 * ((s.die 0).place % 4096)⟩ 64)))

/-- R6, R7, R333, R370, R372, R386, R387, R388, R392: a register write sets the writable fields, which read back, and leaves
read-only registers as they are; PCTL trains the port or takes it down. Offsets that are not listed ignore it, and so do a reserved
mode, a duration or a guard out of its range (log entry 30). Port numbers 0 to 3 are the host's;
4 + d is die management of die d, which reaches the pages of the optical ports alone (log entry 76). -/
def Sys2Proof.Claims.RegisterWriteResults : Prop :=
  ∀ (s : State) port (v : Word), (∀ off, HostFree s (.reg port off v)) →
    let wrote := fun (off : Nat) (p : State → Prop) =>
      ∃ t, exec (.registerWrite port off v) s = .next t ∧ t.ctxs = s.ctxs ∧ t.cores = s.cores ∧ t.mem = s.mem ∧ p t
    (port < 4 → wrote 0x4_0008 (fun t => t.readReg port 0x4_0008 = v &&& 0x0000FFF000000000 ∧ ∀ k, k ≠ port → t.hwin.look k = s.hwin.look k)) ∧
    (port < 4 → wrote 0x4_0018 (fun t => t.readReg port 0x4_0018 = v &&& 0x1FF)) ∧
    (port < 4 → wrote 0x4_0028 (fun t => t.readReg port 0x4_0028 = v)) ∧
    (port < 4 → 1 ≤ v.toNat % 128 → v.toNat % 128 ≤ 64 → wrote 0x4_0020 (fun t => t.readReg port 0x4_0020 = v &&& 0x17F)) ∧
    exec (.registerWrite port 0x4_0010 v) s = .next s ∧
    (∀ q, port < 4 → q < 64 → wrote (0x1000 * q + 0x18) (fun t =>
        t.readReg port (0x1000 * q + 0x18) = (v &&& 0xFFF03) ||| (if (s.queue q).badpub = true ∧ v.getLsbD 2 = false then 4 else 0) ∧
        t.queues.look q = some { s.queue q with vector := (t.queue q).vector, prio := (t.queue q).prio, badpub := (t.queue q).badpub }) ∧
      exec (.registerWrite port (0x1000 * q + 0x10) v) s = .next s) ∧
    (∀ p, p < 64 →
      wrote (0x10_0000 + 0x1000 * p + 0x10) (fun t => t.readReg port (0x10_0000 + 0x1000 * p + 0x10) = v) ∧
      wrote (0x10_0000 + 0x1000 * p + 0x18) (fun t => t.readReg port (0x10_0000 + 0x1000 * p + 0x18) =
        s.readReg port (0x10_0000 + 0x1000 * p + 0x18) &&& ~~~ v) ∧
      wrote (0x10_0000 + 0x1000 * p + 0x20) (fun t => t.readReg port (0x10_0000 + 0x1000 * p + 0x20) = v &&& 0x3F) ∧
      exec (.registerWrite port (0x10_0000 + 0x1000 * p + 8) v) s = .next s) ∧
    (∀ p, p < 64 → let q := s.port p
      let mode := if v.toNat / 2 % 4 = 3 then q.mode else v.toNat / 2 % 4
      ∃ t, exec (.registerWrite port (0x10_0000 + 0x1000 * p) v) s = .next t ∧
        (q.mode < 4 → t.readReg port (0x10_0000 + 0x1000 * p) = (v &&& 0xFFF0009) ||| w64 (2 * mode)) ∧
        (v.getLsbD 0 = true → mode ≠ 0 → q.state = 0 → (t.port p).state = 1 ∧ (t.port p).cryptOn = v.getLsbD 3) ∧
        (v.getLsbD 0 = true → mode ≠ 0 → q.state ≠ 0 → (t.port p).state = q.state ∧ (t.port p).cryptOn = q.cryptOn) ∧
        (v.getLsbD 0 = true → mode = 0 → (t.port p).state = 0) ∧
        (v.getLsbD 0 = false → q.enable = true → (t.port p).state = 0) ∧
        (v.getLsbD 0 = false → q.enable = false → (t.port p).state = q.state)) ∧
    (∀ i j, port < 4 → i < 64 → j < 32 → let e := s.slotTable.at i .blank
      let d := v.toNat % 2 ^ 32
      let dur := if 1000 ≤ d ∧ d ≤ 10 ^ 9 then d else e.duration
      let g := v.toNat / 2 ^ 32 % 2 ^ 16
      let guard := if g < dur then g else e.guard
      wrote (0x6_0000 + 256 * i + 8 * j) (fun t =>
        t.readReg port (0x6_0000 + 256 * i + 8 * j) = (if j = 0 then w64 (guard % 2 ^ 16 * 2 ^ 32 + dur % 2 ^ 32)
          else if j < 17 then v &&& 0x83FF83FF83FF83FF else 0) ∧
        (∀ k, k < 32 → k ≠ j →
          t.readReg port (0x6_0000 + 256 * i + 8 * k) = s.readReg port (0x6_0000 + 256 * i + 8 * k)) ∧
        ∀ k, k ≠ i → t.slotTable.look k = s.slotTable.look k)) ∧
    (∀ off, 0x14_0000 ≤ off ∨ (4 ≤ port ∧ off < 0x10_0000) → exec (.registerWrite port off v) s = .next s)

/-- R375: the SPDM responder of a host port answers in the order of SPDM 1.3. Codes and order are taken from outside the spec
(log entry 5); digests, certificates and signatures are free values. -/
def Sys2Proof.Claims.SpdmAnswers : Prop :=
  ∀ (s : State) port, let at' := s.spdm.at port 0
    let answers := fun (i : Instr) (need reach : Nat) (code : Nat) (body : List Byte) =>
      (need ≤ at' → ∃ t, exec i s = .next t ∧ t.hostOut = s.hostOut ++ [.spdm port code body] ∧ t.spdm.at port 0 = reach ∧
        (∀ k, k ≠ port → t.spdm.look k = s.spdm.look k) ∧ t.cores = s.cores ∧ t.ctxs = s.ctxs ∧ t.mem = s.mem) ∧
      (at' < need → ∃ t, exec i s = .next t ∧ t.hostOut = s.hostOut ++ [.spdm port 0x7F [0x04]] ∧ t.spdm = s.spdm ∧ t.mem = s.mem)
    answers (.spdmGetVersion port) 0 1 0x04 [0x13] ∧
    answers (.spdmGetCapabilities port) 1 2 0x61 (natLE 4 0x16) ∧
    answers (.spdmNegotiateAlgorithms port) 2 3 0x63 (natLE 4 0x80 ++ natLE 4 0x02) ∧
    answers (.spdmGetDigests port) 3 at' 0x01 (Config.spdmCertificate 0) ∧
    answers (.spdmGetCertificate port) 3 at' 0x02 (Config.spdmCertificate 1) ∧
    answers (.spdmChallenge port) 3 at' 0x03 (Config.spdmSignature s.fresh) ∧
    answers (.spdmGetMeasurements port) 3 at' 0x60 (Config.measurementDigest 1 ++ Config.measurementDigest 2 ++
      natLE 8 s.bringup.version ++ Config.manifestDigest s.manifestBytes ++ [if s.manifestOk then 1 else 0] ++ natLE 8 s.graftGen ++
      Config.spdmSignature s.fresh) ∧
    (∀ code, ∃ t, exec (.spdmUnsupported port code) s = .next t ∧
      t = { s with hostOut := s.hostOut ++ [.spdm port 0x7F [0x07, BitVec.ofNat 8 code]] })

/-! ## Optical ports -/

/-- R380, R387, R390: training of a port: it begins on a port that is down with a mode, ends up with at least 4 lanes and down with
fewer; keys of one index that both ends staged before are switched to as it ends; disabling takes the port down. That a
switched-on port forgets its counters is the model's reading (log entry 29), and so is that its fibre stands in the fibre table
from the end of training on (log entry 104). -/
def Sys2Proof.Claims.PortTraining : Prop :=
  ∀ (s : State) p, let q := s.port p
    (q.state = 0 → q.mode ≠ 0 → ∃ t, exec (.portTrain p) s = .next t ∧ (t.port p).state = 1 ∧ (t.port p).enable = true ∧
      (t.port p).cryptOn = q.crypt ∧ (t.port p).lost = 0 ∧ t = { s with ports := t.ports, stateGen := t.stateGen } ∧
      (∀ k, k ≠ p → t.ports.look k = s.ports.look k) ∧
      ∀ c x, q.ctxs.look c = some x → ((t.port p).ctxs.at c .blank).pending = x.pending ∧
        ((t.port p).ctxs.at c .blank).staging = x.staging ∧ ((t.port p).ctxs.at c .blank).ctr = 0) ∧
    (q.state ≠ 0 ∨ q.mode = 0 → exec (.portTrain p) s = .next (s.setPort p { q with enable := true })) ∧
    (∀ lanes, q.state ≠ 1 → exec (.portTrained p lanes) s = .next s) ∧
    (∀ (lanes : BitVec 16), q.state = 1 →
      (laneCount lanes.toNat < 4 → ∃ t, exec (.portTrained p lanes) s = .next t ∧ t.port p = { q with state := 0 } ∧
        t.sites = s.sites) ∧
      (4 ≤ laneCount lanes.toNat → ∃ t, exec (.portTrained p lanes) s = .next t ∧
        (t.port p).state = 2 ∧ (t.port p).lanes = lanes.toNat ∧ (t.port p).txLanes = lanes.toNat ∧ (t.port p).mapped = true ∧
        t.net = s.net ∧ t.ctxs = s.ctxs ∧
        (q.cryptOn = false ∨ (∀ e ∈ q.ctxs, ∀ k, e.2.pending = some k → e.2.peerPend ≠ some k.idx) →
          t.port p = { q with state := 2, lanes := lanes.toNat, txLanes := lanes.toNat, mapped := true }) ∧
        (∀ c x k, q.cryptOn = true → q.ctxs.look c = some x → x.pending = some k → x.peerPend = some k.idx →
          (t.fabCtx p c).cur = some k ∧ (t.fabCtx p c).pending = none ∧ (t.fabCtx p c).ctr = 0))) ∧
    (q.state < 2 → ∃ t, exec (.portDisable p) s = .next t ∧ t.port p = { q with state := 0, enable := false } ∧ t.sites = s.sites) ∧
    (2 ≤ q.state → (∀ f ∈ s.net, ∀ i, f.spot ≠ .egress p i) → (∀ e ∈ q.ctxs, e.2.filling = []) →
      ∃ t, exec (.portDisable p) s = .next t ∧ (t.port p).state = 0 ∧ (t.port p).lanes = 0 ∧ (t.port p).enable = false ∧
        bit (t.port p).evt 2 = true ∧ t.net = s.net ∧
        (t.die (siteDie (portSite p))).seq = (s.die (siteDie (portSite p))).seq + 1 ∧
        (bit q.evt 2 = false → t.hostOut = s.hostOut ++ [.msix q.vector]) ∧
        ∀ i, i < 16 → bit (t.site (spanSite p i).1).down (downBit (spanSite p i).2) = true)

/-- R388, R390: a PSALT write stages the key; a switch is made on a port that is up as soon as both ends hold a pending key of one
index, whichever staged it last, and the next new group has counter 0 under it. The peer's pending index is forgotten with the
switch at either end. Which frames carry this, and the count by which the receiver goes over, are log entry 72. -/
def Sys2Proof.Claims.KeyExchange : Prop :=
  ∀ (s : State) p,
    (∀ (v : Word), let c := (s.port p).sel
      let x := s.fabCtx p c
      let idx := bits v.toNat 63 56
      let both := x.peerPend = some idx ∧ (s.port p).cryptOn = true ∧ 2 ≤ (s.port p).state
      (¬ both → ∃ t, exec (.keyStage p v) s = .next t ∧ t.fabCtx p c = { x with pending := some ⟨x.staging, v.setWidth 56, idx⟩ } ∧
        (t.port p).sent = (s.port p).sent ++ [.keyPending c idx] ∧ t = { s with ports := t.ports }) ∧
      (both → ∃ t, exec (.keyStage p v) s = .next t ∧ (t.fabCtx p c).cur = some ⟨x.staging, v.setWidth 56, idx⟩ ∧
        (t.fabCtx p c).pending = none ∧ (t.fabCtx p c).peerPend = none ∧ (t.fabCtx p c).ctr = 0 ∧
        (t.port p).sent = (s.port p).sent ++ [.keyPending c idx, .keySwitch c idx x.ctr])) ∧
    (∀ c idx, let x := s.fabCtx p c
      (∀ k, x.pending = some k → k.idx = idx → (s.port p).cryptOn = true → 2 ≤ (s.port p).state →
        ∃ t, exec (.keySwitch p c idx none) s = .next t ∧ (t.fabCtx p c).cur = some k ∧ (t.fabCtx p c).pending = none ∧
        (t.fabCtx p c).peerPend = none ∧ (t.fabCtx p c).ctr = 0 ∧ (t.fabCtx p c).held = x.held ∧
        (t.port p).sent = (s.port p).sent ++ [.keySwitch c idx x.ctr] ∧ t = { s with ports := t.ports, stateGen := t.stateGen }) ∧
      ((∀ k, x.pending = some k → k.idx ≠ idx) ∨ (s.port p).cryptOn = false ∨ (s.port p).state < 2 →
        ∃ t, exec (.keySwitch p c idx none) s = .next t ∧ t.fabCtx p c = { x with peerPend := some idx } ∧
          (t.port p).sent = (s.port p).sent) ∧
      (∀ k, x.pending = some k → k.idx = idx → x.cur = none → ∃ t, exec (.keySwitch p c idx (some x.expected)) s = .next t ∧
        (t.fabCtx p c).rxKey = some k ∧ (t.fabCtx p c).expected = 0) ∧
      (∀ n, n ≠ x.expected → ∃ t, exec (.keySwitch p c idx (some n)) s = .next t ∧
        t.fabCtx p c = { x with peerPend := (if x.peerPend = some idx then none else x.peerPend), rxSwitch := some (idx, n) }))

/-- R381, R383, R390, R391, R393: sending: held groups marked for it go again first, with their counters, and one that cannot end
in its slot waits, with SLOT_OVERRUN for what waits behind it; a new group is numbered, sealed with the context's key and held;
a new group holds the flits of what waits, in order, from where the last one left off; none is sent while the replay buffer is full,
the keys are exhausted or time is lost, and then too SLOT_OVERRUN tells what can no longer end in its slot. That a group names its key's index is log
entry 72. -/
def Sys2Proof.Claims.GroupsAreSent : Prop :=
  ∀ (s : State) p c, let q := s.port p
    let x := s.fabCtx p c
    (q.state < 2 ∨ s.window p c = false → exec (.groupSend p c) s = .next s) ∧
    (2 ≤ q.state → s.window p c = true →
      (∀ i g, x.resend = some i → x.held[i]? = some g → s.endsInTime p 1 = true → ∃ t, exec (.groupSend p c) s = .next t ∧
        (t.port p).sent = q.sent ++ [.group g] ∧ (t.fabCtx p c).held = x.held ∧ (t.fabCtx p c).ctr = x.ctr ∧
        (t.fabCtx p c).resend = (if i + 1 < x.held.length then some (i + 1) else none) ∧ t = { s with ports := t.ports }) ∧
      (∀ i g, x.resend = some i → x.held[i]? = some g → s.endsInTime p 1 = false →
        (s.waitingFor p c = [] → exec (.groupSend p c) s = .next s) ∧
        (s.waitingFor p c ≠ [] → ∃ t, exec (.groupSend p c) s = .next t ∧ (t.port p).sent = q.sent ∧ t.net = s.net ∧
          (t.fabCtx p c).held = x.held ∧ (t.fabCtx p c).resend = some i ∧
          (q.overrunRot ≠ s.rotation.map (fun r => r.1) → bit (t.port p).evt 6 = true ∧
            (t.die (siteDie (portSite p))).seq = (s.die (siteDie (portSite p))).seq + 1))) ∧
      (x.resend = none → (512 ≤ x.held.length ∨ q.state = 3 ∨ (q.mode = 2 ∧ s.ptp.lost = true) ∨
        (q.cryptOn = true ∧ (x.cur = none ∨ x.ctr = 2 ^ 40 - 1))) →
        ((∀ f ∈ s.waitingFor p c, s.endsInTime p ((x.filling.length + pktFlits f.2.pkt + 15) / 16) = true) →
          exec (.groupSend p c) s = .next s) ∧
        ((∃ f ∈ s.waitingFor p c, s.endsInTime p ((x.filling.length + pktFlits f.2.pkt + 15) / 16) = false) →
          ∃ t, exec (.groupSend p c) s = .next t ∧ (t.port p).sent = q.sent ∧ t.net = s.net ∧ (t.fabCtx p c).held = x.held ∧
          (q.overrunRot ≠ s.rotation.map (fun r => r.1) → bit (t.port p).evt 6 = true ∧
            (t.die (siteDie (portSite p))).seq = (s.die (siteDie (portSite p))).seq + 1))) ∧
      (x.resend = none → s.mayStart p x = true → q.mode ≠ 2 → x.ctr + 1 < 2 ^ 39 →
        let r := fillGroup (fun _ => true) (s.waitingFor p c) x.filling
        16 ≤ r.1.length ∨ (r.1 ≠ [] ∧ x.fillAt + 24 ≤ s.now) → ∃ t g, exec (.groupSend p c) s = .next t ∧
          (t.port p).sent = q.sent ++ [.group g] ∧ (t.fabCtx p c).held = x.held ++ [g] ∧ (t.fabCtx p c).ctr = x.ctr + 1 ∧
          g.ctx = c ∧ g.counter = x.ctr ∧ g.sealed = q.cryptOn ∧
          g.flits = r.1.take 16 ++ List.replicate (16 - r.1.length) .null ∧ (t.fabCtx p c).filling = r.1.drop 16 ∧
          ∀ f, f ∈ t.net ↔ f ∈ s.net ∧ f.id ∉ r.2) ∧
      (x.resend = none → s.mayStart p x = true → s.waitingFor p c = [] → x.filling ≠ [] → x.filling.length < 16 →
        (s.now < x.fillAt + 24 → exec (.groupSend p c) s = .next s) ∧
        (x.fillAt + 24 ≤ s.now → x.ctr + 1 < 2 ^ 39 → ∃ t g, exec (.groupSend p c) s = .next t ∧
          (t.port p).sent = q.sent ++ [.group g] ∧ (t.fabCtx p c).held = x.held ++ [g] ∧ (t.fabCtx p c).ctr = x.ctr + 1 ∧
          g.ctx = c ∧ g.counter = x.ctr ∧ g.sealed = q.cryptOn ∧ g.flits.length = 16 ∧
          g.flits = x.filling ++ List.replicate (16 - x.filling.length) .null ∧
          (∀ k, x.cur = some k → g.key = k.key ∧ g.salt = k.salt ∧ g.keyIdx = k.idx) ∧ t = { s with ports := t.ports })))

/-- R380, R382, R383, R384, R387, R398: receiving: a group with the expected counter, good checks and a good tag is accepted and
acknowledged, its packets come in at their span sites; any other is discarded, the first discard with a NAK, and the sixteenth
failure of a group takes the port down. `unc` is the mask of lanes with an uncorrectable codeword; codewords of lanes whose
light has stopped arriving are not counted, whether the loss is detected yet or not, and no group is good while the map holds such a
lane. That failures are counted for each counter, and
which groups get no NAK, is log entry 72. -/
def Sys2Proof.Claims.GroupsAreReceived : Prop :=
  ∀ (s : State) p (g : Group) crc flits unc, let q := s.port p
    let x := s.fabCtx p g.ctx
    let dark := fun i => bit q.lost i || bit q.unlit i
    let whole := crc = true ∧ flits = true ∧ (∀ i, i < 16 → bit unc i = true → dark i = true) ∧
      ∀ i, i < 16 → bit q.lanes i = true → dark i = false
    let intact := whole ∧ Group.verifies g q.cryptOn x.rxKey = true
    let counted := min (q.uncorr + ((List.range 16).filter fun i => bit unc i && !dark i).length) (2 ^ 32 - 1)
    (q.state < 2 → exec (.groupReceive p g crc flits unc) s = .next s) ∧
    (2 ≤ q.state → intact → g.counter = x.expected → x.rxSwitch = none → ∃ t, exec (.groupReceive p g crc flits unc) s = .next t ∧
      (t.fabCtx p g.ctx).expected = (x.expected + 1) % 2 ^ 40 ∧ (t.fabCtx p g.ctx).nakSent = false ∧
      (t.port p).sent = q.sent ++ [.ack g.ctx g.keyIdx g.counter] ∧ (q.uncorr < 2 ^ 32 → (t.port p).uncorr = q.uncorr) ∧
      t.net.take s.net.length = s.net ∧
      (t.net.drop s.net.length).map (fun f => (f.pkt.body, f.site)) = g.flits.filterMap (fun f => match f with
        | .flit span pkt _ _ true => some (pkt.body, (spanSite p span).1)
        | .flit _ _ _ _ false => none
        | .null => none)) ∧
    (2 ≤ q.state → ¬ (intact ∧ g.counter = x.expected) → x.fails.at g.counter 0 < 15 →
      ∃ t, exec (.groupReceive p g crc flits unc) s = .next t ∧ (t.fabCtx p g.ctx).expected = x.expected ∧ t.net = s.net ∧
        (t.fabCtx p g.ctx).fails.at g.counter 0 = x.fails.at g.counter 0 + 1 ∧
        (q.uncorr < 2 ^ 32 → (t.port p).uncorr = counted) ∧
        (x.nakSent = true ∨ (whole ∧ x.ahead g = true) → (t.port p).sent = q.sent) ∧
        (x.nakSent = false → ¬ (whole ∧ x.ahead g = true) → (t.fabCtx p g.ctx).nakSent = true ∧
          (t.port p).sent = q.sent ++ [.nak g.ctx (rxIndex x) x.expected])) ∧
    (2 ≤ q.state → ¬ (intact ∧ g.counter = x.expected) → 15 ≤ x.fails.at g.counter 0 →
      ∃ t, exec (.groupReceive p g crc flits unc) s = .next t ∧ (t.port p).state = 0)

/-- R379, R383, R384, R398: acknowledgements free held groups, a NAK goes back to the named group, credits come back up to the
size of the receive buffer, and replays are recorded once a millisecond. That control frames name a key's index and a counter is
log entry 72, and whose credits return on a slotted port log entry 50. -/
def Sys2Proof.Claims.ControlFrames : Prop :=
  ∀ (s : State) p c, let q := s.port p
    let x := s.fabCtx p c
    (∀ key n, (∀ g ∈ x.held, ¬ (g.keyIdx = key ∧ g.counter = n)) →
      exec (.ackFrame p c key n) s = .next s ∧ exec (.nakFrame p c key n) s = .next s) ∧
    (∀ key n pre g post, x.held = pre ++ g :: post → g.keyIdx = key → g.counter = n →
      (∀ h ∈ pre, ¬ (h.keyIdx = key ∧ h.counter = n)) →
      (∃ t, exec (.ackFrame p c key n) s = .next t ∧ (t.fabCtx p c).held = post ∧ (t.fabCtx p c).ctr = x.ctr ∧
        (x.resend = none → (t.fabCtx p c).resend = none) ∧ t = { s with ports := t.ports }) ∧
      (∃ t, exec (.nakFrame p c key n) s = .next t ∧ (t.fabCtx p c).resend = some pre.length ∧ (t.fabCtx p c).held = x.held ∧
        (t.port p).replays = min (q.replays + 1) (2 ^ 32 - 1) ∧ (t.port p).replayAt = some (q.replayAt.getD s.now) ∧
        t = { s with ports := t.ports })) ∧
    (∀ lane n, let k0 := creditKey (s.frameCtx p) lane
      ∃ t, exec (.fabricCreditFrame p lane n) s = .next t ∧
      (t.port p).credits.look k0 = some (min (q.credits.at k0 receiveFlits + n) receiveFlits) ∧
      (∀ k, k ≠ k0 → (t.port p).credits.look k = q.credits.look k) ∧ t = { s with ports := t.ports }) ∧
    (∀ t0, q.replayAt = some t0 →
      (s.now < t0 + 1200000 → exec (.replayLog p) s = .next s) ∧
      (t0 + 1200000 ≤ s.now → ∃ t, exec (.replayLog p) s = .next t ∧ t.port p = { q with replayAt := none, replayN := 0 } ∧
        (t.die (siteDie (portSite p))).seq = (s.die (siteDie (portSite p))).seq + 1))

/-- R380, R385, R398: light: lanes whose light stops arriving are dark, and once that is detected they are recorded and a map without
them is proposed (the two steps are log entry 122); with fewer than 4 lanes left the
port goes down; a new map takes effect in its direction, and the transmitter goes back to its oldest held group; a lane whose
light has held for 100 ms is proposed again, and joins with the new map. That the map of either direction with fewer than 4 lanes
takes the port down is log entry 73. -/
def Sys2Proof.Claims.LossOfLight : Prop :=
  ∀ (s : State) p, let q := s.port p
    let gone := fun (l : BitVec 16) => lanesLess l.toNat q.lost
    let seen := fun (l : BitVec 16) => lanesLess (gone l) (lanesLess (gone l) q.unlit)
    (q.state < 2 → (∀ l, exec (.los p l) s = .next s) ∧ (∀ l rx, exec (.restripe p rx l) s = .next s) ∧
      ∀ l, exec (.laneRejoin p l) s = .next s) ∧
    (2 ≤ q.state →
      (∀ (l : BitVec 16), gone l ≠ 0 → (∀ i, i < 16 → bit (gone l) i = true → bit q.unlit i = false) →
        ∃ t, exec (.los p l) s = .next t ∧ (t.port p).unlit = q.unlit + gone l ∧ (t.port p).lost = q.lost ∧
        (t.port p).evt = q.evt ∧ (t.port p).sent = q.sent ∧ (t.port p).lanes = q.lanes ∧ t = { s with ports := t.ports }) ∧
      (∀ (l : BitVec 16), seen l ≠ 0 → 4 ≤ laneCount (lanesLess q.lanes (q.lost + seen l)) → ∃ t, exec (.los p l) s = .next t ∧
        (∀ i, i < 16 → (bit (seen l) i = true ↔ bit l.toNat i = true ∧ bit q.lost i = false ∧ bit q.unlit i = true)) ∧
        (t.port p).lost = q.lost + seen l ∧ (∀ i, i < 16 → (bit (t.port p).unlit i = true ↔
          (bit q.unlit i = true ∧ bit (seen l) i = false) ∨ (bit (gone l) i = true ∧ bit q.unlit i = false))) ∧
        bit (t.port p).evt 0 = true ∧ (t.port p).lanes = q.lanes ∧
        (t.port p).sent = q.sent ++ [.stripe (lanesLess q.lanes (q.lost + seen l))] ∧
        (t.die (siteDie (portSite p))).seq = (s.die (siteDie (portSite p))).seq + 1 ∧ t.net = s.net) ∧
      (∀ (l : BitVec 16), seen l ≠ 0 → laneCount (lanesLess q.lanes (q.lost + seen l)) < 4 →
        ∃ t, exec (.los p l) s = .next t ∧ (t.port p).state = 0 ∧ (t.port p).lanes = 0) ∧
      (∀ (l : BitVec 16), gone l = 0 → exec (.los p l) s = .next s) ∧
      (∀ (l : BitVec 16), 4 ≤ laneCount l.toNat → ∃ t, exec (.restripe p false l) s = .next t ∧ (t.port p).txLanes = l.toNat ∧
        (t.port p).lanes = q.lanes ∧ (t.port p).state = q.state ∧ bit (t.port p).evt 1 = true ∧ t.net = s.net ∧
        (t.die (siteDie (portSite p))).seq = (s.die (siteDie (portSite p))).seq + 1 ∧
        (∀ c, (s.fabCtx p c).held = [] → t.fabCtx p c = s.fabCtx p c) ∧
        (∀ c, (s.fabCtx p c).held ≠ [] → t.fabCtx p c = { s.fabCtx p c with resend := some 0 }) ∧
        ((∃ c, (s.fabCtx p c).held ≠ []) → q.replays < 2 ^ 32 - 1 → (t.port p).replays = q.replays + 1)) ∧
      (∀ (l : BitVec 16), laneCount l.toNat < 4 → ∃ t, exec (.restripe p false l) s = .next t ∧ (t.port p).state = 0) ∧
      (∀ (l : BitVec 16), (∀ i, i < 16 → bit l.toNat i = true → q.laneReady s.now i = true) → 4 ≤ laneCount l.toNat →
        ∃ t, exec (.restripe p true l) s = .next t ∧ (t.port p).lanes = l.toNat ∧ (t.port p).txLanes = q.txLanes ∧
          (t.port p).state = q.state ∧ bit (t.port p).evt 1 = true) ∧
      (∀ (l : BitVec 16), laneCount l.toNat < 4 → ∃ t, exec (.restripe p true l) s = .next t ∧ (t.port p).state = 0) ∧
      (∀ i, i < 16 → bit q.lost i = true → q.back.look i = none → ∃ t, exec (.laneRejoin p i) s = .next t ∧
        (t.port p).back.look i = some s.now ∧ (t.port p).lost = lanesLess q.lost (2 ^ i) ∧ (t.port p).lanes = q.lanes ∧
        t = { s with ports := t.ports }) ∧
      (∀ i, i < 16 → q.back.look i = none → bit q.lanes i = true → bit q.lost i = false → bit q.unlit i = true →
        ∃ t, exec (.laneRejoin p i) s = .next t ∧ bit (t.port p).unlit i = false ∧ (t.port p).lanes = q.lanes ∧
        (t.port p).lost = lanesLess q.lost (2 ^ i) ∧ (t.port p).back = q.back ∧ t = { s with ports := t.ports }) ∧
      (∀ i, i < 16 → q.back.look i = none → bit q.lanes i = true → bit q.lost i = false → bit q.unlit i = false → exec (.laneRejoin p i) s = .next s) ∧
      (∀ i t0, q.back.look i = some t0 →
        (s.now < t0 + 120000000 → exec (.laneRejoin p i) s = .next s) ∧
        (t0 + 120000000 ≤ s.now → ∃ t, exec (.laneRejoin p i) s = .next t ∧
          (t.port p).sent = q.sent ++ [.stripe (if bit q.lanes i then q.lanes else q.lanes + 2 ^ i)] ∧
          (t.port p).lanes = q.lanes ∧ (t.port p).back = q.back ∧ t = { s with ports := t.ports })))

/-- R389, R398: the laser registers as management updates them: B0 is the bias of the first powered hour, the predicted hours
follow from it, and their fall below 1,000 is recorded. A quotient that does not fit its field is a free value (log entry 8).
That B0 is taken by the first update, in an hour of at most 1, and is a free value when that one comes later, and the order of
the cases of LREM, are log entry 74. -/
def Sys2Proof.Claims.LaserMonitoring : Prop :=
  ∀ (s : State) p l, let q := s.port p
    let x := q.lasers.at l .blank
    (x.failed = true → exec (.laserFailureDetect p l) s = .next s) ∧
    (x.failed = false → ∃ t, exec (.laserFailureDetect p l) s = .next t ∧
      (t.port p).lasers.look l = some { x with failed := true, rem := 0, power := 0xF060 } ∧ bit (t.port p).evt 5 = true ∧
      (t.die (siteDie (portSite p))).seq = (s.die (siteDie (portSite p))).seq + 1) ∧
    (∀ (bias power temp hours trend drift : Word), ∃ t y, exec (.laserMonitorUpdate p l bias power temp hours trend drift) s = .next t ∧
      (t.port p).lasers.look l = some y ∧ y.bias = bias &&& 0xFFFFFFFF ∧ y.power = power &&& 0xFFFF ∧ y.temp = temp &&& 0xFFFF ∧
      y.hours = hours &&& 0xFFFFFFFF ∧ y.trend = trend &&& 0xFFFFFFFF ∧ y.drift = drift ∧ y.failed = x.failed ∧
      (let b := bias.toNat % 2 ^ 32
       let tr := sextNat trend.toNat 32
       ∃ b0, y.b0 = some b0 ∧ (∀ v, x.b0 = some v → b0 = v) ∧ (x.b0 = none → hours.toNat % 2 ^ 32 ≤ 1 → b0 = b) ∧
       (x.failed = true → y.rem = 0) ∧
       (x.failed = false → (tr ≤ 0 → y.rem = 0xFFFFFFFF) ∧ (0 < tr → 3 * b0 ≤ 2 * b → y.rem = 0) ∧
         (0 < tr → 2 * b < 3 * b0 → (3 * b0 - 2 * b) * 1000 / (2 * tr.toNat) < 2 ^ 32 →
           y.rem.toNat = (3 * b0 - 2 * b) * 1000 / (2 * tr.toNat)))) ∧
      (1000 ≤ x.rem.toNat → y.rem.toNat < 1000 → bit (t.port p).evt 5 = true ∧
        (t.die (siteDie (portSite p))).seq = (s.die (siteDie (portSite p))).seq + 1) ∧
      (x.rem.toNat < 1000 ∨ 1000 ≤ y.rem.toNat → t.dies = s.dies ∧ t.hostOut = s.hostOut))

/-- R391–R393: time and slots: a Sync brings the time; time is lost 2 s after the last one or beyond 50 ns, and is back after a
good second; a rotation reads the table as it starts; a port's slot runs from its start to its end. Seconds are cycles by log
entry 3; that the rotation in progress is the one PTP time has reached, and that times are whole ns, is log entry 78. -/
def Sys2Proof.Claims.TimeAndSlots : Prop :=
  ∀ (s : State),
    (∀ offset time, ∃ t, exec (.ptpSync offset time) s = .next t ∧ t.ptp.offset = offset ∧ t.ptp.time = time ∧
      t.ptp.lastSync = s.now ∧ t.ptp.lost = s.ptp.lost ∧ t.ptpNow = time ∧
      (offset < -50 ∨ 50 < offset → t.ptp.goodSince = none) ∧
      (-50 ≤ offset → offset ≤ 50 → t.ptp.goodSince = some (s.ptp.goodSince.getD s.now)) ∧ t = { s with ptp := t.ptp }) ∧
    (s.ptp.lost = false → (s.ptp.offset < -50 ∨ 50 < s.ptp.offset ∨ s.ptp.lastSync + 2400000000 < s.now) →
      ∃ t, exec .ptpLost s = .next t ∧ t.ptp.lost = true ∧ t.ctxs = s.ctxs ∧
        ∀ p, p < 64 → (s.port p).mode = 2 → bit (t.port p).evt 7 = true) ∧
    (s.ptp.lost = true ∨ (-50 ≤ s.ptp.offset ∧ s.ptp.offset ≤ 50 ∧ s.now ≤ s.ptp.lastSync + 2400000000) →
      exec .ptpLost s = .next s) ∧
    (∀ t0, s.ptp.lost = true → s.ptp.goodSince = some t0 → t0 + 1200000000 ≤ s.now →
      exec .ptpResume s = .next { s with ptp := { s.ptp with lost := false } }) ∧
    (s.ptp.goodSince = none → exec .ptpResume s = .next s) ∧
    (s.slotRun = false → exec .rotationStart s = .next { s with rotation := none }) ∧
    (s.slotRun = true → let l := (List.range s.slotN).map fun i => s.slotTable.at i .blank
      let r := (l.map fun e => e.duration).sum
      (s.ptpNow < s.slotEpoch ∨ s.ptpNow < s.rotationEnd → exec .rotationStart s = .next s) ∧
      (0 < r → s.slotEpoch ≤ s.ptpNow → s.rotationEnd ≤ s.ptpNow → ∃ t m, exec .rotationStart s = .next t ∧
        t.rotation = some (s.slotEpoch + m * r, l) ∧ s.slotEpoch + m * r ≤ s.ptpNow ∧ s.ptpNow < s.slotEpoch + (m + 1) * r)) ∧
    (∀ p i start l e, s.rotation = some (start, l) → l[i]? = some e → (s.port p).mode = 2 →
      let a := start + ((l.take i).map fun e => e.duration).sum
      (s.ptpNow < a ∨ a + e.duration ≤ s.ptpNow → exec (.slotStart p i) s = .next s) ∧
      (a ≤ s.ptpNow → s.ptpNow < a + e.duration → (s.port p).slot ≠ some (i, a + e.duration) →
        ∃ t, exec (.slotStart p i) s = .next t ∧ (t.port p).slot = some (i, a + e.duration) ∧ t = { s with ports := t.ports }))

/-! ## Rules stated whole -/

/-- R61: no division raises a trap: every one writes its register and goes on. A divisor of zero gives all ones and the
dividend; the most negative value divided by −1 gives itself and 0; the W forms do so on 32-bit values. -/
def Sys2Proof.Claims.DivisionRaisesNoTrap : Prop :=
  ∀ (s : State) (d a b : Reg), let x := s.x a
    let y := s.x b
    let gives := fun (i : Instr) (v : Word) => ∃ t, exec i s = .next t ∧ WritesX s t d v
    let ones : Word := 0xFFFFFFFFFFFFFFFF
    let x32 := (x.setWidth 32).signExtend 64
    (∀ i ∈ [Instr.div d a b, .divu d a b, .rem d a b, .remu d a b, .divw d a b, .divuw d a b, .remw d a b, .remuw d a b],
      ∃ v, gives i v) ∧
    (y = 0 → gives (.div d a b) ones ∧ gives (.divu d a b) ones ∧ gives (.rem d a b) x ∧ gives (.remu d a b) x) ∧
    (x = 0x8000000000000000 → y = ones → gives (.div d a b) x ∧ gives (.rem d a b) 0) ∧
    (y.setWidth 32 = 0#32 → gives (.divw d a b) ones ∧ gives (.divuw d a b) ones ∧ gives (.remw d a b) x32 ∧
      gives (.remuw d a b) x32) ∧
    (x.setWidth 32 = 0x80000000#32 → y.setWidth 32 = 0xFFFFFFFF#32 → gives (.divw d a b) x32 ∧ gives (.remw d a b) 0)

/-- R285: PHASE, STREL and LDACQ of a group the core does not belong to raise the group fault at issue, with TRAPVAL the group:
no access, no arrival; in system mode that is a core fault (R201). Of a group it belongs to, and of group 0, none raises it. -/
def Sys2Proof.Claims.GroupsAreCheckedAtIssue : Prop :=
  ∀ (s : State) (act : Activation) d a w mask (g : BitVec 8), s.me.act = some act →
    ∀ i ∈ [Instr.phase mask g, .strel d a w g, .ldacq d a w g],
      (g ≠ 0 → (∀ j, j < 4 → s.myCore.grp.getLsbD (32 + j) = true → bits s.myCore.grp.toNat (8 * j + 7) (8 * j) ≠ g.toNat) →
        ∃ t, exec i s = .next t ∧ t.reqs = s.reqs ∧ t.net = s.net ∧ t.myCore.phases = s.myCore.phases ∧
          (act.mode = .app → TrapEntered s t s.focus.core s.focus.ctx 0x0C (w64 g.toNat) s.me.pc) ∧
          (act.mode = .system → CoreFaulted s t s.focus.core s.focus.ctx 0x0C (w64 g.toNat) s.me.pc)) ∧
      (holdsGroup s g.toNat → ∃ t, exec i s = .next t ∧
        ∀ v ∈ [w64 (512 * s.focus.ctx + 0x0C), w64 (512 * s.focus.ctx + 256 + 0x0C)],
          t.me.trapcause = v → s.me.trapcause = v)

/-! ## The obligations -/

open Sys2Proof

/-- Decoding an encoded instruction word gives the instruction back. -/
def Obligations.WordsDecodeBack : Prop :=
  Sys2Proof.Claims.EncodedWordDecodesBack

/-- A word that decodes is the one encoding of its instruction. -/
def Obligations.DecodingIsInjective : Prop :=
  Sys2Proof.Claims.DecodedWordEncodesBack

/-- Decoding an encoded tile command gives the command back. -/
def Obligations.CommandsDecodeBack : Prop :=
  Sys2Proof.Claims.EncodedCommandDecodesBack

/-- Words the spec writes out decode to their instructions. -/
def Obligations.WordsOfTheSpecDecode : Prop :=
  Sys2Proof.Claims.SpecWordsDecode

/-- A step runs the instruction decoded at the program counter. -/
def Obligations.StepRunsTheDecodedInstruction : Prop :=
  Sys2Proof.Claims.StepRunsDecodedInstruction

/-- A step runs the head command, the machine step of the agenda, or the time limit that is due; fetch reads the scratchpad. -/
def Obligations.StepRunsCommandsEventsAndLimits : Prop :=
  Sys2Proof.Claims.StepRunsCommandsAndEvents ∧
  Sys2Proof.Claims.StepEndsLateActivations ∧
  Sys2Proof.Claims.FetchReadsTheScratchpad

/-- What reset leaves, and its memory is canonical. -/
def Obligations.ResetState : Prop :=
  Sys2Proof.Claims.ResetValues ∧
  Sys2Proof.Claims.ResetMemoryIsCanonical

/-- Every step keeps device and host memory in canonical form. -/
def Obligations.StepsKeepMemory : Prop :=
  Sys2Proof.Claims.StepsKeepMemoryCanonical

/-- Scalar registers read back; x0 and k0 are hard-wired. -/
def Obligations.RegistersHoldWhatIsWritten : Prop :=
  Sys2Proof.Claims.RegistersReadBack

/-- Division raises no trap, and its corner results. -/
def Obligations.DivisionNeverTraps : Prop :=
  Sys2Proof.Claims.DivisionRaisesNoTrap

/-- PHASE, STREL and LDACQ check their group at issue. -/
def Obligations.GroupFaultAtIssue : Prop :=
  Sys2Proof.Claims.GroupsAreCheckedAtIssue

/-- Scalar arithmetic: results and frame. -/
def Obligations.ScalarArithmetic : Prop :=
  Sys2Proof.Claims.RegisterArithmeticResults ∧
  Sys2Proof.Claims.ImmediateArithmeticResults ∧
  Sys2Proof.Claims.WordArithmeticResults ∧
  Sys2Proof.Claims.MultiplyDivideResults

/-- Branches and jumps: targets, links, misaligned targets. -/
def Obligations.ControlTransfers : Prop :=
  Sys2Proof.Claims.BranchesAndJumps

/-- CSR instructions: values, writable fields, refused uses. -/
def Obligations.CsrAccess : Prop :=
  Sys2Proof.Claims.CsrInstructionResults ∧
  Sys2Proof.Claims.CsrIllegalUseTraps

/-- Taking a trap in app mode, the core fault of system mode, ECALL, EBREAK and illegal words. -/
def Obligations.TrapEntryAndCoreFault : Prop :=
  Sys2Proof.Claims.TrapEntryInAppMode ∧
  Sys2Proof.Claims.TrapInSystemModeIsCoreFault ∧
  Sys2Proof.Claims.ServiceAndIllegalTraps

/-- WCALL, WCALLR, WRET: windows, spills, traps. -/
def Obligations.WindowCallsAndReturns : Prop :=
  Sys2Proof.Claims.WindowCallResults ∧
  Sys2Proof.Claims.WindowReturnResult ∧
  Sys2Proof.Claims.LoadsHoldCallsAndEnds

/-- A call followed by a return restores the window. -/
def Obligations.ReturnUndoesCall : Prop :=
  Sys2Proof.Claims.CallThenReturnRestoresWindow

/-- SEND, SENDM and SENDI: buffers, commits, traps and waits. -/
def Obligations.MessageBuilding : Prop :=
  Sys2Proof.Claims.SendFillsTheSendBuffer ∧
  Sys2Proof.Claims.SendiCommitsAtOnce ∧
  Sys2Proof.Claims.SendTrapsAndWaits

/-- DONE and TRET. -/
def Obligations.ActivationEnds : Prop :=
  Sys2Proof.Claims.DoneEndsTheActivation ∧
  Sys2Proof.Claims.TrapReturnResults

/-- TAGOP, fences, WAITC, IDs and counts. -/
def Obligations.TagsWaitsAndQueries : Prop :=
  Sys2Proof.Claims.TagopResults ∧
  Sys2Proof.Claims.FencesAndWaits ∧
  Sys2Proof.Claims.QueryResults

/-- ENQ and ENQM: acceptance, gathered words, stalls. -/
def Obligations.CommandQueueing : Prop :=
  Sys2Proof.Claims.CommandAcceptance ∧
  Sys2Proof.Claims.GatherReadsAreIssued

/-- SBIND, SUNBIND and stream ports. -/
def Obligations.StreamRegisters : Prop :=
  Sys2Proof.Claims.StreamBinding ∧
  Sys2Proof.Claims.StreamUnbinding ∧
  Sys2Proof.Claims.StreamPortAccesses

/-- TRCTL. -/
def Obligations.TraceInstructions : Prop :=
  Sys2Proof.Claims.TraceControlResults

/-- Scalar loads and stores: translation, requests, frame. -/
def Obligations.ScalarAccessesIssue : Prop :=
  Sys2Proof.Claims.ScalarLoadsIssue ∧
  Sys2Proof.Claims.ScalarStoresIssue

/-- AMO, CAS, peer and ordered accesses. -/
def Obligations.AtomicAccessesIssue : Prop :=
  Sys2Proof.Claims.PeerAndOrderedAccessesIssue ∧
  Sys2Proof.Claims.AtomicsIssue ∧
  Sys2Proof.Claims.PeerAtomicsIssue

/-- Synchronisation objects, barriers and PHASE. -/
def Obligations.SynchronisationIssue : Prop :=
  Sys2Proof.Claims.SynchronisationObjectsIssue ∧
  Sys2Proof.Claims.BarriersAndPhasesIssue

/-- RTSET, RTINV, RTBIND. -/
def Obligations.RouteInstructions : Prop :=
  Sys2Proof.Claims.RouteCacheInstructions ∧
  Sys2Proof.Claims.RouteBinding

/-- Vector arithmetic, bitwise, shift and fused results lane by lane. -/
def Obligations.VectorLanes : Prop :=
  Sys2Proof.Claims.VectorArithmeticResults ∧
  Sys2Proof.Claims.VectorBitwiseAndShiftResults ∧
  Sys2Proof.Claims.VectorFusedResults

/-- Vector unary, compare and conversion results. -/
def Obligations.VectorUnaryCompareConvert : Prop :=
  Sys2Proof.Claims.VectorUnaryResults ∧
  Sys2Proof.Claims.VectorCompareResults ∧
  Sys2Proof.Claims.VectorConversionResults

/-- Vector reductions and integer products. -/
def Obligations.VectorReductions : Prop :=
  Sys2Proof.Claims.VectorReductionResults ∧
  Sys2Proof.Claims.VectorProductResults

/-- The integer reduction is the sum of the active elements. -/
def Obligations.IntegerReductionSums : Prop :=
  Sys2Proof.Claims.IntegerReductionIsTheSum

/-- Vector moves, packs and mask instructions. -/
def Obligations.VectorMovesAndMasks : Prop :=
  Sys2Proof.Claims.VectorPackResults ∧
  Sys2Proof.Claims.VectorMoveResults ∧
  Sys2Proof.Claims.MaskInstructionResults

/-- Rounding keeps the values of a format. -/
def Obligations.RoundingIsExactOnFormatValues : Prop :=
  Sys2Proof.Claims.RoundingKeepsRepresentableValues

/-- Vector loads and stores: units and requests. -/
def Obligations.VectorAccesses : Prop :=
  Sys2Proof.Claims.VectorBlockAccesses ∧
  Sys2Proof.Claims.VectorElementAccesses

/-- An engine fault poisons its queue. -/
def Obligations.EngineFaults : Prop :=
  Sys2Proof.Claims.EngineFaultPoisonsItsQueue

/-- Tile commands: starts, waits, state commands, ends. -/
def Obligations.CommandLife : Prop :=
  Sys2Proof.Claims.StateCommandResults ∧
  Sys2Proof.Claims.WaitingCommandResults ∧
  Sys2Proof.Claims.CommandStarts ∧
  Sys2Proof.Claims.CommandEnds

/-- CPY, CPYG, CPYS, CPYFILL and QSIGNAL step by step. -/
def Obligations.CopyAndSignalCommands : Prop :=
  Sys2Proof.Claims.CopyCommandSteps ∧
  Sys2Proof.Claims.IndexedCopyCommandSteps ∧
  Sys2Proof.Claims.SignalCommandSteps

/-- MXLOADB, MXLOADA, MXRUN and MXOUT. -/
def Obligations.MatrixCommands : Prop :=
  Sys2Proof.Claims.MatrixLoadResults ∧
  Sys2Proof.Claims.MatrixRunResults ∧
  Sys2Proof.Claims.MatrixOutputSteps

/-- A run accumulates the products, and its flags. -/
def Obligations.DenseMatrixProduct : Prop :=
  Sys2Proof.Claims.DenseRunAccumulatesProducts ∧
  Sys2Proof.Claims.PassValues ∧
  Sys2Proof.Claims.PassEntry ∧
  Sys2Proof.Claims.RunEntersPasses

/-- Which candidate starts, which context issues, what is eligible. -/
def Obligations.SchedulingChoices : Prop :=
  Sys2Proof.Claims.StartChoice ∧
  Sys2Proof.Claims.IssueChoice ∧
  Sys2Proof.Claims.EligibilityRules

/-- Starts from messages, pending bits, closes and reports. -/
def Obligations.ActivationsStart : Prop :=
  Sys2Proof.Claims.MessageStarts ∧
  Sys2Proof.Claims.PendingAndCloseStarts ∧
  Sys2Proof.Claims.GatedMessagesAreClassified ∧
  Sys2Proof.Claims.SystemStarts

/-- Arrivals, holds, generations, injection and the time limit. -/
def Obligations.InboxAndInjection : Prop :=
  Sys2Proof.Claims.MessageArrivals ∧
  Sys2Proof.Claims.InboxEvents ∧
  Sys2Proof.Claims.GenerationsKeepOrder ∧
  Sys2Proof.Claims.InjectionAndTimeLimit

/-- Accesses of the own memory are performed; counter records. -/
def Obligations.OwnAccessesArePerformed : Prop :=
  Sys2Proof.Claims.OwnStoresArePerformed ∧
  Sys2Proof.Claims.OwnLoadsArePerformed ∧
  Sys2Proof.Claims.ElementsAreOneUnit ∧
  Sys2Proof.Claims.OwnAtomicsArePerformed ∧
  Sys2Proof.Claims.CounterRecordSteps

/-- Routed requests at their homes, and replies at their contexts. -/
def Obligations.RoutedRequestsAndReplies : Prop :=
  Sys2Proof.Claims.RoutedRequestsArePerformed ∧
  Sys2Proof.Claims.LoadReplies ∧
  Sys2Proof.Claims.StoreCompletions ∧
  Sys2Proof.Claims.SynchronisationReplies

/-- Synchronisation engines: operations, objects, phases. -/
def Obligations.SynchronisationEngines : Prop :=
  Sys2Proof.Claims.EngineOperations ∧
  Sys2Proof.Claims.ObjectOperations ∧
  Sys2Proof.Claims.PhaseSteps

/-- Stream elements and fetched code blocks. -/
def Obligations.StreamsAndFetchedBlocks : Prop :=
  Sys2Proof.Claims.StreamElements ∧
  Sys2Proof.Claims.FetchBlocks

/-- Routers, links and pairing buffers. -/
def Obligations.MeshRouting : Prop :=
  Sys2Proof.Claims.RouterChecks ∧
  Sys2Proof.Claims.RouterSteps ∧
  Sys2Proof.Claims.LinkSteps ∧
  Sys2Proof.Claims.PairingBufferSteps

/-- Address translation and its checks. -/
def Obligations.AddressTranslation : Prop :=
  Sys2Proof.Claims.LowAddressesTranslate ∧
  Sys2Proof.Claims.HighAddressesTranslate ∧
  Sys2Proof.Claims.WindowHolesFault

/-- Page walks and page updates. -/
def Obligations.PageWalks : Prop :=
  Sys2Proof.Claims.WalkReadsTheTable ∧
  Sys2Proof.Claims.LeafSearch ∧
  Sys2Proof.Claims.WalksComplete ∧
  Sys2Proof.Claims.MissesAreTriedAgain ∧
  Sys2Proof.Claims.PageUpdateSteps

/-- PAIR, UNPAIR and twin comparison; moves are system-only. -/
def Obligations.CheckedPairs : Prop :=
  Sys2Proof.Claims.PairResults ∧
  Sys2Proof.Claims.UnpairResults ∧
  Sys2Proof.Claims.TwinResults ∧
  Sys2Proof.Claims.MovesAreSystemOnly

/-- MIGRATE and the move of a core, forwarding at the vacated site. -/
def Obligations.Migration : Prop :=
  Sys2Proof.Claims.MigrateResults ∧
  Sys2Proof.Claims.MovesEndActivations ∧
  Sys2Proof.Claims.MovesSendTheSave ∧
  Sys2Proof.Claims.MovesInstall ∧
  Sys2Proof.Claims.MovesAreAbandoned ∧
  Sys2Proof.Claims.VacatedSitesForward

/-- Regulators, converters, power-on and throttling. -/
def Obligations.PowerAndTemperature : Prop :=
  Sys2Proof.Claims.RegulatorFailures ∧
  Sys2Proof.Claims.HoldupEnds ∧
  Sys2Proof.Claims.ConverterFailure ∧
  Sys2Proof.Claims.PowerOnStages ∧
  Sys2Proof.Claims.ThermalThrottling

/-- Fatal errors, soft errors and event records. -/
def Obligations.ErrorsAndRecords : Prop :=
  Sys2Proof.Claims.FatalErrors ∧
  Sys2Proof.Claims.SoftErrors ∧
  Sys2Proof.Claims.EventRecords

/-- Cold reset and the stages of bring-up. -/
def Obligations.BringUp : Prop :=
  Sys2Proof.Claims.ColdResetResults ∧
  Sys2Proof.Claims.PowerStage ∧
  Sys2Proof.Claims.BringUpStages

/-- Graft entries place the cores, no two at one site. -/
def Obligations.GraftsPlaceCores : Prop :=
  Sys2Proof.Claims.GraftRewrites ∧
  Sys2Proof.Claims.CoresNeverShareASite

/-- Launch queues and LOAD. -/
def Obligations.LaunchQueues : Prop :=
  Sys2Proof.Claims.ClaimAndPublish ∧
  Sys2Proof.Claims.RingWrites ∧
  Sys2Proof.Claims.QueueTakes ∧
  Sys2Proof.Claims.LoadResults ∧
  Sys2Proof.Claims.LoadChecksInOrder

/-- Launches: checks, rounds, quiescence, abort, log replay. -/
def Obligations.Launches : Prop :=
  Sys2Proof.Claims.LaunchResults ∧
  Sys2Proof.Claims.RoundsBegin ∧
  Sys2Proof.Claims.LogsAreReplayed ∧
  Sys2Proof.Claims.QuiescenceEndsRounds ∧
  Sys2Proof.Claims.LaunchesAreEnded

/-- Host reads, writes, registers and SPDM. -/
def Obligations.HostInterface : Prop :=
  Sys2Proof.Claims.HostAccesses ∧
  Sys2Proof.Claims.RegisterWriteResults ∧
  Sys2Proof.Claims.SpdmAnswers

/-- Optical ports: training, light, lasers, time and slots. -/
def Obligations.PortsLightAndTime : Prop :=
  Sys2Proof.Claims.PortTraining ∧
  Sys2Proof.Claims.LossOfLight ∧
  Sys2Proof.Claims.LaserMonitoring ∧
  Sys2Proof.Claims.TimeAndSlots

/-- Optical ports: keys, groups sent and received, control frames. -/
def Obligations.FlitGroups : Prop :=
  Sys2Proof.Claims.KeyExchange ∧
  Sys2Proof.Claims.GroupsAreSent ∧
  Sys2Proof.Claims.GroupsAreReceived ∧
  Sys2Proof.Claims.ControlFrames
end

