-- ==== Sys2Proof/Laws/Encoding.lean ====
section
/-! SUPPORT. Lemmas about the layouts of instruction words and tile command words (R36–R51). -/

namespace Sys2Proof.Laws

open Sys2Proof

set_option linter.unusedSimpArgs false

/-- Decoding a word laid out by `encR` reads back its six fields. -/
theorem decode_encR (f7 : BitVec 7) (b a : Reg) (f3 : BitVec 3) (d : Reg) (op : BitVec 7) :
    decode32 (encR f7 b a f3 d op) = decodeFields f7 b a f3 d op := by
  unfold decode32 encR
  congr 1 <;> ext i hi <;> simp only [BitVec.getElem_extractLsb', BitVec.getLsbD_append] <;> simp (disch := omega) only [if_pos, if_neg, Nat.add_sub_cancel_left, BitVec.getLsbD_eq_getElem] <;> congr 1 <;> omega

@[simp] theorem cut_6_1_5_2 (x : BitVec 6) (y : BitVec 1) : (x ++ y : BitVec 7).extractLsb' 5 2 = x.extractLsb' 4 2 := by ext i hi; grind

/-! Fields of fields: a part of two joined fields is a part of one of them. -/


@[simp] theorem cut_6_1_0_1 (x : BitVec 6) (y : BitVec 1) : (x ++ y : BitVec 7).extractLsb' 0 1 = y := by ext i hi; grind

@[simp] theorem cut_6_1_1_6 (x : BitVec 6) (y : BitVec 1) : (x ++ y : BitVec 7).extractLsb' 1 6 = x := by ext i hi; grind

@[simp] theorem cut_6_1_3_4 (x : BitVec 6) (y : BitVec 1) : (x ++ y : BitVec 7).extractLsb' 3 4 = x.extractLsb' 2 4 := by ext i hi; grind

@[simp] theorem cut_6_1_6_1 (x : BitVec 6) (y : BitVec 1) : (x ++ y : BitVec 7).extractLsb' 6 1 = x.extractLsb' 5 1 := by ext i hi; grind

@[simp] theorem cut_2_5_5_2 (x : BitVec 2) (y : BitVec 5) : (x ++ y : BitVec 7).extractLsb' 5 2 = x := by ext i hi; grind

@[simp] theorem cut_2_5_0_5 (x : BitVec 2) (y : BitVec 5) : (x ++ y : BitVec 7).extractLsb' 0 5 = y := by ext i hi; grind

@[simp] theorem cut_2_5_0_1 (x : BitVec 2) (y : BitVec 5) : (x ++ y : BitVec 7).extractLsb' 0 1 = y.extractLsb' 0 1 := by ext i hi; grind

@[simp] theorem cut_2_5_0_3 (x : BitVec 2) (y : BitVec 5) : (x ++ y : BitVec 7).extractLsb' 0 3 = y.extractLsb' 0 3 := by ext i hi; grind

@[simp] theorem cut_2_5_6_1 (x : BitVec 2) (y : BitVec 5) : (x ++ y : BitVec 7).extractLsb' 6 1 = x.extractLsb' 1 1 := by ext i hi; grind

@[simp] theorem cut_4_3_5_2 (x : BitVec 4) (y : BitVec 3) : (x ++ y : BitVec 7).extractLsb' 5 2 = x.extractLsb' 2 2 := by ext i hi; grind

@[simp] theorem cut_4_3_0_1 (x : BitVec 4) (y : BitVec 3) : (x ++ y : BitVec 7).extractLsb' 0 1 = y.extractLsb' 0 1 := by ext i hi; grind

@[simp] theorem cut_4_3_3_4 (x : BitVec 4) (y : BitVec 3) : (x ++ y : BitVec 7).extractLsb' 3 4 = x := by ext i hi; grind

@[simp] theorem cut_4_3_0_3 (x : BitVec 4) (y : BitVec 3) : (x ++ y : BitVec 7).extractLsb' 0 3 = y := by ext i hi; grind

@[simp] theorem cut_4_3_6_1 (x : BitVec 4) (y : BitVec 3) : (x ++ y : BitVec 7).extractLsb' 6 1 = x.extractLsb' 3 1 := by ext i hi; grind

@[simp] theorem cut_1_6_0_5 (x : BitVec 1) (y : BitVec 6) : (x ++ y : BitVec 7).extractLsb' 0 5 = y.extractLsb' 0 5 := by ext i hi; grind

@[simp] theorem cut_1_6_0_1 (x : BitVec 1) (y : BitVec 6) : (x ++ y : BitVec 7).extractLsb' 0 1 = y.extractLsb' 0 1 := by ext i hi; grind

@[simp] theorem cut_1_6_0_3 (x : BitVec 1) (y : BitVec 6) : (x ++ y : BitVec 7).extractLsb' 0 3 = y.extractLsb' 0 3 := by ext i hi; grind

@[simp] theorem cut_1_6_6_1 (x : BitVec 1) (y : BitVec 6) : (x ++ y : BitVec 7).extractLsb' 6 1 = x := by ext i hi; grind

@[simp] theorem cut_1_6_0_6 (x : BitVec 1) (y : BitVec 6) : (x ++ y : BitVec 7).extractLsb' 0 6 = y := by ext i hi; grind

@[simp] theorem cut_1_4_4_1 (x : BitVec 1) (y : BitVec 4) : (x ++ y : BitVec 5).extractLsb' 4 1 = x := by ext i hi; grind

@[simp] theorem cut_1_4_0_4 (x : BitVec 1) (y : BitVec 4) : (x ++ y : BitVec 5).extractLsb' 0 4 = y := by ext i hi; grind

@[simp] theorem cut_1_4_0_2 (x : BitVec 1) (y : BitVec 4) : (x ++ y : BitVec 5).extractLsb' 0 2 = y.extractLsb' 0 2 := by ext i hi; grind

@[simp] theorem cut_1_4_3_1 (x : BitVec 1) (y : BitVec 4) : (x ++ y : BitVec 5).extractLsb' 3 1 = y.extractLsb' 3 1 := by ext i hi; grind

@[simp] theorem cut_1_4_0_3 (x : BitVec 1) (y : BitVec 4) : (x ++ y : BitVec 5).extractLsb' 0 3 = y.extractLsb' 0 3 := by ext i hi; grind

@[simp] theorem cut_1_4_0_1 (x : BitVec 1) (y : BitVec 4) : (x ++ y : BitVec 5).extractLsb' 0 1 = y.extractLsb' 0 1 := by ext i hi; grind

@[simp] theorem cut_4_1_4_1 (x : BitVec 4) (y : BitVec 1) : (x ++ y : BitVec 5).extractLsb' 4 1 = x.extractLsb' 3 1 := by ext i hi; grind

@[simp] theorem cut_4_1_2_3 (x : BitVec 4) (y : BitVec 1) : (x ++ y : BitVec 5).extractLsb' 2 3 = x.extractLsb' 1 3 := by ext i hi; grind

@[simp] theorem cut_4_1_3_1 (x : BitVec 4) (y : BitVec 1) : (x ++ y : BitVec 5).extractLsb' 3 1 = x.extractLsb' 2 1 := by ext i hi; grind

@[simp] theorem cut_4_1_3_2 (x : BitVec 4) (y : BitVec 1) : (x ++ y : BitVec 5).extractLsb' 3 2 = x.extractLsb' 2 2 := by ext i hi; grind

@[simp] theorem cut_4_1_0_1 (x : BitVec 4) (y : BitVec 1) : (x ++ y : BitVec 5).extractLsb' 0 1 = y := by ext i hi; grind

@[simp] theorem cut_4_1_1_4 (x : BitVec 4) (y : BitVec 1) : (x ++ y : BitVec 5).extractLsb' 1 4 = x := by ext i hi; grind

@[simp] theorem cut_3_2_4_1 (x : BitVec 3) (y : BitVec 2) : (x ++ y : BitVec 5).extractLsb' 4 1 = x.extractLsb' 2 1 := by ext i hi; grind

@[simp] theorem cut_3_2_0_2 (x : BitVec 3) (y : BitVec 2) : (x ++ y : BitVec 5).extractLsb' 0 2 = y := by ext i hi; grind

@[simp] theorem cut_3_2_2_3 (x : BitVec 3) (y : BitVec 2) : (x ++ y : BitVec 5).extractLsb' 2 3 = x := by ext i hi; grind

@[simp] theorem cut_3_2_3_1 (x : BitVec 3) (y : BitVec 2) : (x ++ y : BitVec 5).extractLsb' 3 1 = x.extractLsb' 1 1 := by ext i hi; grind

@[simp] theorem cut_3_2_3_2 (x : BitVec 3) (y : BitVec 2) : (x ++ y : BitVec 5).extractLsb' 3 2 = x.extractLsb' 1 2 := by ext i hi; grind

@[simp] theorem cut_3_2_0_1 (x : BitVec 3) (y : BitVec 2) : (x ++ y : BitVec 5).extractLsb' 0 1 = y.extractLsb' 0 1 := by ext i hi; grind

@[simp] theorem cut_2_3_4_1 (x : BitVec 2) (y : BitVec 3) : (x ++ y : BitVec 5).extractLsb' 4 1 = x.extractLsb' 1 1 := by ext i hi; grind

@[simp] theorem cut_2_3_0_2 (x : BitVec 2) (y : BitVec 3) : (x ++ y : BitVec 5).extractLsb' 0 2 = y.extractLsb' 0 2 := by ext i hi; grind

@[simp] theorem cut_2_3_3_1 (x : BitVec 2) (y : BitVec 3) : (x ++ y : BitVec 5).extractLsb' 3 1 = x.extractLsb' 0 1 := by ext i hi; grind

@[simp] theorem cut_2_3_3_2 (x : BitVec 2) (y : BitVec 3) : (x ++ y : BitVec 5).extractLsb' 3 2 = x := by ext i hi; grind

@[simp] theorem cut_2_3_0_3 (x : BitVec 2) (y : BitVec 3) : (x ++ y : BitVec 5).extractLsb' 0 3 = y := by ext i hi; grind

@[simp] theorem cut_2_3_0_1 (x : BitVec 2) (y : BitVec 3) : (x ++ y : BitVec 5).extractLsb' 0 1 = y.extractLsb' 0 1 := by ext i hi; grind

@[simp] theorem cut_2_1_1_1 (x : BitVec 2) (y : BitVec 1) : (x ++ y : BitVec 3).extractLsb' 1 1 = x.extractLsb' 0 1 := by ext i hi; grind

@[simp] theorem cut_2_1_2_1 (x : BitVec 2) (y : BitVec 1) : (x ++ y : BitVec 3).extractLsb' 2 1 = x.extractLsb' 1 1 := by ext i hi; grind

@[simp] theorem cut_2_1_0_1 (x : BitVec 2) (y : BitVec 1) : (x ++ y : BitVec 3).extractLsb' 0 1 = y := by ext i hi; grind

@[simp] theorem cut_2_1_1_2 (x : BitVec 2) (y : BitVec 1) : (x ++ y : BitVec 3).extractLsb' 1 2 = x := by ext i hi; grind

@[simp] theorem cut_1_1_0_1 (x : BitVec 1) (y : BitVec 1) : (x ++ y : BitVec 2).extractLsb' 0 1 = y := by ext i hi; grind

@[simp] theorem cut_1_1_1_1 (x : BitVec 1) (y : BitVec 1) : (x ++ y : BitVec 2).extractLsb' 1 1 = x := by ext i hi; grind

@[simp] theorem cut_1_2_2_1 (x : BitVec 1) (y : BitVec 2) : (x ++ y : BitVec 3).extractLsb' 2 1 = x := by ext i hi; grind

@[simp] theorem cut_1_2_0_2 (x : BitVec 1) (y : BitVec 2) : (x ++ y : BitVec 3).extractLsb' 0 2 = y := by ext i hi; grind

@[simp] theorem cut_1_2_0_1 (x : BitVec 1) (y : BitVec 2) : (x ++ y : BitVec 3).extractLsb' 0 1 = y.extractLsb' 0 1 := by ext i hi; grind

@[simp] theorem cut_1_2_1_1 (x : BitVec 1) (y : BitVec 2) : (x ++ y : BitVec 3).extractLsb' 1 1 = y.extractLsb' 1 1 := by ext i hi; grind

@[simp] theorem cut_3_1_0_1 (x : BitVec 3) (y : BitVec 1) : (x ++ y : BitVec 4).extractLsb' 0 1 = y := by ext i hi; grind

@[simp] theorem cut_3_1_1_3 (x : BitVec 3) (y : BitVec 1) : (x ++ y : BitVec 4).extractLsb' 1 3 = x := by ext i hi; grind

@[simp] theorem cut_3_2_2_1 (x : BitVec 3) (y : BitVec 2) : (x ++ y : BitVec 5).extractLsb' 2 1 = x.extractLsb' 0 1 := by ext i hi; grind

@[simp] theorem cut_5_2_2_5 (x : BitVec 5) (y : BitVec 2) : (x ++ y : BitVec 7).extractLsb' 2 5 = x := by ext i hi; grind

@[simp] theorem cut_5_2_3_4 (x : BitVec 5) (y : BitVec 2) : (x ++ y : BitVec 7).extractLsb' 3 4 = x.extractLsb' 1 4 := by ext i hi; grind

@[simp] theorem cut_5_2_6_1 (x : BitVec 5) (y : BitVec 2) : (x ++ y : BitVec 7).extractLsb' 6 1 = x.extractLsb' 4 1 := by ext i hi; grind

@[simp] theorem cut_5_2_0_1 (x : BitVec 5) (y : BitVec 2) : (x ++ y : BitVec 7).extractLsb' 0 1 = y.extractLsb' 0 1 := by ext i hi; grind

@[simp] theorem cut_5_2_0_2 (x : BitVec 5) (y : BitVec 2) : (x ++ y : BitVec 7).extractLsb' 0 2 = y := by ext i hi; grind

@[simp] theorem cut_5_2_2_1 (x : BitVec 5) (y : BitVec 2) : (x ++ y : BitVec 7).extractLsb' 2 1 = x.extractLsb' 0 1 := by ext i hi; grind

@[simp] theorem cut_5_2_5_2 (x : BitVec 5) (y : BitVec 2) : (x ++ y : BitVec 7).extractLsb' 5 2 = x.extractLsb' 3 2 := by ext i hi; grind

@[simp] theorem cut_5_1_2_4 (x : BitVec 5) (y : BitVec 1) : (x ++ y : BitVec 6).extractLsb' 2 4 = x.extractLsb' 1 4 := by ext i hi; grind

@[simp] theorem cut_5_1_1_5 (x : BitVec 5) (y : BitVec 1) : (x ++ y : BitVec 6).extractLsb' 1 5 = x := by ext i hi; grind

@[simp] theorem cut_4_2_2_4 (x : BitVec 4) (y : BitVec 2) : (x ++ y : BitVec 6).extractLsb' 2 4 = x := by ext i hi; grind

/-! Immediates and numbers put together again from their parts. -/


@[simp] theorem joinU (x : BitVec 20) : x.extractLsb' 13 7 ++ x.extractLsb' 8 5 ++ x.extractLsb' 3 5 ++ x.extractLsb' 0 3 = x := by ext i hi; grind

@[simp] theorem joinJ (x : BitVec 20) : x.extractLsb' 19 1 ++ x.extractLsb' 14 5 ++ x.extractLsb' 11 3 ++ x.extractLsb' 10 1 ++ x.extractLsb' 4 6 ++ x.extractLsb' 0 4 = x := by ext i hi; grind

@[simp] theorem joinB (x : BitVec 12) : x.extractLsb' 11 1 ++ x.extractLsb' 10 1 ++ x.extractLsb' 4 6 ++ x.extractLsb' 0 4 = x := by ext i hi; grind

@[simp] theorem join12 (x : BitVec 12) : x.extractLsb' 5 7 ++ x.extractLsb' 0 5 = x := by ext i hi; grind

@[simp] theorem join6a (x : BitVec 6) : x.extractLsb' 5 1 ++ x.extractLsb' 0 5 = x := by ext i hi; grind

@[simp] theorem join4 (x : BitVec 4) : x.extractLsb' 1 3 ++ x.extractLsb' 0 1 = x := by ext i hi; grind

@[simp] theorem join22 (x : BitVec 22) : x.extractLsb' 15 7 ++ x.extractLsb' 10 5 ++ x.extractLsb' 5 5 ++ x.extractLsb' 0 5 = x := by ext i hi; grind

@[simp] theorem join6b (x : BitVec 6) : x.extractLsb' 1 5 ++ x.extractLsb' 0 1 = x := by ext i hi; grind

@[simp] theorem join6c (x : BitVec 6) : x.extractLsb' 2 4 ++ x.extractLsb' 0 2 = x := by ext i hi; grind

@[simp] theorem join8a (x : BitVec 8) : x.extractLsb' 1 7 ++ x.extractLsb' 0 1 = x := by ext i hi; grind

@[simp] theorem join8b (x : BitVec 8) : x.extractLsb' 5 3 ++ x.extractLsb' 0 5 = x := by ext i hi; grind

@[simp] theorem join8c (x : BitVec 8) : x.extractLsb' 3 5 ++ x.extractLsb' 0 3 = x := by ext i hi; grind

@[simp] theorem ne_0 (m : BitVec 3) : (1#4 ++ m = 0#7) = False := by simp only [eq_iff_iff, iff_false]; revert m; decide

@[simp] theorem ne_1 (m : BitVec 3) : (1#4 ++ m = 1#7) = False := by simp only [eq_iff_iff, iff_false]; revert m; decide

@[simp] theorem ne_2 (m : BitVec 3) : (1#4 ++ m = 2#7) = False := by simp only [eq_iff_iff, iff_false]; revert m; decide

@[simp] theorem ne_3 (m : BitVec 3) : (1#4 ++ m = 3#7) = False := by simp only [eq_iff_iff, iff_false]; revert m; decide

@[simp] theorem ne_4 (m : BitVec 3) : (1#4 ++ m = 4#7) = False := by simp only [eq_iff_iff, iff_false]; revert m; decide

@[simp] theorem get_2 (x y z : BitVec 1) : (x ++ y ++ z ++ 0#2)[2] = z[0] := by grind

@[simp] theorem get_1 (x : BitVec 3) (z : BitVec 1) : (x ++ z ++ 0#1)[1] = z[0] := by grind

@[simp] theorem code_3 : ElemTy.ofCode 3#3 = .f64 := rfl

/-- Element type codes read back (R45). -/
@[simp] theorem ofCode_code (e : ElemTy) : ElemTy.ofCode e.code = e := by cases e <;> rfl


/-! What well-formedness asks, constructor by constructor. -/


@[simp] theorem wf_send (tag : BitVec 6) (ch : BitVec 6) (pl : BitVec 5) : (Instr.send tag ch pl).wf = (pl == 0#5 || 16 <= pl.toNat : Bool) := rfl

@[simp] theorem wf_sendi (tag : BitVec 6) (ch : BitVec 6) (pl : BitVec 5) : (Instr.sendi tag ch pl).wf = (pl == 0#5 || 16 <= pl.toNat : Bool) := rfl

@[simp] theorem wf_vfma (et : ElemTy) (d : Reg) (a : Reg) (b : Reg) (k : BitVec 3) : (Instr.vfma et d a b k).wf = (et.isFp : Bool) := rfl

@[simp] theorem wf_vfms (et : ElemTy) (d : Reg) (a : Reg) (b : Reg) (k : BitVec 3) : (Instr.vfms et d a b k).wf = (et.isFp : Bool) := rfl

@[simp] theorem wf_vfnma (et : ElemTy) (d : Reg) (a : Reg) (b : Reg) (k : BitVec 3) : (Instr.vfnma et d a b k).wf = (et.isFp : Bool) := rfl

@[simp] theorem wf_vand (et : ElemTy) (d : Reg) (a : Reg) (b : Reg) (k : BitVec 3) : (Instr.vand et d a b k).wf = (!et.isFp : Bool) := rfl

@[simp] theorem wf_vor (et : ElemTy) (d : Reg) (a : Reg) (b : Reg) (k : BitVec 3) : (Instr.vor et d a b k).wf = (!et.isFp : Bool) := rfl

@[simp] theorem wf_vxor (et : ElemTy) (d : Reg) (a : Reg) (b : Reg) (k : BitVec 3) : (Instr.vxor et d a b k).wf = (!et.isFp : Bool) := rfl

@[simp] theorem wf_vshl (et : ElemTy) (d : Reg) (a : Reg) (b : Reg) (k : BitVec 3) : (Instr.vshl et d a b k).wf = (!et.isFp : Bool) := rfl

@[simp] theorem wf_vshr (et : ElemTy) (d : Reg) (a : Reg) (b : Reg) (k : BitVec 3) : (Instr.vshr et d a b k).wf = (!et.isFp : Bool) := rfl

@[simp] theorem wf_vsra (et : ElemTy) (d : Reg) (a : Reg) (b : Reg) (k : BitVec 3) : (Instr.vsra et d a b k).wf = (!et.isFp : Bool) := rfl

@[simp] theorem wf_vcmp (c : CmpCond) (et : ElemTy) (kd : BitVec 3) (a : Reg) (b : Reg) (k : BitVec 3) : (Instr.vcmp c et kd a b k).wf = (kd != 0#3 : Bool) := rfl

@[simp] theorem wf_vrcp (et : ElemTy) (d : Reg) (a : Reg) (k : BitVec 3) : (Instr.vrcp et d a k).wf = (et.isFp : Bool) := rfl

@[simp] theorem wf_vsqrt (et : ElemTy) (d : Reg) (a : Reg) (k : BitVec 3) : (Instr.vsqrt et d a k).wf = (et.isFp : Bool) := rfl

@[simp] theorem wf_vrsq (et : ElemTy) (d : Reg) (a : Reg) (k : BitVec 3) : (Instr.vrsq et d a k).wf = (et.isFp && et != .f64 : Bool) := rfl

@[simp] theorem wf_vexp2 (et : ElemTy) (d : Reg) (a : Reg) (k : BitVec 3) : (Instr.vexp2 et d a k).wf = (et.isFp && et != .f64 : Bool) := rfl

@[simp] theorem wf_vclz (et : ElemTy) (d : Reg) (a : Reg) (k : BitVec 3) : (Instr.vclz et d a k).wf = (!et.isFp : Bool) := rfl

@[simp] theorem wf_vpopc (et : ElemTy) (d : Reg) (a : Reg) (k : BitVec 3) : (Instr.vpopc et d a k).wf = (!et.isFp : Bool) := rfl

@[simp] theorem wf_vldx (et : ElemTy) (d : Reg) (a : Reg) (b : Reg) (k : BitVec 3) : (Instr.vldx et d a b k).wf = (et == .f32 || et == .f64 || et == .i32 || et == .i64 : Bool) := rfl

@[simp] theorem wf_vstx (et : ElemTy) (d : Reg) (a : Reg) (b : Reg) (k : BitVec 3) : (Instr.vstx et d a b k).wf = (et == .f32 || et == .f64 || et == .i32 || et == .i64 : Bool) := rfl

@[simp] theorem wf_vcvtTo (et : ElemTy) (d : Reg) (a : Reg) (code : BitVec 4) (k : BitVec 3) : (Instr.vcvtTo et d a code k).wf = (code.toNat != et.code.toNat && code.toNat <= 12 : Bool) := rfl

@[simp] theorem wf_vcvtFrom (et : ElemTy) (d : Reg) (a : Reg) (code : BitVec 4) (k : BitVec 3) : (Instr.vcvtFrom et d a code k).wf = (8 <= code.toNat && code.toNat <= 12 : Bool) := rfl

@[simp] theorem wf_vpack (et : ElemTy) (d : Reg) (a : Reg) (b : Reg) (k : BitVec 3) : (Instr.vpack et d a b k).wf = (et == .i64 || et == .i32 || et == .i16 : Bool) := rfl

@[simp] theorem wf_vunpk (et : ElemTy) (d : Reg) (a : Reg) (hi : Bool) (k : BitVec 3) : (Instr.vunpk et d a hi k).wf = (et == .i32 || et == .i16 || et == .i8 : Bool) := rfl

@[simp] theorem wf_vins (et : ElemTy) (d : Reg) (a : Reg) (n : BitVec 5) : (Instr.vins et d a n).wf = (n.toNat < et.nelem : Bool) := rfl

@[simp] theorem wf_vext (et : ElemTy) (d : Reg) (a : Reg) (n : BitVec 5) : (Instr.vext et d a n).wf = (n.toNat < et.nelem : Bool) := rfl

@[simp] theorem wf_vsel (et : ElemTy) (d : Reg) (a : Reg) (b : Reg) (k : BitVec 3) : (Instr.vsel et d a b k).wf = (k != 0#3 : Bool) := rfl

@[simp] theorem wf_vdot (et : ElemTy) (d : Reg) (a : Reg) (b : Reg) (k : BitVec 3) : (Instr.vdot et d a b k).wf = (et == .bf16 || et == .f16 || et == .i16 || et == .i8 : Bool) := rfl

@[simp] theorem wf_vmma64 (d : Reg) (a : Reg) (b : Reg) : (Instr.vmma64 d a b).wf = (d.toNat % 4 == 0 : Bool) := rfl

@[simp] theorem wf_kand (kd : BitVec 3) (ka : BitVec 3) (kb : BitVec 3) : (Instr.kand kd ka kb).wf = (kd != 0#3 : Bool) := rfl

@[simp] theorem wf_kor (kd : BitVec 3) (ka : BitVec 3) (kb : BitVec 3) : (Instr.kor kd ka kb).wf = (kd != 0#3 : Bool) := rfl

@[simp] theorem wf_kxor (kd : BitVec 3) (ka : BitVec 3) (kb : BitVec 3) : (Instr.kxor kd ka kb).wf = (kd != 0#3 : Bool) := rfl

@[simp] theorem wf_knot (kd : BitVec 3) (ka : BitVec 3) : (Instr.knot kd ka).wf = (kd != 0#3 : Bool) := rfl

@[simp] theorem wf_kmovKK (kd : BitVec 3) (ka : BitVec 3) : (Instr.kmovKK kd ka).wf = (kd != 0#3 : Bool) := rfl

@[simp] theorem wf_kmovKX (kd : BitVec 3) (a : Reg) : (Instr.kmovKX kd a).wf = (kd != 0#3 : Bool) := rfl

/-- The fields of a command word read back. -/
theorem ofWord_toWord (f : CmdFields) : CmdFields.ofWord f.toWord = f := by
  obtain ⟨a, b, c, d, e, g, h, i, j⟩ := f
  have w (s l : Nat) : BitVec.extractLsb' s l (CmdFields.toWord ⟨a, b, c, d, e, g, h, i, j⟩)
      = BitVec.extractLsb' s l (j ++ i ++ h ++ g ++ e ++ d ++ c ++ b ++ a) := rfl
  simp only [CmdFields.ofWord, w]
  simp (disch := omega) only [BitVec.extractLsb'_append_eq_of_le, BitVec.extractLsb'_append_eq_of_add_le, Nat.sub_self, Nat.reduceSub, BitVec.extractLsb'_eq_self]
/-- An address operand reads back (R49). -/
@[simp] theorem addrOperand_addrField (a : VAddr) : addrOperand (addrField a) = some a := by
  have h : (0#16 ++ a : BitVec 64).extractLsb' 48 16 = 0#16 := by ext i hi; grind
  have g : (0#16 ++ a : BitVec 64).extractLsb' 0 48 = a := by ext i hi; grind
  simp only [addrOperand, addrField, h, g, if_true]
/-- A literal operand reads back (R49). -/
@[simp] theorem litOperand_litField (a : BitVec 48) : litOperand (litField a) = some a := by
  have h : (0xF000#16 ++ a : BitVec 64).extractLsb' 48 16 = 0xF000#16 := by ext i hi; grind
  have g : (0xF000#16 ++ a : BitVec 64).extractLsb' 0 48 = a := by ext i hi; grind
  simp only [litOperand, litField, h, g, if_true]
/-- A command word decodes to what its fields name, once code, class and loop field are accepted (R50, R160). -/
theorem decodeCommand_toWord (q : EngineQ) (f : CmdFields) (i : Instr) (c : BitVec 4) (hc : classOf f.cmd = some c)
    (he : f.cls = c) (hq : classFits c q = true) (hi : commandOf f = some i) (hl : (loopAllowed f.cmd || f.loop == 255#8) = true) :
    decodeCommand q f.toWord = .ok i := by
  simp only [decodeCommand, ofWord_toWord, hc, he, hq, hi, hl]
  simp
@[simp] theorem x29 (m : BitVec 3) : (0#29 ++ m : BitVec 32).extractLsb' 0 3 = m := by ext i hi; grind
@[simp] theorem x29h (m : BitVec 3) : (0#29 ++ m : BitVec 32).extractLsb' 3 29 = 0#29 := by ext i hi; grind
@[simp] theorem x28 (m : BitVec 28) : (0#4 ++ m : BitVec 32).extractLsb' 0 28 = m := by ext i hi; grind
@[simp] theorem x28h (m : BitVec 28) : (0#4 ++ m : BitVec 32).extractLsb' 28 4 = 0#4 := by ext i hi; grind
@[simp] theorem x8 (m : BitVec 8) : (0#24 ++ m : BitVec 32).extractLsb' 0 8 = m := by ext i hi; grind
@[simp] theorem x8h (m : BitVec 8) : (0#24 ++ m : BitVec 32).extractLsb' 8 24 = 0#24 := by ext i hi; grind
@[simp] theorem x2 (m : BitVec 2) : (0#6 ++ m : BitVec 8).extractLsb' 0 2 = m := by ext i hi; grind
@[simp] theorem x2h (m : BitVec 2) : (0#6 ++ m : BitVec 8).extractLsb' 2 6 = 0#6 := by ext i hi; grind

end Sys2Proof.Laws
end

