-- ==== Sys2Proof/Laws/Memory.lean ====
section
/-! SUPPORT. The laws of memory: a write reads back and leaves every other byte, and every operation keeps the canonical
form (R5, R95; log entry 1). -/

namespace Sys2Proof.Laws

open Sys2Proof Sys2Proof.Machine

/-! ### Read after write -/

theorem read_erase (m : Memory) (a k : Nat) : (m.erase a).read k = if k = a then 0 else m.read k := by
  induction m with
  | nil => simp [Memory.erase, Memory.read]
  | cons c t ih =>
    obtain ⟨j, v⟩ := c
    by_cases h : j = a
    · subst h
      simp only [Memory.erase, if_true, ih, Memory.read]
      split <;> rename_i hk
      · rfl
      · simp [show ¬ j = k from fun e => hk e.symm]
    · simp only [Memory.erase, if_neg h, Memory.read, ih]
      by_cases hj : j = k
      · subst hj; simp [h]
      · simp [hj]

theorem read_insert (m : Memory) (a k : Nat) (b : Byte) : (m.insert a b).read k = if k = a then b else m.read k := by
  induction m with
  | nil => simp only [Memory.insert, Memory.read, eq_comm]
  | cons c t ih =>
    obtain ⟨j, v⟩ := c
    simp only [Memory.insert]
    split
    · simp only [Memory.read, eq_comm]
    · split
      · rename_i h; subst h
        simp only [Memory.read]
        by_cases hk : k = a
        · simp [hk]
        · simp [hk, show ¬ a = k from fun e => hk e.symm]
      · rename_i h1 h2
        simp only [Memory.read, ih]
        by_cases hj : j = k
        · subst hj; simp [show ¬ j = a from fun e => h2 e.symm]
        · simp [hj]

/-- A written byte reads back, and every other byte reads as before. -/
theorem read_write (m : Memory) (a k : Nat) (b : Byte) : (m.write a b).read k = if k = a then b else m.read k := by
  unfold Memory.write
  split
  · rename_i h; rw [read_erase, h]
  · exact read_insert m a k b

/-- The bytes of a run read back, and every byte outside the run reads as before. -/
theorem read_writeN (m : Memory) (a k : Nat) (bs : List Byte) :
    (m.writeN a bs).read k = if a ≤ k ∧ k < a + bs.length then bs.getD (k - a) 0 else m.read k := by
  induction bs generalizing m a with
  | nil => simp [Memory.writeN, show ¬ (a ≤ k ∧ k < a) by omega]
  | cons b t ih =>
    simp only [Memory.writeN, ih, read_write, List.length_cons]
    by_cases h0 : k = a
    · subst h0
      simp [show ¬ (k + 1 ≤ k) by omega]
    · by_cases h1 : a + 1 ≤ k ∧ k < a + 1 + t.length
      · obtain ⟨d, rfl⟩ : ∃ d, k = a + 1 + d := ⟨k - (a + 1), by omega⟩
        simp only [if_pos h1, if_pos (show a ≤ a + 1 + d ∧ a + 1 + d < a + (t.length + 1) by omega)]
        simp [show a + 1 + d - (a + 1) = d by omega, show a + 1 + d - a = d + 1 by omega]
      · rw [if_neg h1, if_neg h0, if_neg (by omega)]

theorem readN_length (m : Memory) (a n : Nat) : (m.readN a n).length = n := by simp [Memory.readN]

theorem readN_getElem (m : Memory) (a n i : Nat) (h : i < (m.readN a n).length) : (m.readN a n)[i] = m.read (a + i) := by
  simp [Memory.readN]

/-- A run that has been written reads back whole. -/
theorem readN_writeN (m : Memory) (a : Nat) (bs : List Byte) : (m.writeN a bs).readN a bs.length = bs := by
  apply List.ext_getElem
  · simp [readN_length]
  · intro i h1 h2
    rw [readN_getElem, read_writeN]
    simp [h2]

/-- A run apart from the written one reads as before. -/
theorem readN_writeN_apart (m : Memory) (a k n : Nat) (bs : List Byte) (h : k + n ≤ a ∨ a + bs.length ≤ k) :
    (m.writeN a bs).readN k n = m.readN k n := by
  apply List.ext_getElem
  · simp [readN_length]
  · intro i h1 h2
    rw [readN_length] at h1
    rw [readN_getElem, readN_getElem, read_writeN, if_neg (by omega)]

/-! ### The canonical form -/

/-- Every listed address is at or above `lo`, whatever lies below it. -/
theorem wfFrom_mono {lo lo' : Nat} (h : lo' ≤ lo) : ∀ {m : Memory}, Memory.wfFrom lo m = true → Memory.wfFrom lo' m = true
  | [], _ => rfl
  | (k, v) :: t, hm => by
    simp only [Memory.wfFrom, Bool.and_eq_true, decide_eq_true_eq] at hm ⊢
    exact ⟨⟨by omega, hm.1.2⟩, hm.2⟩

theorem wfFrom_erase (a : Nat) : ∀ {lo : Nat} {m : Memory}, Memory.wfFrom lo m = true → Memory.wfFrom lo (m.erase a) = true
  | _, [], _ => rfl
  | lo, (k, v) :: t, hm => by
    simp only [Memory.wfFrom, Bool.and_eq_true, decide_eq_true_eq] at hm
    simp only [Memory.erase]
    split
    · exact wfFrom_mono (by omega) (wfFrom_erase a hm.2)
    · simp only [Memory.wfFrom, Bool.and_eq_true, decide_eq_true_eq]
      exact ⟨hm.1, wfFrom_erase a hm.2⟩

theorem wfFrom_insert (a : Nat) (b : Byte) (hb : b ≠ 0) :
    ∀ {lo : Nat} {m : Memory}, lo ≤ a → Memory.wfFrom lo m = true → Memory.wfFrom lo (m.insert a b) = true
  | lo, [], h, _ => by simpa [Memory.insert, Memory.wfFrom, h] using hb
  | lo, (k, v) :: t, h, hm => by
    simp only [Memory.wfFrom, Bool.and_eq_true, decide_eq_true_eq] at hm
    simp only [Memory.insert]
    split
    · simp only [Memory.wfFrom, Bool.and_eq_true, decide_eq_true_eq]
      exact ⟨⟨h, by simpa using hb⟩, ⟨by omega, hm.1.2⟩, hm.2⟩
    · split
      · rename_i h2; subst h2
        simp only [Memory.wfFrom, Bool.and_eq_true, decide_eq_true_eq]
        exact ⟨⟨h, by simpa using hb⟩, hm.2⟩
      · simp only [Memory.wfFrom, Bool.and_eq_true, decide_eq_true_eq]
        exact ⟨hm.1, wfFrom_insert a b hb (by omega) hm.2⟩

/-- A write keeps the canonical form. -/
theorem wf_write (m : Memory) (a : Nat) (b : Byte) (h : m.wf = true) : (m.write a b).wf = true := by
  unfold Memory.write Memory.wf at *
  split
  · exact wfFrom_erase a h
  · rename_i hb; exact wfFrom_insert a b hb (Nat.zero_le a) h

theorem wf_writeN (m : Memory) (a : Nat) (bs : List Byte) (h : m.wf = true) : (m.writeN a bs).wf = true := by
  induction bs generalizing m a with
  | nil => exact h
  | cons b t ih => exact ih _ _ (wf_write m a b h)

theorem wfFrom_filter (p : Host.Cell → Bool) : ∀ {lo : Nat} {m : Memory}, Memory.wfFrom lo m = true →
    Memory.wfFrom lo (m.filter p) = true
  | _, [], _ => rfl
  | lo, (k, v) :: t, hm => by
    simp only [Memory.wfFrom, Bool.and_eq_true, decide_eq_true_eq] at hm
    rw [List.filter_cons]
    split
    · simp only [Memory.wfFrom, Bool.and_eq_true, decide_eq_true_eq]
      exact ⟨hm.1, wfFrom_filter p hm.2⟩
    · exact wfFrom_mono (by omega) (wfFrom_filter p hm.2)

/-- Leaving bytes out keeps the canonical form. -/
theorem wf_filter (p : Host.Cell → Bool) (m : Memory) (h : m.wf = true) : Memory.wf (m.filter p) = true := wfFrom_filter p h

theorem wf_part (m : Memory) (a n : Nat) (h : m.wf = true) : (m.part a n).wf = true := wf_filter _ m h

theorem wf_lose (m : Memory) (a n : Nat) (h : m.wf = true) : (Memory.lose m a n).wf = true := wf_filter _ m h

theorem wf_foldr_write {α : Type} (f : α → Nat) (g : α → Byte) (l : List α) (m : Memory) (h : m.wf = true) :
    (l.foldr (fun c k => Memory.write k (f c) (g c)) m).wf = true := by
  induction l with
  | nil => exact h
  | cons c t ih => exact wf_write _ _ _ ih

theorem wf_foldl_write {α : Type} (f : α → Nat) (g : α → Byte) (l : List α) (m : Memory) (h : m.wf = true) :
    (l.foldl (fun k c => Memory.write k (f c) (g c)) m).wf = true := by
  induction l generalizing m with
  | nil => exact h
  | cons c t ih => exact ih _ (wf_write _ _ _ h)

/-- A run taken from another memory keeps the canonical form. -/
theorem wf_takeRun (m k : Memory) (src dst n : Nat) (h : m.wf = true) : (m.takeRun k src dst n).wf = true :=
  wf_foldr_write _ _ _ _ (wf_filter _ m h)

theorem wf_ofCells (l : List Host.Cell) : (Memory.ofCells l).wf = true := wf_foldl_write _ _ _ _ rfl

theorem wfFrom_append {m k : Memory} {lo hi : Nat} (hm : Memory.wfFrom lo m = true) (hb : ∀ c ∈ m, c.1 < hi)
    (hl : lo ≤ hi) (hk : Memory.wfFrom hi k = true) : Memory.wfFrom lo (m ++ k) = true := by
  induction m generalizing lo with
  | nil => exact wfFrom_mono hl hk
  | cons c t ih =>
    obtain ⟨j, v⟩ := c
    simp only [Memory.wfFrom, Bool.and_eq_true, decide_eq_true_eq] at hm
    have hj : j < hi := hb (j, v) (by simp)
    simp only [List.cons_append, Memory.wfFrom, Bool.and_eq_true, decide_eq_true_eq]
    exact ⟨hm.1, ih hm.2 (fun c hc => hb c (by simp [hc])) (by omega)⟩

theorem wfFrom_shift (a : Nat) : ∀ {lo : Nat} {m : Memory}, Memory.wfFrom lo m = true →
    Memory.wfFrom (a + lo) (m.map fun c => (a + c.1, c.2)) = true
  | _, [], _ => rfl
  | lo, (k, v) :: t, hm => by
    simp only [Memory.wfFrom, Bool.and_eq_true, decide_eq_true_eq] at hm
    simp only [List.map_cons, Memory.wfFrom, Bool.and_eq_true, decide_eq_true_eq]
    exact ⟨⟨by omega, hm.1.2⟩, wfFrom_shift a hm.2⟩

/-- The listed addresses at or above a bound. -/
theorem wfFrom_above (b : Nat) : ∀ {lo : Nat} {m : Memory}, Memory.wfFrom lo m = true →
    Memory.wfFrom b (m.filter fun c => decide (b ≤ c.1)) = true
  | _, [], _ => rfl
  | lo, (k, v) :: t, hm => by
    simp only [Memory.wfFrom, Bool.and_eq_true, decide_eq_true_eq] at hm
    rw [List.filter_cons]
    split
    · rename_i hk
      simp only [decide_eq_true_eq] at hk
      simp only [Memory.wfFrom, Bool.and_eq_true, decide_eq_true_eq]
      exact ⟨⟨hk, hm.1.2⟩, wfFrom_filter _ hm.2⟩
    · exact wfFrom_above b hm.2

/-- A replaced run keeps the canonical form. -/
theorem wf_splice (m k : Memory) (a n : Nat) (hm : m.wf = true) (hk : k.wf = true) : (m.splice a n k).wf = true := by
  have h1 := wfFrom_shift a (wfFrom_filter (fun c => decide (c.1 < n)) hk)
  have h2 := wfFrom_above (a + n) hm
  have h3 : Memory.wfFrom 0 (m.filter fun c => decide (c.1 < a)) = true := wfFrom_filter _ hm
  unfold Memory.splice Memory.wf
  rw [List.append_assoc]
  refine wfFrom_append (hi := a) h3 (by simp) (Nat.zero_le a) ?_
  refine wfFrom_append (hi := a + n) (wfFrom_mono (by omega) h1) ?_ (by omega) h2
  intro c hc
  simp only [List.mem_map, List.mem_filter, decide_eq_true_eq] at hc
  obtain ⟨d, ⟨_, hd⟩, rfl⟩ := hc
  show a + d.1 < a + n
  omega

/-! ### Places -/

/-- Writing a run of physical memory, and the shadow's copy of it, keeps the canonical form. -/
theorem wf_writePlace (s : State) (p : Place) (bs : List Byte) (h : s.mem.wf = true) : (s.writePlace p bs).mem.wf = true := by
  have h1 := wf_writeN s.mem p.phys bs h
  unfold State.writePlace
  dsimp only
  split
  · generalize s.mirrors p.owner = l
    suffices ∀ (t : State), t.mem.wf = true →
        (l.foldl (fun t o => { t with mem := t.mem.writeN { p with owner := o : Place }.phys bs }) t).mem.wf = true from this _ h1
    induction l with
    | nil => exact fun t ht => ht
    | cons o r ih => exact fun t ht => ih _ (wf_writeN _ _ _ ht)
  · exact h1

/-- Event records keep the canonical form. -/
theorem wf_putRecords (die : Nat) (l : List LogEvent) : ∀ (s : State) (p q : Nat), s.mem.wf = true →
    (s.putRecords die p q l).mem.wf = true := by
  induction l with
  | nil => exact fun _ _ _ h => h
  | cons e r ih => exact fun s p q h => ih _ _ _ (wf_writePlace _ _ _ h)

/-- An event record keeps the canonical form. -/
theorem wf_log (s : State) (die code site : Nat) (core : Option Nat) (detail : Word) (bytes : List Word)
    (h : s.mem.wf = true) : (s.log die code site core detail bytes).mem.wf = true := wf_putRecords _ _ _ _ _ h

/-- What `writePlace` can do: memory and the units in error change, and nothing else. -/
theorem writePlace_only (s : State) (p : Place) (bs : List Byte) :
    s.writePlace p bs = { s with mem := (s.writePlace p bs).mem, poison := (s.writePlace p bs).poison } := by
  unfold State.writePlace
  dsimp only
  split
  · generalize s.mirrors p.owner = l
    suffices ∀ (t : State), (l.foldl (fun t o => { t with mem := t.mem.writeN { p with owner := o : Place }.phys bs }) t) =
        { t with mem := (l.foldl (fun t o => { t with mem := t.mem.writeN { p with owner := o : Place }.phys bs }) t).mem,
                 poison := t.poison } by
      rw [this]
    induction l with
    | nil => exact fun t => rfl
    | cons o r ih => intro t; simp only [List.foldl_cons]; rw [ih]
  · rfl

/-- What `putRecords` can do: memory and the units in error change, and nothing else. -/
theorem putRecords_only (die : Nat) (l : List LogEvent) : ∀ (s : State) (p q : Nat),
    s.putRecords die p q l = { s with mem := (s.putRecords die p q l).mem, poison := (s.putRecords die p q l).poison } := by
  induction l with
  | nil => exact fun _ _ _ => rfl
  | cons e r ih =>
    intro s p q
    simp only [State.putRecords]
    rw [ih, writePlace_only]

/-- What `log` can do: the bytes of records, the die's sequence number, its next place and its events of this cycle. -/
theorem log_only (s : State) (die code site : Nat) (core : Option Nat) (detail : Word) (bytes : List Word) :
    let t := s.log die code site core detail bytes
    ∃ l, t = { s with mem := t.mem, poison := t.poison,
                      dies := s.dies.put die { s.die die with
                        seq := (s.die die).seq + 1, place := ((s.die die).place + 1) % 4096, logAt := s.now, logged := l } } :=
  ⟨_, putRecords_only die _ _ _ _⟩

end Sys2Proof.Laws
end

