-- ==== Sys2Proof/Laws/State.lean ====
section
/-! SUPPORT. One lemma per field per update of the state: an update changes its own field and leaves every other. -/

namespace Sys2Proof.Laws

open Sys2Proof Sys2Proof.Machine

@[simp] theorem setCore_cores (s : State) (n : Nat) (c : Core) : (s.setCore n c).cores = s.cores.put n c := rfl
@[simp] theorem setCore_ctxs (s : State) (n : Nat) (c : Core) : (s.setCore n c).ctxs = s.ctxs := rfl
@[simp] theorem setCore_mem (s : State) (n : Nat) (c : Core) : (s.setCore n c).mem = s.mem := rfl
@[simp] theorem setCore_poison (s : State) (n : Nat) (c : Core) : (s.setCore n c).poison = s.poison := rfl
@[simp] theorem setCore_reqs (s : State) (n : Nat) (c : Core) : (s.setCore n c).reqs = s.reqs := rfl
@[simp] theorem setCore_net (s : State) (n : Nat) (c : Core) : (s.setCore n c).net = s.net := rfl
@[simp] theorem setCore_used (s : State) (n : Nat) (c : Core) : (s.setCore n c).used = s.used := rfl
@[simp] theorem setCore_owed (s : State) (n : Nat) (c : Core) : (s.setCore n c).owed = s.owed := rfl
@[simp] theorem setCore_outTurn (s : State) (n : Nat) (c : Core) : (s.setCore n c).outTurn = s.outTurn := rfl
@[simp] theorem setCore_crcFails (s : State) (n : Nat) (c : Core) : (s.setCore n c).crcFails = s.crcFails := rfl
@[simp] theorem setCore_injected (s : State) (n : Nat) (c : Core) : (s.setCore n c).injected = s.injected := rfl
@[simp] theorem setCore_consumed (s : State) (n : Nat) (c : Core) : (s.setCore n c).consumed = s.consumed := rfl
@[simp] theorem setCore_reports (s : State) (n : Nat) (c : Core) : (s.setCore n c).reports = s.reports := rfl
@[simp] theorem setCore_engRoutes (s : State) (n : Nat) (c : Core) : (s.setCore n c).engRoutes = s.engRoutes := rfl
@[simp] theorem setCore_sites (s : State) (n : Nat) (c : Core) : (s.setCore n c).sites = s.sites := rfl
@[simp] theorem setCore_clusters (s : State) (n : Nat) (c : Core) : (s.setCore n c).clusters = s.clusters := rfl
@[simp] theorem setCore_dies (s : State) (n : Nat) (c : Core) : (s.setCore n c).dies = s.dies := rfl
@[simp] theorem setCore_grafts (s : State) (n : Nat) (c : Core) : (s.setCore n c).grafts = s.grafts := rfl
@[simp] theorem setCore_remaps (s : State) (n : Nat) (c : Core) : (s.setCore n c).remaps = s.remaps := rfl
@[simp] theorem setCore_manifest (s : State) (n : Nat) (c : Core) : (s.setCore n c).manifest = s.manifest := rfl
@[simp] theorem setCore_training (s : State) (n : Nat) (c : Core) : (s.setCore n c).training = s.training := rfl
@[simp] theorem setCore_graftGen (s : State) (n : Nat) (c : Core) : (s.setCore n c).graftGen = s.graftGen := rfl
@[simp] theorem setCore_stateGen (s : State) (n : Nat) (c : Core) : (s.setCore n c).stateGen = s.stateGen := rfl
@[simp] theorem setCore_moduleId (s : State) (n : Nat) (c : Core) : (s.setCore n c).moduleId = s.moduleId := rfl
@[simp] theorem setCore_groups (s : State) (n : Nat) (c : Core) : (s.setCore n c).groups = s.groups := rfl
@[simp] theorem setCore_members (s : State) (n : Nat) (c : Core) : (s.setCore n c).members = s.members := rfl
@[simp] theorem setCore_image (s : State) (n : Nat) (c : Core) : (s.setCore n c).image = s.image := rfl
@[simp] theorem setCore_running (s : State) (n : Nat) (c : Core) : (s.setCore n c).running = s.running := rfl
@[simp] theorem setCore_queues (s : State) (n : Nat) (c : Core) : (s.setCore n c).queues = s.queues := rfl
@[simp] theorem setCore_cached (s : State) (n : Nat) (c : Core) : (s.setCore n c).cached = s.cached := rfl
@[simp] theorem setCore_hwin (s : State) (n : Nat) (c : Core) : (s.setCore n c).hwin = s.hwin := rfl
@[simp] theorem setCore_hevt (s : State) (n : Nat) (c : Core) : (s.setCore n c).hevt = s.hevt := rfl
@[simp] theorem setCore_slotRun (s : State) (n : Nat) (c : Core) : (s.setCore n c).slotRun = s.slotRun := rfl
@[simp] theorem setCore_slotN (s : State) (n : Nat) (c : Core) : (s.setCore n c).slotN = s.slotN := rfl
@[simp] theorem setCore_slotEpoch (s : State) (n : Nat) (c : Core) : (s.setCore n c).slotEpoch = s.slotEpoch := rfl
@[simp] theorem setCore_slotTable (s : State) (n : Nat) (c : Core) : (s.setCore n c).slotTable = s.slotTable := rfl
@[simp] theorem setCore_rotation (s : State) (n : Nat) (c : Core) : (s.setCore n c).rotation = s.rotation := rfl
@[simp] theorem setCore_bringup (s : State) (n : Nat) (c : Core) : (s.setCore n c).bringup = s.bringup := rfl
@[simp] theorem setCore_flash (s : State) (n : Nat) (c : Core) : (s.setCore n c).flash = s.flash := rfl
@[simp] theorem setCore_fatals (s : State) (n : Nat) (c : Core) : (s.setCore n c).fatals = s.fatals := rfl
@[simp] theorem setCore_coppice (s : State) (n : Nat) (c : Core) : (s.setCore n c).coppice = s.coppice := rfl
@[simp] theorem setCore_ports (s : State) (n : Nat) (c : Core) : (s.setCore n c).ports = s.ports := rfl
@[simp] theorem setCore_ptp (s : State) (n : Nat) (c : Core) : (s.setCore n c).ptp = s.ptp := rfl
@[simp] theorem setCore_pageMove (s : State) (n : Nat) (c : Core) : (s.setCore n c).pageMove = s.pageMove := rfl
@[simp] theorem setCore_spdm (s : State) (n : Nat) (c : Core) : (s.setCore n c).spdm = s.spdm := rfl
@[simp] theorem setCore_manifestOk (s : State) (n : Nat) (c : Core) : (s.setCore n c).manifestOk = s.manifestOk := rfl
@[simp] theorem setCore_hostMem (s : State) (n : Nat) (c : Core) : (s.setCore n c).hostMem = s.hostMem := rfl
@[simp] theorem setCore_hostImages (s : State) (n : Nat) (c : Core) : (s.setCore n c).hostImages = s.hostImages := rfl
@[simp] theorem setCore_hostHeld (s : State) (n : Nat) (c : Core) : (s.setCore n c).hostHeld = s.hostHeld := rfl
@[simp] theorem setCore_hostOut (s : State) (n : Nat) (c : Core) : (s.setCore n c).hostOut = s.hostOut := rfl
@[simp] theorem setCore_now (s : State) (n : Nat) (c : Core) : (s.setCore n c).now = s.now := rfl
@[simp] theorem setCore_turn (s : State) (n : Nat) (c : Core) : (s.setCore n c).turn = s.turn := rfl
@[simp] theorem setCore_fresh (s : State) (n : Nat) (c : Core) : (s.setCore n c).fresh = s.fresh := rfl
@[simp] theorem setCore_agenda (s : State) (n : Nat) (c : Core) : (s.setCore n c).agenda = s.agenda := rfl
@[simp] theorem setCore_focus (s : State) (n : Nat) (c : Core) : (s.setCore n c).focus = s.focus := rfl

@[simp] theorem setCtx_ctxs (s : State) (n k : Nat) (x : Ctx) : (s.setCtx n k x).ctxs = s.ctxs.put (4 * n + k) x := rfl
@[simp] theorem setCtx_cores (s : State) (n k : Nat) (x : Ctx) : (s.setCtx n k x).cores = s.cores := rfl
@[simp] theorem setCtx_mem (s : State) (n k : Nat) (x : Ctx) : (s.setCtx n k x).mem = s.mem := rfl
@[simp] theorem setCtx_poison (s : State) (n k : Nat) (x : Ctx) : (s.setCtx n k x).poison = s.poison := rfl
@[simp] theorem setCtx_reqs (s : State) (n k : Nat) (x : Ctx) : (s.setCtx n k x).reqs = s.reqs := rfl
@[simp] theorem setCtx_net (s : State) (n k : Nat) (x : Ctx) : (s.setCtx n k x).net = s.net := rfl
@[simp] theorem setCtx_used (s : State) (n k : Nat) (x : Ctx) : (s.setCtx n k x).used = s.used := rfl
@[simp] theorem setCtx_owed (s : State) (n k : Nat) (x : Ctx) : (s.setCtx n k x).owed = s.owed := rfl
@[simp] theorem setCtx_outTurn (s : State) (n k : Nat) (x : Ctx) : (s.setCtx n k x).outTurn = s.outTurn := rfl
@[simp] theorem setCtx_crcFails (s : State) (n k : Nat) (x : Ctx) : (s.setCtx n k x).crcFails = s.crcFails := rfl
@[simp] theorem setCtx_injected (s : State) (n k : Nat) (x : Ctx) : (s.setCtx n k x).injected = s.injected := rfl
@[simp] theorem setCtx_consumed (s : State) (n k : Nat) (x : Ctx) : (s.setCtx n k x).consumed = s.consumed := rfl
@[simp] theorem setCtx_reports (s : State) (n k : Nat) (x : Ctx) : (s.setCtx n k x).reports = s.reports := rfl
@[simp] theorem setCtx_engRoutes (s : State) (n k : Nat) (x : Ctx) : (s.setCtx n k x).engRoutes = s.engRoutes := rfl
@[simp] theorem setCtx_sites (s : State) (n k : Nat) (x : Ctx) : (s.setCtx n k x).sites = s.sites := rfl
@[simp] theorem setCtx_clusters (s : State) (n k : Nat) (x : Ctx) : (s.setCtx n k x).clusters = s.clusters := rfl
@[simp] theorem setCtx_dies (s : State) (n k : Nat) (x : Ctx) : (s.setCtx n k x).dies = s.dies := rfl
@[simp] theorem setCtx_grafts (s : State) (n k : Nat) (x : Ctx) : (s.setCtx n k x).grafts = s.grafts := rfl
@[simp] theorem setCtx_remaps (s : State) (n k : Nat) (x : Ctx) : (s.setCtx n k x).remaps = s.remaps := rfl
@[simp] theorem setCtx_manifest (s : State) (n k : Nat) (x : Ctx) : (s.setCtx n k x).manifest = s.manifest := rfl
@[simp] theorem setCtx_training (s : State) (n k : Nat) (x : Ctx) : (s.setCtx n k x).training = s.training := rfl
@[simp] theorem setCtx_graftGen (s : State) (n k : Nat) (x : Ctx) : (s.setCtx n k x).graftGen = s.graftGen := rfl
@[simp] theorem setCtx_stateGen (s : State) (n k : Nat) (x : Ctx) : (s.setCtx n k x).stateGen = s.stateGen := rfl
@[simp] theorem setCtx_moduleId (s : State) (n k : Nat) (x : Ctx) : (s.setCtx n k x).moduleId = s.moduleId := rfl
@[simp] theorem setCtx_groups (s : State) (n k : Nat) (x : Ctx) : (s.setCtx n k x).groups = s.groups := rfl
@[simp] theorem setCtx_members (s : State) (n k : Nat) (x : Ctx) : (s.setCtx n k x).members = s.members := rfl
@[simp] theorem setCtx_image (s : State) (n k : Nat) (x : Ctx) : (s.setCtx n k x).image = s.image := rfl
@[simp] theorem setCtx_running (s : State) (n k : Nat) (x : Ctx) : (s.setCtx n k x).running = s.running := rfl
@[simp] theorem setCtx_queues (s : State) (n k : Nat) (x : Ctx) : (s.setCtx n k x).queues = s.queues := rfl
@[simp] theorem setCtx_cached (s : State) (n k : Nat) (x : Ctx) : (s.setCtx n k x).cached = s.cached := rfl
@[simp] theorem setCtx_hwin (s : State) (n k : Nat) (x : Ctx) : (s.setCtx n k x).hwin = s.hwin := rfl
@[simp] theorem setCtx_hevt (s : State) (n k : Nat) (x : Ctx) : (s.setCtx n k x).hevt = s.hevt := rfl
@[simp] theorem setCtx_slotRun (s : State) (n k : Nat) (x : Ctx) : (s.setCtx n k x).slotRun = s.slotRun := rfl
@[simp] theorem setCtx_slotN (s : State) (n k : Nat) (x : Ctx) : (s.setCtx n k x).slotN = s.slotN := rfl
@[simp] theorem setCtx_slotEpoch (s : State) (n k : Nat) (x : Ctx) : (s.setCtx n k x).slotEpoch = s.slotEpoch := rfl
@[simp] theorem setCtx_slotTable (s : State) (n k : Nat) (x : Ctx) : (s.setCtx n k x).slotTable = s.slotTable := rfl
@[simp] theorem setCtx_rotation (s : State) (n k : Nat) (x : Ctx) : (s.setCtx n k x).rotation = s.rotation := rfl
@[simp] theorem setCtx_bringup (s : State) (n k : Nat) (x : Ctx) : (s.setCtx n k x).bringup = s.bringup := rfl
@[simp] theorem setCtx_flash (s : State) (n k : Nat) (x : Ctx) : (s.setCtx n k x).flash = s.flash := rfl
@[simp] theorem setCtx_fatals (s : State) (n k : Nat) (x : Ctx) : (s.setCtx n k x).fatals = s.fatals := rfl
@[simp] theorem setCtx_coppice (s : State) (n k : Nat) (x : Ctx) : (s.setCtx n k x).coppice = s.coppice := rfl
@[simp] theorem setCtx_ports (s : State) (n k : Nat) (x : Ctx) : (s.setCtx n k x).ports = s.ports := rfl
@[simp] theorem setCtx_ptp (s : State) (n k : Nat) (x : Ctx) : (s.setCtx n k x).ptp = s.ptp := rfl
@[simp] theorem setCtx_pageMove (s : State) (n k : Nat) (x : Ctx) : (s.setCtx n k x).pageMove = s.pageMove := rfl
@[simp] theorem setCtx_spdm (s : State) (n k : Nat) (x : Ctx) : (s.setCtx n k x).spdm = s.spdm := rfl
@[simp] theorem setCtx_manifestOk (s : State) (n k : Nat) (x : Ctx) : (s.setCtx n k x).manifestOk = s.manifestOk := rfl
@[simp] theorem setCtx_hostMem (s : State) (n k : Nat) (x : Ctx) : (s.setCtx n k x).hostMem = s.hostMem := rfl
@[simp] theorem setCtx_hostImages (s : State) (n k : Nat) (x : Ctx) : (s.setCtx n k x).hostImages = s.hostImages := rfl
@[simp] theorem setCtx_hostHeld (s : State) (n k : Nat) (x : Ctx) : (s.setCtx n k x).hostHeld = s.hostHeld := rfl
@[simp] theorem setCtx_hostOut (s : State) (n k : Nat) (x : Ctx) : (s.setCtx n k x).hostOut = s.hostOut := rfl
@[simp] theorem setCtx_now (s : State) (n k : Nat) (x : Ctx) : (s.setCtx n k x).now = s.now := rfl
@[simp] theorem setCtx_turn (s : State) (n k : Nat) (x : Ctx) : (s.setCtx n k x).turn = s.turn := rfl
@[simp] theorem setCtx_fresh (s : State) (n k : Nat) (x : Ctx) : (s.setCtx n k x).fresh = s.fresh := rfl
@[simp] theorem setCtx_agenda (s : State) (n k : Nat) (x : Ctx) : (s.setCtx n k x).agenda = s.agenda := rfl
@[simp] theorem setCtx_focus (s : State) (n k : Nat) (x : Ctx) : (s.setCtx n k x).focus = s.focus := rfl

@[simp] theorem setDie_dies (s : State) (d : Nat) (x : Die) : (s.setDie d x).dies = s.dies.put d x := rfl
@[simp] theorem setDie_cores (s : State) (d : Nat) (x : Die) : (s.setDie d x).cores = s.cores := rfl
@[simp] theorem setDie_ctxs (s : State) (d : Nat) (x : Die) : (s.setDie d x).ctxs = s.ctxs := rfl
@[simp] theorem setDie_mem (s : State) (d : Nat) (x : Die) : (s.setDie d x).mem = s.mem := rfl
@[simp] theorem setDie_poison (s : State) (d : Nat) (x : Die) : (s.setDie d x).poison = s.poison := rfl
@[simp] theorem setDie_reqs (s : State) (d : Nat) (x : Die) : (s.setDie d x).reqs = s.reqs := rfl
@[simp] theorem setDie_net (s : State) (d : Nat) (x : Die) : (s.setDie d x).net = s.net := rfl
@[simp] theorem setDie_used (s : State) (d : Nat) (x : Die) : (s.setDie d x).used = s.used := rfl
@[simp] theorem setDie_owed (s : State) (d : Nat) (x : Die) : (s.setDie d x).owed = s.owed := rfl
@[simp] theorem setDie_outTurn (s : State) (d : Nat) (x : Die) : (s.setDie d x).outTurn = s.outTurn := rfl
@[simp] theorem setDie_crcFails (s : State) (d : Nat) (x : Die) : (s.setDie d x).crcFails = s.crcFails := rfl
@[simp] theorem setDie_injected (s : State) (d : Nat) (x : Die) : (s.setDie d x).injected = s.injected := rfl
@[simp] theorem setDie_consumed (s : State) (d : Nat) (x : Die) : (s.setDie d x).consumed = s.consumed := rfl
@[simp] theorem setDie_reports (s : State) (d : Nat) (x : Die) : (s.setDie d x).reports = s.reports := rfl
@[simp] theorem setDie_engRoutes (s : State) (d : Nat) (x : Die) : (s.setDie d x).engRoutes = s.engRoutes := rfl
@[simp] theorem setDie_sites (s : State) (d : Nat) (x : Die) : (s.setDie d x).sites = s.sites := rfl
@[simp] theorem setDie_clusters (s : State) (d : Nat) (x : Die) : (s.setDie d x).clusters = s.clusters := rfl
@[simp] theorem setDie_grafts (s : State) (d : Nat) (x : Die) : (s.setDie d x).grafts = s.grafts := rfl
@[simp] theorem setDie_remaps (s : State) (d : Nat) (x : Die) : (s.setDie d x).remaps = s.remaps := rfl
@[simp] theorem setDie_manifest (s : State) (d : Nat) (x : Die) : (s.setDie d x).manifest = s.manifest := rfl
@[simp] theorem setDie_training (s : State) (d : Nat) (x : Die) : (s.setDie d x).training = s.training := rfl
@[simp] theorem setDie_graftGen (s : State) (d : Nat) (x : Die) : (s.setDie d x).graftGen = s.graftGen := rfl
@[simp] theorem setDie_stateGen (s : State) (d : Nat) (x : Die) : (s.setDie d x).stateGen = s.stateGen := rfl
@[simp] theorem setDie_moduleId (s : State) (d : Nat) (x : Die) : (s.setDie d x).moduleId = s.moduleId := rfl
@[simp] theorem setDie_groups (s : State) (d : Nat) (x : Die) : (s.setDie d x).groups = s.groups := rfl
@[simp] theorem setDie_members (s : State) (d : Nat) (x : Die) : (s.setDie d x).members = s.members := rfl
@[simp] theorem setDie_image (s : State) (d : Nat) (x : Die) : (s.setDie d x).image = s.image := rfl
@[simp] theorem setDie_running (s : State) (d : Nat) (x : Die) : (s.setDie d x).running = s.running := rfl
@[simp] theorem setDie_queues (s : State) (d : Nat) (x : Die) : (s.setDie d x).queues = s.queues := rfl
@[simp] theorem setDie_cached (s : State) (d : Nat) (x : Die) : (s.setDie d x).cached = s.cached := rfl
@[simp] theorem setDie_hwin (s : State) (d : Nat) (x : Die) : (s.setDie d x).hwin = s.hwin := rfl
@[simp] theorem setDie_hevt (s : State) (d : Nat) (x : Die) : (s.setDie d x).hevt = s.hevt := rfl
@[simp] theorem setDie_slotRun (s : State) (d : Nat) (x : Die) : (s.setDie d x).slotRun = s.slotRun := rfl
@[simp] theorem setDie_slotN (s : State) (d : Nat) (x : Die) : (s.setDie d x).slotN = s.slotN := rfl
@[simp] theorem setDie_slotEpoch (s : State) (d : Nat) (x : Die) : (s.setDie d x).slotEpoch = s.slotEpoch := rfl
@[simp] theorem setDie_slotTable (s : State) (d : Nat) (x : Die) : (s.setDie d x).slotTable = s.slotTable := rfl
@[simp] theorem setDie_rotation (s : State) (d : Nat) (x : Die) : (s.setDie d x).rotation = s.rotation := rfl
@[simp] theorem setDie_bringup (s : State) (d : Nat) (x : Die) : (s.setDie d x).bringup = s.bringup := rfl
@[simp] theorem setDie_flash (s : State) (d : Nat) (x : Die) : (s.setDie d x).flash = s.flash := rfl
@[simp] theorem setDie_fatals (s : State) (d : Nat) (x : Die) : (s.setDie d x).fatals = s.fatals := rfl
@[simp] theorem setDie_coppice (s : State) (d : Nat) (x : Die) : (s.setDie d x).coppice = s.coppice := rfl
@[simp] theorem setDie_ports (s : State) (d : Nat) (x : Die) : (s.setDie d x).ports = s.ports := rfl
@[simp] theorem setDie_ptp (s : State) (d : Nat) (x : Die) : (s.setDie d x).ptp = s.ptp := rfl
@[simp] theorem setDie_pageMove (s : State) (d : Nat) (x : Die) : (s.setDie d x).pageMove = s.pageMove := rfl
@[simp] theorem setDie_spdm (s : State) (d : Nat) (x : Die) : (s.setDie d x).spdm = s.spdm := rfl
@[simp] theorem setDie_manifestOk (s : State) (d : Nat) (x : Die) : (s.setDie d x).manifestOk = s.manifestOk := rfl
@[simp] theorem setDie_hostMem (s : State) (d : Nat) (x : Die) : (s.setDie d x).hostMem = s.hostMem := rfl
@[simp] theorem setDie_hostImages (s : State) (d : Nat) (x : Die) : (s.setDie d x).hostImages = s.hostImages := rfl
@[simp] theorem setDie_hostHeld (s : State) (d : Nat) (x : Die) : (s.setDie d x).hostHeld = s.hostHeld := rfl
@[simp] theorem setDie_hostOut (s : State) (d : Nat) (x : Die) : (s.setDie d x).hostOut = s.hostOut := rfl
@[simp] theorem setDie_now (s : State) (d : Nat) (x : Die) : (s.setDie d x).now = s.now := rfl
@[simp] theorem setDie_turn (s : State) (d : Nat) (x : Die) : (s.setDie d x).turn = s.turn := rfl
@[simp] theorem setDie_fresh (s : State) (d : Nat) (x : Die) : (s.setDie d x).fresh = s.fresh := rfl
@[simp] theorem setDie_agenda (s : State) (d : Nat) (x : Die) : (s.setDie d x).agenda = s.agenda := rfl
@[simp] theorem setDie_focus (s : State) (d : Nat) (x : Die) : (s.setDie d x).focus = s.focus := rfl

@[simp] theorem setCluster_clusters (s : State) (k : Nat) (x : Cluster) : (s.setCluster k x).clusters = s.clusters.put k x := rfl
@[simp] theorem setCluster_cores (s : State) (k : Nat) (x : Cluster) : (s.setCluster k x).cores = s.cores := rfl
@[simp] theorem setCluster_ctxs (s : State) (k : Nat) (x : Cluster) : (s.setCluster k x).ctxs = s.ctxs := rfl
@[simp] theorem setCluster_mem (s : State) (k : Nat) (x : Cluster) : (s.setCluster k x).mem = s.mem := rfl
@[simp] theorem setCluster_poison (s : State) (k : Nat) (x : Cluster) : (s.setCluster k x).poison = s.poison := rfl
@[simp] theorem setCluster_reqs (s : State) (k : Nat) (x : Cluster) : (s.setCluster k x).reqs = s.reqs := rfl
@[simp] theorem setCluster_net (s : State) (k : Nat) (x : Cluster) : (s.setCluster k x).net = s.net := rfl
@[simp] theorem setCluster_used (s : State) (k : Nat) (x : Cluster) : (s.setCluster k x).used = s.used := rfl
@[simp] theorem setCluster_owed (s : State) (k : Nat) (x : Cluster) : (s.setCluster k x).owed = s.owed := rfl
@[simp] theorem setCluster_outTurn (s : State) (k : Nat) (x : Cluster) : (s.setCluster k x).outTurn = s.outTurn := rfl
@[simp] theorem setCluster_crcFails (s : State) (k : Nat) (x : Cluster) : (s.setCluster k x).crcFails = s.crcFails := rfl
@[simp] theorem setCluster_injected (s : State) (k : Nat) (x : Cluster) : (s.setCluster k x).injected = s.injected := rfl
@[simp] theorem setCluster_consumed (s : State) (k : Nat) (x : Cluster) : (s.setCluster k x).consumed = s.consumed := rfl
@[simp] theorem setCluster_reports (s : State) (k : Nat) (x : Cluster) : (s.setCluster k x).reports = s.reports := rfl
@[simp] theorem setCluster_engRoutes (s : State) (k : Nat) (x : Cluster) : (s.setCluster k x).engRoutes = s.engRoutes := rfl
@[simp] theorem setCluster_sites (s : State) (k : Nat) (x : Cluster) : (s.setCluster k x).sites = s.sites := rfl
@[simp] theorem setCluster_dies (s : State) (k : Nat) (x : Cluster) : (s.setCluster k x).dies = s.dies := rfl
@[simp] theorem setCluster_grafts (s : State) (k : Nat) (x : Cluster) : (s.setCluster k x).grafts = s.grafts := rfl
@[simp] theorem setCluster_remaps (s : State) (k : Nat) (x : Cluster) : (s.setCluster k x).remaps = s.remaps := rfl
@[simp] theorem setCluster_manifest (s : State) (k : Nat) (x : Cluster) : (s.setCluster k x).manifest = s.manifest := rfl
@[simp] theorem setCluster_training (s : State) (k : Nat) (x : Cluster) : (s.setCluster k x).training = s.training := rfl
@[simp] theorem setCluster_graftGen (s : State) (k : Nat) (x : Cluster) : (s.setCluster k x).graftGen = s.graftGen := rfl
@[simp] theorem setCluster_moduleId (s : State) (k : Nat) (x : Cluster) : (s.setCluster k x).moduleId = s.moduleId := rfl
@[simp] theorem setCluster_groups (s : State) (k : Nat) (x : Cluster) : (s.setCluster k x).groups = s.groups := rfl
@[simp] theorem setCluster_members (s : State) (k : Nat) (x : Cluster) : (s.setCluster k x).members = s.members := rfl
@[simp] theorem setCluster_image (s : State) (k : Nat) (x : Cluster) : (s.setCluster k x).image = s.image := rfl
@[simp] theorem setCluster_running (s : State) (k : Nat) (x : Cluster) : (s.setCluster k x).running = s.running := rfl
@[simp] theorem setCluster_queues (s : State) (k : Nat) (x : Cluster) : (s.setCluster k x).queues = s.queues := rfl
@[simp] theorem setCluster_cached (s : State) (k : Nat) (x : Cluster) : (s.setCluster k x).cached = s.cached := rfl
@[simp] theorem setCluster_hwin (s : State) (k : Nat) (x : Cluster) : (s.setCluster k x).hwin = s.hwin := rfl
@[simp] theorem setCluster_hevt (s : State) (k : Nat) (x : Cluster) : (s.setCluster k x).hevt = s.hevt := rfl
@[simp] theorem setCluster_slotRun (s : State) (k : Nat) (x : Cluster) : (s.setCluster k x).slotRun = s.slotRun := rfl
@[simp] theorem setCluster_slotN (s : State) (k : Nat) (x : Cluster) : (s.setCluster k x).slotN = s.slotN := rfl
@[simp] theorem setCluster_slotEpoch (s : State) (k : Nat) (x : Cluster) : (s.setCluster k x).slotEpoch = s.slotEpoch := rfl
@[simp] theorem setCluster_slotTable (s : State) (k : Nat) (x : Cluster) : (s.setCluster k x).slotTable = s.slotTable := rfl
@[simp] theorem setCluster_rotation (s : State) (k : Nat) (x : Cluster) : (s.setCluster k x).rotation = s.rotation := rfl
@[simp] theorem setCluster_bringup (s : State) (k : Nat) (x : Cluster) : (s.setCluster k x).bringup = s.bringup := rfl
@[simp] theorem setCluster_flash (s : State) (k : Nat) (x : Cluster) : (s.setCluster k x).flash = s.flash := rfl
@[simp] theorem setCluster_fatals (s : State) (k : Nat) (x : Cluster) : (s.setCluster k x).fatals = s.fatals := rfl
@[simp] theorem setCluster_coppice (s : State) (k : Nat) (x : Cluster) : (s.setCluster k x).coppice = s.coppice := rfl
@[simp] theorem setCluster_ports (s : State) (k : Nat) (x : Cluster) : (s.setCluster k x).ports = s.ports := rfl
@[simp] theorem setCluster_ptp (s : State) (k : Nat) (x : Cluster) : (s.setCluster k x).ptp = s.ptp := rfl
@[simp] theorem setCluster_pageMove (s : State) (k : Nat) (x : Cluster) : (s.setCluster k x).pageMove = s.pageMove := rfl
@[simp] theorem setCluster_spdm (s : State) (k : Nat) (x : Cluster) : (s.setCluster k x).spdm = s.spdm := rfl
@[simp] theorem setCluster_manifestOk (s : State) (k : Nat) (x : Cluster) : (s.setCluster k x).manifestOk = s.manifestOk := rfl
@[simp] theorem setCluster_hostMem (s : State) (k : Nat) (x : Cluster) : (s.setCluster k x).hostMem = s.hostMem := rfl
@[simp] theorem setCluster_hostImages (s : State) (k : Nat) (x : Cluster) : (s.setCluster k x).hostImages = s.hostImages := rfl
@[simp] theorem setCluster_hostHeld (s : State) (k : Nat) (x : Cluster) : (s.setCluster k x).hostHeld = s.hostHeld := rfl
@[simp] theorem setCluster_hostOut (s : State) (k : Nat) (x : Cluster) : (s.setCluster k x).hostOut = s.hostOut := rfl
@[simp] theorem setCluster_now (s : State) (k : Nat) (x : Cluster) : (s.setCluster k x).now = s.now := rfl
@[simp] theorem setCluster_turn (s : State) (k : Nat) (x : Cluster) : (s.setCluster k x).turn = s.turn := rfl
@[simp] theorem setCluster_fresh (s : State) (k : Nat) (x : Cluster) : (s.setCluster k x).fresh = s.fresh := rfl
@[simp] theorem setCluster_agenda (s : State) (k : Nat) (x : Cluster) : (s.setCluster k x).agenda = s.agenda := rfl
@[simp] theorem setCluster_focus (s : State) (k : Nat) (x : Cluster) : (s.setCluster k x).focus = s.focus := rfl

@[simp] theorem setPort_ports (s : State) (p : Nat) (x : Port) : (s.setPort p x).ports = s.ports.put p x := rfl
@[simp] theorem setPort_cores (s : State) (p : Nat) (x : Port) : (s.setPort p x).cores = s.cores := rfl
@[simp] theorem setPort_ctxs (s : State) (p : Nat) (x : Port) : (s.setPort p x).ctxs = s.ctxs := rfl
@[simp] theorem setPort_mem (s : State) (p : Nat) (x : Port) : (s.setPort p x).mem = s.mem := rfl
@[simp] theorem setPort_poison (s : State) (p : Nat) (x : Port) : (s.setPort p x).poison = s.poison := rfl
@[simp] theorem setPort_reqs (s : State) (p : Nat) (x : Port) : (s.setPort p x).reqs = s.reqs := rfl
@[simp] theorem setPort_net (s : State) (p : Nat) (x : Port) : (s.setPort p x).net = s.net := rfl
@[simp] theorem setPort_used (s : State) (p : Nat) (x : Port) : (s.setPort p x).used = s.used := rfl
@[simp] theorem setPort_owed (s : State) (p : Nat) (x : Port) : (s.setPort p x).owed = s.owed := rfl
@[simp] theorem setPort_outTurn (s : State) (p : Nat) (x : Port) : (s.setPort p x).outTurn = s.outTurn := rfl
@[simp] theorem setPort_crcFails (s : State) (p : Nat) (x : Port) : (s.setPort p x).crcFails = s.crcFails := rfl
@[simp] theorem setPort_injected (s : State) (p : Nat) (x : Port) : (s.setPort p x).injected = s.injected := rfl
@[simp] theorem setPort_consumed (s : State) (p : Nat) (x : Port) : (s.setPort p x).consumed = s.consumed := rfl
@[simp] theorem setPort_reports (s : State) (p : Nat) (x : Port) : (s.setPort p x).reports = s.reports := rfl
@[simp] theorem setPort_engRoutes (s : State) (p : Nat) (x : Port) : (s.setPort p x).engRoutes = s.engRoutes := rfl
@[simp] theorem setPort_sites (s : State) (p : Nat) (x : Port) : (s.setPort p x).sites = s.sites := rfl
@[simp] theorem setPort_clusters (s : State) (p : Nat) (x : Port) : (s.setPort p x).clusters = s.clusters := rfl
@[simp] theorem setPort_dies (s : State) (p : Nat) (x : Port) : (s.setPort p x).dies = s.dies := rfl
@[simp] theorem setPort_grafts (s : State) (p : Nat) (x : Port) : (s.setPort p x).grafts = s.grafts := rfl
@[simp] theorem setPort_remaps (s : State) (p : Nat) (x : Port) : (s.setPort p x).remaps = s.remaps := rfl
@[simp] theorem setPort_manifest (s : State) (p : Nat) (x : Port) : (s.setPort p x).manifest = s.manifest := rfl
@[simp] theorem setPort_training (s : State) (p : Nat) (x : Port) : (s.setPort p x).training = s.training := rfl
@[simp] theorem setPort_graftGen (s : State) (p : Nat) (x : Port) : (s.setPort p x).graftGen = s.graftGen := rfl
@[simp] theorem setPort_moduleId (s : State) (p : Nat) (x : Port) : (s.setPort p x).moduleId = s.moduleId := rfl
@[simp] theorem setPort_groups (s : State) (p : Nat) (x : Port) : (s.setPort p x).groups = s.groups := rfl
@[simp] theorem setPort_members (s : State) (p : Nat) (x : Port) : (s.setPort p x).members = s.members := rfl
@[simp] theorem setPort_image (s : State) (p : Nat) (x : Port) : (s.setPort p x).image = s.image := rfl
@[simp] theorem setPort_running (s : State) (p : Nat) (x : Port) : (s.setPort p x).running = s.running := rfl
@[simp] theorem setPort_queues (s : State) (p : Nat) (x : Port) : (s.setPort p x).queues = s.queues := rfl
@[simp] theorem setPort_cached (s : State) (p : Nat) (x : Port) : (s.setPort p x).cached = s.cached := rfl
@[simp] theorem setPort_hwin (s : State) (p : Nat) (x : Port) : (s.setPort p x).hwin = s.hwin := rfl
@[simp] theorem setPort_hevt (s : State) (p : Nat) (x : Port) : (s.setPort p x).hevt = s.hevt := rfl
@[simp] theorem setPort_slotRun (s : State) (p : Nat) (x : Port) : (s.setPort p x).slotRun = s.slotRun := rfl
@[simp] theorem setPort_slotN (s : State) (p : Nat) (x : Port) : (s.setPort p x).slotN = s.slotN := rfl
@[simp] theorem setPort_slotEpoch (s : State) (p : Nat) (x : Port) : (s.setPort p x).slotEpoch = s.slotEpoch := rfl
@[simp] theorem setPort_slotTable (s : State) (p : Nat) (x : Port) : (s.setPort p x).slotTable = s.slotTable := rfl
@[simp] theorem setPort_rotation (s : State) (p : Nat) (x : Port) : (s.setPort p x).rotation = s.rotation := rfl
@[simp] theorem setPort_bringup (s : State) (p : Nat) (x : Port) : (s.setPort p x).bringup = s.bringup := rfl
@[simp] theorem setPort_flash (s : State) (p : Nat) (x : Port) : (s.setPort p x).flash = s.flash := rfl
@[simp] theorem setPort_fatals (s : State) (p : Nat) (x : Port) : (s.setPort p x).fatals = s.fatals := rfl
@[simp] theorem setPort_coppice (s : State) (p : Nat) (x : Port) : (s.setPort p x).coppice = s.coppice := rfl
@[simp] theorem setPort_ptp (s : State) (p : Nat) (x : Port) : (s.setPort p x).ptp = s.ptp := rfl
@[simp] theorem setPort_pageMove (s : State) (p : Nat) (x : Port) : (s.setPort p x).pageMove = s.pageMove := rfl
@[simp] theorem setPort_spdm (s : State) (p : Nat) (x : Port) : (s.setPort p x).spdm = s.spdm := rfl
@[simp] theorem setPort_manifestOk (s : State) (p : Nat) (x : Port) : (s.setPort p x).manifestOk = s.manifestOk := rfl
@[simp] theorem setPort_hostMem (s : State) (p : Nat) (x : Port) : (s.setPort p x).hostMem = s.hostMem := rfl
@[simp] theorem setPort_hostImages (s : State) (p : Nat) (x : Port) : (s.setPort p x).hostImages = s.hostImages := rfl
@[simp] theorem setPort_hostHeld (s : State) (p : Nat) (x : Port) : (s.setPort p x).hostHeld = s.hostHeld := rfl
@[simp] theorem setPort_hostOut (s : State) (p : Nat) (x : Port) : (s.setPort p x).hostOut = s.hostOut := rfl
@[simp] theorem setPort_now (s : State) (p : Nat) (x : Port) : (s.setPort p x).now = s.now := rfl
@[simp] theorem setPort_turn (s : State) (p : Nat) (x : Port) : (s.setPort p x).turn = s.turn := rfl
@[simp] theorem setPort_fresh (s : State) (p : Nat) (x : Port) : (s.setPort p x).fresh = s.fresh := rfl
@[simp] theorem setPort_agenda (s : State) (p : Nat) (x : Port) : (s.setPort p x).agenda = s.agenda := rfl
@[simp] theorem setPort_focus (s : State) (p : Nat) (x : Port) : (s.setPort p x).focus = s.focus := rfl

@[simp] theorem setQueue_queues (s : State) (q : Nat) (x : Queue) : (s.setQueue q x).queues = s.queues.put q x := rfl
@[simp] theorem setQueue_cores (s : State) (q : Nat) (x : Queue) : (s.setQueue q x).cores = s.cores := rfl
@[simp] theorem setQueue_ctxs (s : State) (q : Nat) (x : Queue) : (s.setQueue q x).ctxs = s.ctxs := rfl
@[simp] theorem setQueue_mem (s : State) (q : Nat) (x : Queue) : (s.setQueue q x).mem = s.mem := rfl
@[simp] theorem setQueue_poison (s : State) (q : Nat) (x : Queue) : (s.setQueue q x).poison = s.poison := rfl
@[simp] theorem setQueue_reqs (s : State) (q : Nat) (x : Queue) : (s.setQueue q x).reqs = s.reqs := rfl
@[simp] theorem setQueue_net (s : State) (q : Nat) (x : Queue) : (s.setQueue q x).net = s.net := rfl
@[simp] theorem setQueue_used (s : State) (q : Nat) (x : Queue) : (s.setQueue q x).used = s.used := rfl
@[simp] theorem setQueue_owed (s : State) (q : Nat) (x : Queue) : (s.setQueue q x).owed = s.owed := rfl
@[simp] theorem setQueue_outTurn (s : State) (q : Nat) (x : Queue) : (s.setQueue q x).outTurn = s.outTurn := rfl
@[simp] theorem setQueue_crcFails (s : State) (q : Nat) (x : Queue) : (s.setQueue q x).crcFails = s.crcFails := rfl
@[simp] theorem setQueue_injected (s : State) (q : Nat) (x : Queue) : (s.setQueue q x).injected = s.injected := rfl
@[simp] theorem setQueue_consumed (s : State) (q : Nat) (x : Queue) : (s.setQueue q x).consumed = s.consumed := rfl
@[simp] theorem setQueue_reports (s : State) (q : Nat) (x : Queue) : (s.setQueue q x).reports = s.reports := rfl
@[simp] theorem setQueue_engRoutes (s : State) (q : Nat) (x : Queue) : (s.setQueue q x).engRoutes = s.engRoutes := rfl
@[simp] theorem setQueue_sites (s : State) (q : Nat) (x : Queue) : (s.setQueue q x).sites = s.sites := rfl
@[simp] theorem setQueue_clusters (s : State) (q : Nat) (x : Queue) : (s.setQueue q x).clusters = s.clusters := rfl
@[simp] theorem setQueue_dies (s : State) (q : Nat) (x : Queue) : (s.setQueue q x).dies = s.dies := rfl
@[simp] theorem setQueue_grafts (s : State) (q : Nat) (x : Queue) : (s.setQueue q x).grafts = s.grafts := rfl
@[simp] theorem setQueue_remaps (s : State) (q : Nat) (x : Queue) : (s.setQueue q x).remaps = s.remaps := rfl
@[simp] theorem setQueue_manifest (s : State) (q : Nat) (x : Queue) : (s.setQueue q x).manifest = s.manifest := rfl
@[simp] theorem setQueue_training (s : State) (q : Nat) (x : Queue) : (s.setQueue q x).training = s.training := rfl
@[simp] theorem setQueue_graftGen (s : State) (q : Nat) (x : Queue) : (s.setQueue q x).graftGen = s.graftGen := rfl
@[simp] theorem setQueue_stateGen (s : State) (q : Nat) (x : Queue) : (s.setQueue q x).stateGen = s.stateGen := rfl
@[simp] theorem setQueue_moduleId (s : State) (q : Nat) (x : Queue) : (s.setQueue q x).moduleId = s.moduleId := rfl
@[simp] theorem setQueue_groups (s : State) (q : Nat) (x : Queue) : (s.setQueue q x).groups = s.groups := rfl
@[simp] theorem setQueue_members (s : State) (q : Nat) (x : Queue) : (s.setQueue q x).members = s.members := rfl
@[simp] theorem setQueue_image (s : State) (q : Nat) (x : Queue) : (s.setQueue q x).image = s.image := rfl
@[simp] theorem setQueue_running (s : State) (q : Nat) (x : Queue) : (s.setQueue q x).running = s.running := rfl
@[simp] theorem setQueue_cached (s : State) (q : Nat) (x : Queue) : (s.setQueue q x).cached = s.cached := rfl
@[simp] theorem setQueue_hwin (s : State) (q : Nat) (x : Queue) : (s.setQueue q x).hwin = s.hwin := rfl
@[simp] theorem setQueue_hevt (s : State) (q : Nat) (x : Queue) : (s.setQueue q x).hevt = s.hevt := rfl
@[simp] theorem setQueue_slotRun (s : State) (q : Nat) (x : Queue) : (s.setQueue q x).slotRun = s.slotRun := rfl
@[simp] theorem setQueue_slotN (s : State) (q : Nat) (x : Queue) : (s.setQueue q x).slotN = s.slotN := rfl
@[simp] theorem setQueue_slotEpoch (s : State) (q : Nat) (x : Queue) : (s.setQueue q x).slotEpoch = s.slotEpoch := rfl
@[simp] theorem setQueue_slotTable (s : State) (q : Nat) (x : Queue) : (s.setQueue q x).slotTable = s.slotTable := rfl
@[simp] theorem setQueue_rotation (s : State) (q : Nat) (x : Queue) : (s.setQueue q x).rotation = s.rotation := rfl
@[simp] theorem setQueue_bringup (s : State) (q : Nat) (x : Queue) : (s.setQueue q x).bringup = s.bringup := rfl
@[simp] theorem setQueue_flash (s : State) (q : Nat) (x : Queue) : (s.setQueue q x).flash = s.flash := rfl
@[simp] theorem setQueue_fatals (s : State) (q : Nat) (x : Queue) : (s.setQueue q x).fatals = s.fatals := rfl
@[simp] theorem setQueue_coppice (s : State) (q : Nat) (x : Queue) : (s.setQueue q x).coppice = s.coppice := rfl
@[simp] theorem setQueue_ports (s : State) (q : Nat) (x : Queue) : (s.setQueue q x).ports = s.ports := rfl
@[simp] theorem setQueue_ptp (s : State) (q : Nat) (x : Queue) : (s.setQueue q x).ptp = s.ptp := rfl
@[simp] theorem setQueue_pageMove (s : State) (q : Nat) (x : Queue) : (s.setQueue q x).pageMove = s.pageMove := rfl
@[simp] theorem setQueue_spdm (s : State) (q : Nat) (x : Queue) : (s.setQueue q x).spdm = s.spdm := rfl
@[simp] theorem setQueue_manifestOk (s : State) (q : Nat) (x : Queue) : (s.setQueue q x).manifestOk = s.manifestOk := rfl
@[simp] theorem setQueue_hostMem (s : State) (q : Nat) (x : Queue) : (s.setQueue q x).hostMem = s.hostMem := rfl
@[simp] theorem setQueue_hostImages (s : State) (q : Nat) (x : Queue) : (s.setQueue q x).hostImages = s.hostImages := rfl
@[simp] theorem setQueue_hostHeld (s : State) (q : Nat) (x : Queue) : (s.setQueue q x).hostHeld = s.hostHeld := rfl
@[simp] theorem setQueue_hostOut (s : State) (q : Nat) (x : Queue) : (s.setQueue q x).hostOut = s.hostOut := rfl
@[simp] theorem setQueue_now (s : State) (q : Nat) (x : Queue) : (s.setQueue q x).now = s.now := rfl
@[simp] theorem setQueue_turn (s : State) (q : Nat) (x : Queue) : (s.setQueue q x).turn = s.turn := rfl
@[simp] theorem setQueue_fresh (s : State) (q : Nat) (x : Queue) : (s.setQueue q x).fresh = s.fresh := rfl
@[simp] theorem setQueue_agenda (s : State) (q : Nat) (x : Queue) : (s.setQueue q x).agenda = s.agenda := rfl
@[simp] theorem setQueue_focus (s : State) (q : Nat) (x : Queue) : (s.setQueue q x).focus = s.focus := rfl

@[simp] theorem setSite_sites (s : State) (n : Nat) (e : Site) : (s.setSite n e).sites = s.sites.put n e := rfl
@[simp] theorem setSite_cores (s : State) (n : Nat) (e : Site) : (s.setSite n e).cores = s.cores := rfl
@[simp] theorem setSite_ctxs (s : State) (n : Nat) (e : Site) : (s.setSite n e).ctxs = s.ctxs := rfl
@[simp] theorem setSite_mem (s : State) (n : Nat) (e : Site) : (s.setSite n e).mem = s.mem := rfl
@[simp] theorem setSite_poison (s : State) (n : Nat) (e : Site) : (s.setSite n e).poison = s.poison := rfl
@[simp] theorem setSite_reqs (s : State) (n : Nat) (e : Site) : (s.setSite n e).reqs = s.reqs := rfl
@[simp] theorem setSite_net (s : State) (n : Nat) (e : Site) : (s.setSite n e).net = s.net := rfl
@[simp] theorem setSite_used (s : State) (n : Nat) (e : Site) : (s.setSite n e).used = s.used := rfl
@[simp] theorem setSite_owed (s : State) (n : Nat) (e : Site) : (s.setSite n e).owed = s.owed := rfl
@[simp] theorem setSite_outTurn (s : State) (n : Nat) (e : Site) : (s.setSite n e).outTurn = s.outTurn := rfl
@[simp] theorem setSite_crcFails (s : State) (n : Nat) (e : Site) : (s.setSite n e).crcFails = s.crcFails := rfl
@[simp] theorem setSite_injected (s : State) (n : Nat) (e : Site) : (s.setSite n e).injected = s.injected := rfl
@[simp] theorem setSite_consumed (s : State) (n : Nat) (e : Site) : (s.setSite n e).consumed = s.consumed := rfl
@[simp] theorem setSite_reports (s : State) (n : Nat) (e : Site) : (s.setSite n e).reports = s.reports := rfl
@[simp] theorem setSite_engRoutes (s : State) (n : Nat) (e : Site) : (s.setSite n e).engRoutes = s.engRoutes := rfl
@[simp] theorem setSite_clusters (s : State) (n : Nat) (e : Site) : (s.setSite n e).clusters = s.clusters := rfl
@[simp] theorem setSite_dies (s : State) (n : Nat) (e : Site) : (s.setSite n e).dies = s.dies := rfl
@[simp] theorem setSite_grafts (s : State) (n : Nat) (e : Site) : (s.setSite n e).grafts = s.grafts := rfl
@[simp] theorem setSite_remaps (s : State) (n : Nat) (e : Site) : (s.setSite n e).remaps = s.remaps := rfl
@[simp] theorem setSite_manifest (s : State) (n : Nat) (e : Site) : (s.setSite n e).manifest = s.manifest := rfl
@[simp] theorem setSite_training (s : State) (n : Nat) (e : Site) : (s.setSite n e).training = s.training := rfl
@[simp] theorem setSite_graftGen (s : State) (n : Nat) (e : Site) : (s.setSite n e).graftGen = s.graftGen := rfl
@[simp] theorem setSite_moduleId (s : State) (n : Nat) (e : Site) : (s.setSite n e).moduleId = s.moduleId := rfl
@[simp] theorem setSite_groups (s : State) (n : Nat) (e : Site) : (s.setSite n e).groups = s.groups := rfl
@[simp] theorem setSite_members (s : State) (n : Nat) (e : Site) : (s.setSite n e).members = s.members := rfl
@[simp] theorem setSite_image (s : State) (n : Nat) (e : Site) : (s.setSite n e).image = s.image := rfl
@[simp] theorem setSite_running (s : State) (n : Nat) (e : Site) : (s.setSite n e).running = s.running := rfl
@[simp] theorem setSite_queues (s : State) (n : Nat) (e : Site) : (s.setSite n e).queues = s.queues := rfl
@[simp] theorem setSite_cached (s : State) (n : Nat) (e : Site) : (s.setSite n e).cached = s.cached := rfl
@[simp] theorem setSite_hwin (s : State) (n : Nat) (e : Site) : (s.setSite n e).hwin = s.hwin := rfl
@[simp] theorem setSite_hevt (s : State) (n : Nat) (e : Site) : (s.setSite n e).hevt = s.hevt := rfl
@[simp] theorem setSite_slotRun (s : State) (n : Nat) (e : Site) : (s.setSite n e).slotRun = s.slotRun := rfl
@[simp] theorem setSite_slotN (s : State) (n : Nat) (e : Site) : (s.setSite n e).slotN = s.slotN := rfl
@[simp] theorem setSite_slotEpoch (s : State) (n : Nat) (e : Site) : (s.setSite n e).slotEpoch = s.slotEpoch := rfl
@[simp] theorem setSite_slotTable (s : State) (n : Nat) (e : Site) : (s.setSite n e).slotTable = s.slotTable := rfl
@[simp] theorem setSite_rotation (s : State) (n : Nat) (e : Site) : (s.setSite n e).rotation = s.rotation := rfl
@[simp] theorem setSite_bringup (s : State) (n : Nat) (e : Site) : (s.setSite n e).bringup = s.bringup := rfl
@[simp] theorem setSite_flash (s : State) (n : Nat) (e : Site) : (s.setSite n e).flash = s.flash := rfl
@[simp] theorem setSite_fatals (s : State) (n : Nat) (e : Site) : (s.setSite n e).fatals = s.fatals := rfl
@[simp] theorem setSite_coppice (s : State) (n : Nat) (e : Site) : (s.setSite n e).coppice = s.coppice := rfl
@[simp] theorem setSite_ports (s : State) (n : Nat) (e : Site) : (s.setSite n e).ports = s.ports := rfl
@[simp] theorem setSite_ptp (s : State) (n : Nat) (e : Site) : (s.setSite n e).ptp = s.ptp := rfl
@[simp] theorem setSite_pageMove (s : State) (n : Nat) (e : Site) : (s.setSite n e).pageMove = s.pageMove := rfl
@[simp] theorem setSite_spdm (s : State) (n : Nat) (e : Site) : (s.setSite n e).spdm = s.spdm := rfl
@[simp] theorem setSite_manifestOk (s : State) (n : Nat) (e : Site) : (s.setSite n e).manifestOk = s.manifestOk := rfl
@[simp] theorem setSite_hostMem (s : State) (n : Nat) (e : Site) : (s.setSite n e).hostMem = s.hostMem := rfl
@[simp] theorem setSite_hostImages (s : State) (n : Nat) (e : Site) : (s.setSite n e).hostImages = s.hostImages := rfl
@[simp] theorem setSite_hostHeld (s : State) (n : Nat) (e : Site) : (s.setSite n e).hostHeld = s.hostHeld := rfl
@[simp] theorem setSite_hostOut (s : State) (n : Nat) (e : Site) : (s.setSite n e).hostOut = s.hostOut := rfl
@[simp] theorem setSite_now (s : State) (n : Nat) (e : Site) : (s.setSite n e).now = s.now := rfl
@[simp] theorem setSite_turn (s : State) (n : Nat) (e : Site) : (s.setSite n e).turn = s.turn := rfl
@[simp] theorem setSite_fresh (s : State) (n : Nat) (e : Site) : (s.setSite n e).fresh = s.fresh := rfl
@[simp] theorem setSite_agenda (s : State) (n : Nat) (e : Site) : (s.setSite n e).agenda = s.agenda := rfl
@[simp] theorem setSite_focus (s : State) (n : Nat) (e : Site) : (s.setSite n e).focus = s.focus := rfl

@[simp] theorem setMe_ctxs (s : State) (x : Ctx) : (s.setMe x).ctxs = s.ctxs.put (4 * s.focus.core + s.focus.ctx) x := rfl
@[simp] theorem setMe_cores (s : State) (x : Ctx) : (s.setMe x).cores = s.cores := rfl
@[simp] theorem setMe_mem (s : State) (x : Ctx) : (s.setMe x).mem = s.mem := rfl
@[simp] theorem setMe_poison (s : State) (x : Ctx) : (s.setMe x).poison = s.poison := rfl
@[simp] theorem setMe_reqs (s : State) (x : Ctx) : (s.setMe x).reqs = s.reqs := rfl
@[simp] theorem setMe_net (s : State) (x : Ctx) : (s.setMe x).net = s.net := rfl
@[simp] theorem setMe_used (s : State) (x : Ctx) : (s.setMe x).used = s.used := rfl
@[simp] theorem setMe_owed (s : State) (x : Ctx) : (s.setMe x).owed = s.owed := rfl
@[simp] theorem setMe_outTurn (s : State) (x : Ctx) : (s.setMe x).outTurn = s.outTurn := rfl
@[simp] theorem setMe_crcFails (s : State) (x : Ctx) : (s.setMe x).crcFails = s.crcFails := rfl
@[simp] theorem setMe_injected (s : State) (x : Ctx) : (s.setMe x).injected = s.injected := rfl
@[simp] theorem setMe_consumed (s : State) (x : Ctx) : (s.setMe x).consumed = s.consumed := rfl
@[simp] theorem setMe_reports (s : State) (x : Ctx) : (s.setMe x).reports = s.reports := rfl
@[simp] theorem setMe_engRoutes (s : State) (x : Ctx) : (s.setMe x).engRoutes = s.engRoutes := rfl
@[simp] theorem setMe_sites (s : State) (x : Ctx) : (s.setMe x).sites = s.sites := rfl
@[simp] theorem setMe_clusters (s : State) (x : Ctx) : (s.setMe x).clusters = s.clusters := rfl
@[simp] theorem setMe_dies (s : State) (x : Ctx) : (s.setMe x).dies = s.dies := rfl
@[simp] theorem setMe_grafts (s : State) (x : Ctx) : (s.setMe x).grafts = s.grafts := rfl
@[simp] theorem setMe_remaps (s : State) (x : Ctx) : (s.setMe x).remaps = s.remaps := rfl
@[simp] theorem setMe_manifest (s : State) (x : Ctx) : (s.setMe x).manifest = s.manifest := rfl
@[simp] theorem setMe_training (s : State) (x : Ctx) : (s.setMe x).training = s.training := rfl
@[simp] theorem setMe_graftGen (s : State) (x : Ctx) : (s.setMe x).graftGen = s.graftGen := rfl
@[simp] theorem setMe_stateGen (s : State) (x : Ctx) : (s.setMe x).stateGen = s.stateGen := rfl
@[simp] theorem setMe_moduleId (s : State) (x : Ctx) : (s.setMe x).moduleId = s.moduleId := rfl
@[simp] theorem setMe_groups (s : State) (x : Ctx) : (s.setMe x).groups = s.groups := rfl
@[simp] theorem setMe_members (s : State) (x : Ctx) : (s.setMe x).members = s.members := rfl
@[simp] theorem setMe_image (s : State) (x : Ctx) : (s.setMe x).image = s.image := rfl
@[simp] theorem setMe_running (s : State) (x : Ctx) : (s.setMe x).running = s.running := rfl
@[simp] theorem setMe_queues (s : State) (x : Ctx) : (s.setMe x).queues = s.queues := rfl
@[simp] theorem setMe_cached (s : State) (x : Ctx) : (s.setMe x).cached = s.cached := rfl
@[simp] theorem setMe_hwin (s : State) (x : Ctx) : (s.setMe x).hwin = s.hwin := rfl
@[simp] theorem setMe_hevt (s : State) (x : Ctx) : (s.setMe x).hevt = s.hevt := rfl
@[simp] theorem setMe_slotRun (s : State) (x : Ctx) : (s.setMe x).slotRun = s.slotRun := rfl
@[simp] theorem setMe_slotN (s : State) (x : Ctx) : (s.setMe x).slotN = s.slotN := rfl
@[simp] theorem setMe_slotEpoch (s : State) (x : Ctx) : (s.setMe x).slotEpoch = s.slotEpoch := rfl
@[simp] theorem setMe_slotTable (s : State) (x : Ctx) : (s.setMe x).slotTable = s.slotTable := rfl
@[simp] theorem setMe_rotation (s : State) (x : Ctx) : (s.setMe x).rotation = s.rotation := rfl
@[simp] theorem setMe_bringup (s : State) (x : Ctx) : (s.setMe x).bringup = s.bringup := rfl
@[simp] theorem setMe_flash (s : State) (x : Ctx) : (s.setMe x).flash = s.flash := rfl
@[simp] theorem setMe_fatals (s : State) (x : Ctx) : (s.setMe x).fatals = s.fatals := rfl
@[simp] theorem setMe_coppice (s : State) (x : Ctx) : (s.setMe x).coppice = s.coppice := rfl
@[simp] theorem setMe_ports (s : State) (x : Ctx) : (s.setMe x).ports = s.ports := rfl
@[simp] theorem setMe_ptp (s : State) (x : Ctx) : (s.setMe x).ptp = s.ptp := rfl
@[simp] theorem setMe_pageMove (s : State) (x : Ctx) : (s.setMe x).pageMove = s.pageMove := rfl
@[simp] theorem setMe_spdm (s : State) (x : Ctx) : (s.setMe x).spdm = s.spdm := rfl
@[simp] theorem setMe_manifestOk (s : State) (x : Ctx) : (s.setMe x).manifestOk = s.manifestOk := rfl
@[simp] theorem setMe_hostMem (s : State) (x : Ctx) : (s.setMe x).hostMem = s.hostMem := rfl
@[simp] theorem setMe_hostImages (s : State) (x : Ctx) : (s.setMe x).hostImages = s.hostImages := rfl
@[simp] theorem setMe_hostHeld (s : State) (x : Ctx) : (s.setMe x).hostHeld = s.hostHeld := rfl
@[simp] theorem setMe_hostOut (s : State) (x : Ctx) : (s.setMe x).hostOut = s.hostOut := rfl
@[simp] theorem setMe_now (s : State) (x : Ctx) : (s.setMe x).now = s.now := rfl
@[simp] theorem setMe_turn (s : State) (x : Ctx) : (s.setMe x).turn = s.turn := rfl
@[simp] theorem setMe_fresh (s : State) (x : Ctx) : (s.setMe x).fresh = s.fresh := rfl
@[simp] theorem setMe_agenda (s : State) (x : Ctx) : (s.setMe x).agenda = s.agenda := rfl
@[simp] theorem setMe_focus (s : State) (x : Ctx) : (s.setMe x).focus = s.focus := rfl

@[simp] theorem setMyCore_cores (s : State) (c : Core) : (s.setMyCore c).cores = s.cores.put s.focus.core c := rfl
@[simp] theorem setMyCore_ctxs (s : State) (c : Core) : (s.setMyCore c).ctxs = s.ctxs := rfl
@[simp] theorem setMyCore_mem (s : State) (c : Core) : (s.setMyCore c).mem = s.mem := rfl
@[simp] theorem setMyCore_poison (s : State) (c : Core) : (s.setMyCore c).poison = s.poison := rfl
@[simp] theorem setMyCore_reqs (s : State) (c : Core) : (s.setMyCore c).reqs = s.reqs := rfl
@[simp] theorem setMyCore_net (s : State) (c : Core) : (s.setMyCore c).net = s.net := rfl
@[simp] theorem setMyCore_used (s : State) (c : Core) : (s.setMyCore c).used = s.used := rfl
@[simp] theorem setMyCore_owed (s : State) (c : Core) : (s.setMyCore c).owed = s.owed := rfl
@[simp] theorem setMyCore_outTurn (s : State) (c : Core) : (s.setMyCore c).outTurn = s.outTurn := rfl
@[simp] theorem setMyCore_crcFails (s : State) (c : Core) : (s.setMyCore c).crcFails = s.crcFails := rfl
@[simp] theorem setMyCore_injected (s : State) (c : Core) : (s.setMyCore c).injected = s.injected := rfl
@[simp] theorem setMyCore_consumed (s : State) (c : Core) : (s.setMyCore c).consumed = s.consumed := rfl
@[simp] theorem setMyCore_reports (s : State) (c : Core) : (s.setMyCore c).reports = s.reports := rfl
@[simp] theorem setMyCore_engRoutes (s : State) (c : Core) : (s.setMyCore c).engRoutes = s.engRoutes := rfl
@[simp] theorem setMyCore_sites (s : State) (c : Core) : (s.setMyCore c).sites = s.sites := rfl
@[simp] theorem setMyCore_clusters (s : State) (c : Core) : (s.setMyCore c).clusters = s.clusters := rfl
@[simp] theorem setMyCore_dies (s : State) (c : Core) : (s.setMyCore c).dies = s.dies := rfl
@[simp] theorem setMyCore_grafts (s : State) (c : Core) : (s.setMyCore c).grafts = s.grafts := rfl
@[simp] theorem setMyCore_remaps (s : State) (c : Core) : (s.setMyCore c).remaps = s.remaps := rfl
@[simp] theorem setMyCore_manifest (s : State) (c : Core) : (s.setMyCore c).manifest = s.manifest := rfl
@[simp] theorem setMyCore_training (s : State) (c : Core) : (s.setMyCore c).training = s.training := rfl
@[simp] theorem setMyCore_graftGen (s : State) (c : Core) : (s.setMyCore c).graftGen = s.graftGen := rfl
@[simp] theorem setMyCore_stateGen (s : State) (c : Core) : (s.setMyCore c).stateGen = s.stateGen := rfl
@[simp] theorem setMyCore_moduleId (s : State) (c : Core) : (s.setMyCore c).moduleId = s.moduleId := rfl
@[simp] theorem setMyCore_groups (s : State) (c : Core) : (s.setMyCore c).groups = s.groups := rfl
@[simp] theorem setMyCore_members (s : State) (c : Core) : (s.setMyCore c).members = s.members := rfl
@[simp] theorem setMyCore_image (s : State) (c : Core) : (s.setMyCore c).image = s.image := rfl
@[simp] theorem setMyCore_running (s : State) (c : Core) : (s.setMyCore c).running = s.running := rfl
@[simp] theorem setMyCore_queues (s : State) (c : Core) : (s.setMyCore c).queues = s.queues := rfl
@[simp] theorem setMyCore_cached (s : State) (c : Core) : (s.setMyCore c).cached = s.cached := rfl
@[simp] theorem setMyCore_hwin (s : State) (c : Core) : (s.setMyCore c).hwin = s.hwin := rfl
@[simp] theorem setMyCore_hevt (s : State) (c : Core) : (s.setMyCore c).hevt = s.hevt := rfl
@[simp] theorem setMyCore_slotRun (s : State) (c : Core) : (s.setMyCore c).slotRun = s.slotRun := rfl
@[simp] theorem setMyCore_slotN (s : State) (c : Core) : (s.setMyCore c).slotN = s.slotN := rfl
@[simp] theorem setMyCore_slotEpoch (s : State) (c : Core) : (s.setMyCore c).slotEpoch = s.slotEpoch := rfl
@[simp] theorem setMyCore_slotTable (s : State) (c : Core) : (s.setMyCore c).slotTable = s.slotTable := rfl
@[simp] theorem setMyCore_rotation (s : State) (c : Core) : (s.setMyCore c).rotation = s.rotation := rfl
@[simp] theorem setMyCore_bringup (s : State) (c : Core) : (s.setMyCore c).bringup = s.bringup := rfl
@[simp] theorem setMyCore_flash (s : State) (c : Core) : (s.setMyCore c).flash = s.flash := rfl
@[simp] theorem setMyCore_fatals (s : State) (c : Core) : (s.setMyCore c).fatals = s.fatals := rfl
@[simp] theorem setMyCore_coppice (s : State) (c : Core) : (s.setMyCore c).coppice = s.coppice := rfl
@[simp] theorem setMyCore_ports (s : State) (c : Core) : (s.setMyCore c).ports = s.ports := rfl
@[simp] theorem setMyCore_ptp (s : State) (c : Core) : (s.setMyCore c).ptp = s.ptp := rfl
@[simp] theorem setMyCore_pageMove (s : State) (c : Core) : (s.setMyCore c).pageMove = s.pageMove := rfl
@[simp] theorem setMyCore_spdm (s : State) (c : Core) : (s.setMyCore c).spdm = s.spdm := rfl
@[simp] theorem setMyCore_manifestOk (s : State) (c : Core) : (s.setMyCore c).manifestOk = s.manifestOk := rfl
@[simp] theorem setMyCore_hostMem (s : State) (c : Core) : (s.setMyCore c).hostMem = s.hostMem := rfl
@[simp] theorem setMyCore_hostImages (s : State) (c : Core) : (s.setMyCore c).hostImages = s.hostImages := rfl
@[simp] theorem setMyCore_hostHeld (s : State) (c : Core) : (s.setMyCore c).hostHeld = s.hostHeld := rfl
@[simp] theorem setMyCore_hostOut (s : State) (c : Core) : (s.setMyCore c).hostOut = s.hostOut := rfl
@[simp] theorem setMyCore_now (s : State) (c : Core) : (s.setMyCore c).now = s.now := rfl
@[simp] theorem setMyCore_turn (s : State) (c : Core) : (s.setMyCore c).turn = s.turn := rfl
@[simp] theorem setMyCore_fresh (s : State) (c : Core) : (s.setMyCore c).fresh = s.fresh := rfl
@[simp] theorem setMyCore_agenda (s : State) (c : Core) : (s.setMyCore c).agenda = s.agenda := rfl
@[simp] theorem setMyCore_focus (s : State) (c : Core) : (s.setMyCore c).focus = s.focus := rfl

@[simp] theorem tick_fresh (s : State) : (s.tick).fresh = s.fresh + 1 := rfl
@[simp] theorem tick_cores (s : State) : (s.tick).cores = s.cores := rfl
@[simp] theorem tick_ctxs (s : State) : (s.tick).ctxs = s.ctxs := rfl
@[simp] theorem tick_mem (s : State) : (s.tick).mem = s.mem := rfl
@[simp] theorem tick_poison (s : State) : (s.tick).poison = s.poison := rfl
@[simp] theorem tick_reqs (s : State) : (s.tick).reqs = s.reqs := rfl
@[simp] theorem tick_net (s : State) : (s.tick).net = s.net := rfl
@[simp] theorem tick_used (s : State) : (s.tick).used = s.used := rfl
@[simp] theorem tick_owed (s : State) : (s.tick).owed = s.owed := rfl
@[simp] theorem tick_outTurn (s : State) : (s.tick).outTurn = s.outTurn := rfl
@[simp] theorem tick_crcFails (s : State) : (s.tick).crcFails = s.crcFails := rfl
@[simp] theorem tick_injected (s : State) : (s.tick).injected = s.injected := rfl
@[simp] theorem tick_consumed (s : State) : (s.tick).consumed = s.consumed := rfl
@[simp] theorem tick_reports (s : State) : (s.tick).reports = s.reports := rfl
@[simp] theorem tick_engRoutes (s : State) : (s.tick).engRoutes = s.engRoutes := rfl
@[simp] theorem tick_sites (s : State) : (s.tick).sites = s.sites := rfl
@[simp] theorem tick_clusters (s : State) : (s.tick).clusters = s.clusters := rfl
@[simp] theorem tick_dies (s : State) : (s.tick).dies = s.dies := rfl
@[simp] theorem tick_grafts (s : State) : (s.tick).grafts = s.grafts := rfl
@[simp] theorem tick_remaps (s : State) : (s.tick).remaps = s.remaps := rfl
@[simp] theorem tick_manifest (s : State) : (s.tick).manifest = s.manifest := rfl
@[simp] theorem tick_training (s : State) : (s.tick).training = s.training := rfl
@[simp] theorem tick_graftGen (s : State) : (s.tick).graftGen = s.graftGen := rfl
@[simp] theorem tick_stateGen (s : State) : (s.tick).stateGen = s.stateGen := rfl
@[simp] theorem tick_moduleId (s : State) : (s.tick).moduleId = s.moduleId := rfl
@[simp] theorem tick_groups (s : State) : (s.tick).groups = s.groups := rfl
@[simp] theorem tick_members (s : State) : (s.tick).members = s.members := rfl
@[simp] theorem tick_image (s : State) : (s.tick).image = s.image := rfl
@[simp] theorem tick_running (s : State) : (s.tick).running = s.running := rfl
@[simp] theorem tick_queues (s : State) : (s.tick).queues = s.queues := rfl
@[simp] theorem tick_cached (s : State) : (s.tick).cached = s.cached := rfl
@[simp] theorem tick_hwin (s : State) : (s.tick).hwin = s.hwin := rfl
@[simp] theorem tick_hevt (s : State) : (s.tick).hevt = s.hevt := rfl
@[simp] theorem tick_slotRun (s : State) : (s.tick).slotRun = s.slotRun := rfl
@[simp] theorem tick_slotN (s : State) : (s.tick).slotN = s.slotN := rfl
@[simp] theorem tick_slotEpoch (s : State) : (s.tick).slotEpoch = s.slotEpoch := rfl
@[simp] theorem tick_slotTable (s : State) : (s.tick).slotTable = s.slotTable := rfl
@[simp] theorem tick_rotation (s : State) : (s.tick).rotation = s.rotation := rfl
@[simp] theorem tick_bringup (s : State) : (s.tick).bringup = s.bringup := rfl
@[simp] theorem tick_flash (s : State) : (s.tick).flash = s.flash := rfl
@[simp] theorem tick_fatals (s : State) : (s.tick).fatals = s.fatals := rfl
@[simp] theorem tick_coppice (s : State) : (s.tick).coppice = s.coppice := rfl
@[simp] theorem tick_ports (s : State) : (s.tick).ports = s.ports := rfl
@[simp] theorem tick_ptp (s : State) : (s.tick).ptp = s.ptp := rfl
@[simp] theorem tick_pageMove (s : State) : (s.tick).pageMove = s.pageMove := rfl
@[simp] theorem tick_spdm (s : State) : (s.tick).spdm = s.spdm := rfl
@[simp] theorem tick_manifestOk (s : State) : (s.tick).manifestOk = s.manifestOk := rfl
@[simp] theorem tick_hostMem (s : State) : (s.tick).hostMem = s.hostMem := rfl
@[simp] theorem tick_hostImages (s : State) : (s.tick).hostImages = s.hostImages := rfl
@[simp] theorem tick_hostHeld (s : State) : (s.tick).hostHeld = s.hostHeld := rfl
@[simp] theorem tick_hostOut (s : State) : (s.tick).hostOut = s.hostOut := rfl
@[simp] theorem tick_now (s : State) : (s.tick).now = s.now := rfl
@[simp] theorem tick_turn (s : State) : (s.tick).turn = s.turn := rfl
@[simp] theorem tick_agenda (s : State) : (s.tick).agenda = s.agenda := rfl
@[simp] theorem tick_focus (s : State) : (s.tick).focus = s.focus := rfl

@[simp] theorem pass_cores (s : State) : (s.pass).cores = s.cores := rfl
@[simp] theorem pass_mem (s : State) : (s.pass).mem = s.mem := rfl
@[simp] theorem pass_poison (s : State) : (s.pass).poison = s.poison := rfl
@[simp] theorem pass_reqs (s : State) : (s.pass).reqs = s.reqs := rfl
@[simp] theorem pass_net (s : State) : (s.pass).net = s.net := rfl
@[simp] theorem pass_used (s : State) : (s.pass).used = s.used := rfl
@[simp] theorem pass_owed (s : State) : (s.pass).owed = s.owed := rfl
@[simp] theorem pass_outTurn (s : State) : (s.pass).outTurn = s.outTurn := rfl
@[simp] theorem pass_crcFails (s : State) : (s.pass).crcFails = s.crcFails := rfl
@[simp] theorem pass_injected (s : State) : (s.pass).injected = s.injected := rfl
@[simp] theorem pass_consumed (s : State) : (s.pass).consumed = s.consumed := rfl
@[simp] theorem pass_reports (s : State) : (s.pass).reports = s.reports := rfl
@[simp] theorem pass_engRoutes (s : State) : (s.pass).engRoutes = s.engRoutes := rfl
@[simp] theorem pass_sites (s : State) : (s.pass).sites = s.sites := rfl
@[simp] theorem pass_clusters (s : State) : (s.pass).clusters = s.clusters := rfl
@[simp] theorem pass_dies (s : State) : (s.pass).dies = s.dies := rfl
@[simp] theorem pass_grafts (s : State) : (s.pass).grafts = s.grafts := rfl
@[simp] theorem pass_remaps (s : State) : (s.pass).remaps = s.remaps := rfl
@[simp] theorem pass_manifest (s : State) : (s.pass).manifest = s.manifest := rfl
@[simp] theorem pass_training (s : State) : (s.pass).training = s.training := rfl
@[simp] theorem pass_graftGen (s : State) : (s.pass).graftGen = s.graftGen := rfl
@[simp] theorem pass_stateGen (s : State) : (s.pass).stateGen = s.stateGen := rfl
@[simp] theorem pass_moduleId (s : State) : (s.pass).moduleId = s.moduleId := rfl
@[simp] theorem pass_groups (s : State) : (s.pass).groups = s.groups := rfl
@[simp] theorem pass_members (s : State) : (s.pass).members = s.members := rfl
@[simp] theorem pass_image (s : State) : (s.pass).image = s.image := rfl
@[simp] theorem pass_running (s : State) : (s.pass).running = s.running := rfl
@[simp] theorem pass_queues (s : State) : (s.pass).queues = s.queues := rfl
@[simp] theorem pass_cached (s : State) : (s.pass).cached = s.cached := rfl
@[simp] theorem pass_hwin (s : State) : (s.pass).hwin = s.hwin := rfl
@[simp] theorem pass_hevt (s : State) : (s.pass).hevt = s.hevt := rfl
@[simp] theorem pass_slotRun (s : State) : (s.pass).slotRun = s.slotRun := rfl
@[simp] theorem pass_slotN (s : State) : (s.pass).slotN = s.slotN := rfl
@[simp] theorem pass_slotEpoch (s : State) : (s.pass).slotEpoch = s.slotEpoch := rfl
@[simp] theorem pass_slotTable (s : State) : (s.pass).slotTable = s.slotTable := rfl
@[simp] theorem pass_rotation (s : State) : (s.pass).rotation = s.rotation := rfl
@[simp] theorem pass_bringup (s : State) : (s.pass).bringup = s.bringup := rfl
@[simp] theorem pass_flash (s : State) : (s.pass).flash = s.flash := rfl
@[simp] theorem pass_fatals (s : State) : (s.pass).fatals = s.fatals := rfl
@[simp] theorem pass_coppice (s : State) : (s.pass).coppice = s.coppice := rfl
@[simp] theorem pass_ports (s : State) : (s.pass).ports = s.ports := rfl
@[simp] theorem pass_ptp (s : State) : (s.pass).ptp = s.ptp := rfl
@[simp] theorem pass_pageMove (s : State) : (s.pass).pageMove = s.pageMove := rfl
@[simp] theorem pass_spdm (s : State) : (s.pass).spdm = s.spdm := rfl
@[simp] theorem pass_manifestOk (s : State) : (s.pass).manifestOk = s.manifestOk := rfl
@[simp] theorem pass_hostMem (s : State) : (s.pass).hostMem = s.hostMem := rfl
@[simp] theorem pass_hostImages (s : State) : (s.pass).hostImages = s.hostImages := rfl
@[simp] theorem pass_hostHeld (s : State) : (s.pass).hostHeld = s.hostHeld := rfl
@[simp] theorem pass_hostOut (s : State) : (s.pass).hostOut = s.hostOut := rfl
@[simp] theorem pass_now (s : State) : (s.pass).now = s.now := rfl
@[simp] theorem pass_turn (s : State) : (s.pass).turn = s.turn := rfl
@[simp] theorem pass_fresh (s : State) : (s.pass).fresh = s.fresh := rfl
@[simp] theorem pass_agenda (s : State) : (s.pass).agenda = s.agenda := rfl
@[simp] theorem pass_focus (s : State) : (s.pass).focus = s.focus := rfl

@[simp] theorem putX_cores (s : State) (r : Reg) (v : Word) : (s.putX r v).cores = s.cores := rfl
@[simp] theorem putX_mem (s : State) (r : Reg) (v : Word) : (s.putX r v).mem = s.mem := rfl
@[simp] theorem putX_poison (s : State) (r : Reg) (v : Word) : (s.putX r v).poison = s.poison := rfl
@[simp] theorem putX_reqs (s : State) (r : Reg) (v : Word) : (s.putX r v).reqs = s.reqs := rfl
@[simp] theorem putX_net (s : State) (r : Reg) (v : Word) : (s.putX r v).net = s.net := rfl
@[simp] theorem putX_used (s : State) (r : Reg) (v : Word) : (s.putX r v).used = s.used := rfl
@[simp] theorem putX_owed (s : State) (r : Reg) (v : Word) : (s.putX r v).owed = s.owed := rfl
@[simp] theorem putX_outTurn (s : State) (r : Reg) (v : Word) : (s.putX r v).outTurn = s.outTurn := rfl
@[simp] theorem putX_crcFails (s : State) (r : Reg) (v : Word) : (s.putX r v).crcFails = s.crcFails := rfl
@[simp] theorem putX_injected (s : State) (r : Reg) (v : Word) : (s.putX r v).injected = s.injected := rfl
@[simp] theorem putX_consumed (s : State) (r : Reg) (v : Word) : (s.putX r v).consumed = s.consumed := rfl
@[simp] theorem putX_reports (s : State) (r : Reg) (v : Word) : (s.putX r v).reports = s.reports := rfl
@[simp] theorem putX_engRoutes (s : State) (r : Reg) (v : Word) : (s.putX r v).engRoutes = s.engRoutes := rfl
@[simp] theorem putX_sites (s : State) (r : Reg) (v : Word) : (s.putX r v).sites = s.sites := rfl
@[simp] theorem putX_clusters (s : State) (r : Reg) (v : Word) : (s.putX r v).clusters = s.clusters := rfl
@[simp] theorem putX_dies (s : State) (r : Reg) (v : Word) : (s.putX r v).dies = s.dies := rfl
@[simp] theorem putX_grafts (s : State) (r : Reg) (v : Word) : (s.putX r v).grafts = s.grafts := rfl
@[simp] theorem putX_remaps (s : State) (r : Reg) (v : Word) : (s.putX r v).remaps = s.remaps := rfl
@[simp] theorem putX_manifest (s : State) (r : Reg) (v : Word) : (s.putX r v).manifest = s.manifest := rfl
@[simp] theorem putX_training (s : State) (r : Reg) (v : Word) : (s.putX r v).training = s.training := rfl
@[simp] theorem putX_graftGen (s : State) (r : Reg) (v : Word) : (s.putX r v).graftGen = s.graftGen := rfl
@[simp] theorem putX_stateGen (s : State) (r : Reg) (v : Word) : (s.putX r v).stateGen = s.stateGen := rfl
@[simp] theorem putX_moduleId (s : State) (r : Reg) (v : Word) : (s.putX r v).moduleId = s.moduleId := rfl
@[simp] theorem putX_groups (s : State) (r : Reg) (v : Word) : (s.putX r v).groups = s.groups := rfl
@[simp] theorem putX_members (s : State) (r : Reg) (v : Word) : (s.putX r v).members = s.members := rfl
@[simp] theorem putX_image (s : State) (r : Reg) (v : Word) : (s.putX r v).image = s.image := rfl
@[simp] theorem putX_running (s : State) (r : Reg) (v : Word) : (s.putX r v).running = s.running := rfl
@[simp] theorem putX_queues (s : State) (r : Reg) (v : Word) : (s.putX r v).queues = s.queues := rfl
@[simp] theorem putX_cached (s : State) (r : Reg) (v : Word) : (s.putX r v).cached = s.cached := rfl
@[simp] theorem putX_hwin (s : State) (r : Reg) (v : Word) : (s.putX r v).hwin = s.hwin := rfl
@[simp] theorem putX_hevt (s : State) (r : Reg) (v : Word) : (s.putX r v).hevt = s.hevt := rfl
@[simp] theorem putX_slotRun (s : State) (r : Reg) (v : Word) : (s.putX r v).slotRun = s.slotRun := rfl
@[simp] theorem putX_slotN (s : State) (r : Reg) (v : Word) : (s.putX r v).slotN = s.slotN := rfl
@[simp] theorem putX_slotEpoch (s : State) (r : Reg) (v : Word) : (s.putX r v).slotEpoch = s.slotEpoch := rfl
@[simp] theorem putX_slotTable (s : State) (r : Reg) (v : Word) : (s.putX r v).slotTable = s.slotTable := rfl
@[simp] theorem putX_rotation (s : State) (r : Reg) (v : Word) : (s.putX r v).rotation = s.rotation := rfl
@[simp] theorem putX_bringup (s : State) (r : Reg) (v : Word) : (s.putX r v).bringup = s.bringup := rfl
@[simp] theorem putX_flash (s : State) (r : Reg) (v : Word) : (s.putX r v).flash = s.flash := rfl
@[simp] theorem putX_fatals (s : State) (r : Reg) (v : Word) : (s.putX r v).fatals = s.fatals := rfl
@[simp] theorem putX_coppice (s : State) (r : Reg) (v : Word) : (s.putX r v).coppice = s.coppice := rfl
@[simp] theorem putX_ports (s : State) (r : Reg) (v : Word) : (s.putX r v).ports = s.ports := rfl
@[simp] theorem putX_ptp (s : State) (r : Reg) (v : Word) : (s.putX r v).ptp = s.ptp := rfl
@[simp] theorem putX_pageMove (s : State) (r : Reg) (v : Word) : (s.putX r v).pageMove = s.pageMove := rfl
@[simp] theorem putX_spdm (s : State) (r : Reg) (v : Word) : (s.putX r v).spdm = s.spdm := rfl
@[simp] theorem putX_manifestOk (s : State) (r : Reg) (v : Word) : (s.putX r v).manifestOk = s.manifestOk := rfl
@[simp] theorem putX_hostMem (s : State) (r : Reg) (v : Word) : (s.putX r v).hostMem = s.hostMem := rfl
@[simp] theorem putX_hostImages (s : State) (r : Reg) (v : Word) : (s.putX r v).hostImages = s.hostImages := rfl
@[simp] theorem putX_hostHeld (s : State) (r : Reg) (v : Word) : (s.putX r v).hostHeld = s.hostHeld := rfl
@[simp] theorem putX_hostOut (s : State) (r : Reg) (v : Word) : (s.putX r v).hostOut = s.hostOut := rfl
@[simp] theorem putX_now (s : State) (r : Reg) (v : Word) : (s.putX r v).now = s.now := rfl
@[simp] theorem putX_turn (s : State) (r : Reg) (v : Word) : (s.putX r v).turn = s.turn := rfl
@[simp] theorem putX_fresh (s : State) (r : Reg) (v : Word) : (s.putX r v).fresh = s.fresh := rfl
@[simp] theorem putX_agenda (s : State) (r : Reg) (v : Word) : (s.putX r v).agenda = s.agenda := rfl
@[simp] theorem putX_focus (s : State) (r : Reg) (v : Word) : (s.putX r v).focus = s.focus := rfl

@[simp] theorem putV_cores (s : State) (r : Reg) (v : Vec) : (s.putV r v).cores = s.cores := rfl
@[simp] theorem putV_mem (s : State) (r : Reg) (v : Vec) : (s.putV r v).mem = s.mem := rfl
@[simp] theorem putV_poison (s : State) (r : Reg) (v : Vec) : (s.putV r v).poison = s.poison := rfl
@[simp] theorem putV_reqs (s : State) (r : Reg) (v : Vec) : (s.putV r v).reqs = s.reqs := rfl
@[simp] theorem putV_net (s : State) (r : Reg) (v : Vec) : (s.putV r v).net = s.net := rfl
@[simp] theorem putV_used (s : State) (r : Reg) (v : Vec) : (s.putV r v).used = s.used := rfl
@[simp] theorem putV_owed (s : State) (r : Reg) (v : Vec) : (s.putV r v).owed = s.owed := rfl
@[simp] theorem putV_outTurn (s : State) (r : Reg) (v : Vec) : (s.putV r v).outTurn = s.outTurn := rfl
@[simp] theorem putV_crcFails (s : State) (r : Reg) (v : Vec) : (s.putV r v).crcFails = s.crcFails := rfl
@[simp] theorem putV_injected (s : State) (r : Reg) (v : Vec) : (s.putV r v).injected = s.injected := rfl
@[simp] theorem putV_consumed (s : State) (r : Reg) (v : Vec) : (s.putV r v).consumed = s.consumed := rfl
@[simp] theorem putV_reports (s : State) (r : Reg) (v : Vec) : (s.putV r v).reports = s.reports := rfl
@[simp] theorem putV_engRoutes (s : State) (r : Reg) (v : Vec) : (s.putV r v).engRoutes = s.engRoutes := rfl
@[simp] theorem putV_sites (s : State) (r : Reg) (v : Vec) : (s.putV r v).sites = s.sites := rfl
@[simp] theorem putV_clusters (s : State) (r : Reg) (v : Vec) : (s.putV r v).clusters = s.clusters := rfl
@[simp] theorem putV_dies (s : State) (r : Reg) (v : Vec) : (s.putV r v).dies = s.dies := rfl
@[simp] theorem putV_grafts (s : State) (r : Reg) (v : Vec) : (s.putV r v).grafts = s.grafts := rfl
@[simp] theorem putV_remaps (s : State) (r : Reg) (v : Vec) : (s.putV r v).remaps = s.remaps := rfl
@[simp] theorem putV_manifest (s : State) (r : Reg) (v : Vec) : (s.putV r v).manifest = s.manifest := rfl
@[simp] theorem putV_training (s : State) (r : Reg) (v : Vec) : (s.putV r v).training = s.training := rfl
@[simp] theorem putV_graftGen (s : State) (r : Reg) (v : Vec) : (s.putV r v).graftGen = s.graftGen := rfl
@[simp] theorem putV_stateGen (s : State) (r : Reg) (v : Vec) : (s.putV r v).stateGen = s.stateGen := rfl
@[simp] theorem putV_moduleId (s : State) (r : Reg) (v : Vec) : (s.putV r v).moduleId = s.moduleId := rfl
@[simp] theorem putV_groups (s : State) (r : Reg) (v : Vec) : (s.putV r v).groups = s.groups := rfl
@[simp] theorem putV_members (s : State) (r : Reg) (v : Vec) : (s.putV r v).members = s.members := rfl
@[simp] theorem putV_image (s : State) (r : Reg) (v : Vec) : (s.putV r v).image = s.image := rfl
@[simp] theorem putV_running (s : State) (r : Reg) (v : Vec) : (s.putV r v).running = s.running := rfl
@[simp] theorem putV_queues (s : State) (r : Reg) (v : Vec) : (s.putV r v).queues = s.queues := rfl
@[simp] theorem putV_cached (s : State) (r : Reg) (v : Vec) : (s.putV r v).cached = s.cached := rfl
@[simp] theorem putV_hwin (s : State) (r : Reg) (v : Vec) : (s.putV r v).hwin = s.hwin := rfl
@[simp] theorem putV_hevt (s : State) (r : Reg) (v : Vec) : (s.putV r v).hevt = s.hevt := rfl
@[simp] theorem putV_slotRun (s : State) (r : Reg) (v : Vec) : (s.putV r v).slotRun = s.slotRun := rfl
@[simp] theorem putV_slotN (s : State) (r : Reg) (v : Vec) : (s.putV r v).slotN = s.slotN := rfl
@[simp] theorem putV_slotEpoch (s : State) (r : Reg) (v : Vec) : (s.putV r v).slotEpoch = s.slotEpoch := rfl
@[simp] theorem putV_slotTable (s : State) (r : Reg) (v : Vec) : (s.putV r v).slotTable = s.slotTable := rfl
@[simp] theorem putV_rotation (s : State) (r : Reg) (v : Vec) : (s.putV r v).rotation = s.rotation := rfl
@[simp] theorem putV_bringup (s : State) (r : Reg) (v : Vec) : (s.putV r v).bringup = s.bringup := rfl
@[simp] theorem putV_flash (s : State) (r : Reg) (v : Vec) : (s.putV r v).flash = s.flash := rfl
@[simp] theorem putV_fatals (s : State) (r : Reg) (v : Vec) : (s.putV r v).fatals = s.fatals := rfl
@[simp] theorem putV_coppice (s : State) (r : Reg) (v : Vec) : (s.putV r v).coppice = s.coppice := rfl
@[simp] theorem putV_ports (s : State) (r : Reg) (v : Vec) : (s.putV r v).ports = s.ports := rfl
@[simp] theorem putV_ptp (s : State) (r : Reg) (v : Vec) : (s.putV r v).ptp = s.ptp := rfl
@[simp] theorem putV_pageMove (s : State) (r : Reg) (v : Vec) : (s.putV r v).pageMove = s.pageMove := rfl
@[simp] theorem putV_spdm (s : State) (r : Reg) (v : Vec) : (s.putV r v).spdm = s.spdm := rfl
@[simp] theorem putV_manifestOk (s : State) (r : Reg) (v : Vec) : (s.putV r v).manifestOk = s.manifestOk := rfl
@[simp] theorem putV_hostMem (s : State) (r : Reg) (v : Vec) : (s.putV r v).hostMem = s.hostMem := rfl
@[simp] theorem putV_hostImages (s : State) (r : Reg) (v : Vec) : (s.putV r v).hostImages = s.hostImages := rfl
@[simp] theorem putV_hostHeld (s : State) (r : Reg) (v : Vec) : (s.putV r v).hostHeld = s.hostHeld := rfl
@[simp] theorem putV_hostOut (s : State) (r : Reg) (v : Vec) : (s.putV r v).hostOut = s.hostOut := rfl
@[simp] theorem putV_now (s : State) (r : Reg) (v : Vec) : (s.putV r v).now = s.now := rfl
@[simp] theorem putV_turn (s : State) (r : Reg) (v : Vec) : (s.putV r v).turn = s.turn := rfl
@[simp] theorem putV_fresh (s : State) (r : Reg) (v : Vec) : (s.putV r v).fresh = s.fresh := rfl
@[simp] theorem putV_agenda (s : State) (r : Reg) (v : Vec) : (s.putV r v).agenda = s.agenda := rfl
@[simp] theorem putV_focus (s : State) (r : Reg) (v : Vec) : (s.putV r v).focus = s.focus := rfl

end Sys2Proof.Laws
end

