-- ==== Sys2Proof/Laws/Tables.lean ====
section
/-! SUPPORT. Tables: a read after a write at the same key gives the value written, other keys are left alone. -/

namespace Sys2Proof.Laws

open Sys2Proof Sys2Proof.Machine

variable {α : Type}

@[simp] theorem look_nil (k : Nat) : FMap.look ([] : FMap α) k = none := rfl

theorem look_put (m : FMap α) (k j : Nat) (v : α) : (m.put k v).look j = if k = j then some v else m.look j := by
  induction m with
  | nil => simp [FMap.put, FMap.look]
  | cons p t ih =>
    obtain ⟨k', v'⟩ := p
    simp only [FMap.put]
    split
    · next h => subst h; simp only [FMap.look]; split <;> simp_all
    · split
      · simp only [FMap.look]
      · next h _ =>
        simp only [FMap.look, ih]
        split
        · next h' => subst h'; simp [Ne.symm h]
        · rfl

@[simp] theorem look_put_same (m : FMap α) (k : Nat) (v : α) : (m.put k v).look k = some v := by simp [look_put]

theorem look_put_ne (m : FMap α) {k j : Nat} (v : α) (h : k ≠ j) : (m.put k v).look j = m.look j := by simp [look_put, h]

theorem look_cut (m : FMap α) (k j : Nat) : (m.cut k).look j = if k = j then none else m.look j := by
  induction m with
  | nil => simp [FMap.cut, FMap.look]
  | cons p t ih =>
    obtain ⟨k', v'⟩ := p
    simp only [FMap.cut]
    split
    · next h => subst h; rw [ih]; split <;> simp_all [FMap.look]
    · next h =>
      simp only [FMap.look, ih]
      split
      · next h' => subst h'; simp [Ne.symm h]
      · rfl

theorem at_put (m : FMap α) (k j : Nat) (v d : α) : (m.put k v).at j d = if k = j then v else m.at j d := by
  simp only [FMap.at, look_put]; split <;> rfl

@[simp] theorem at_put_same (m : FMap α) (k : Nat) (v d : α) : (m.put k v).at k d = v := by simp [at_put]

theorem at_put_ne (m : FMap α) {k j : Nat} (v d : α) (h : k ≠ j) : (m.put k v).at j d = m.at j d := by simp [at_put, h]

theorem at_cut (m : FMap α) (k j : Nat) (d : α) : (m.cut k).at j d = if k = j then d else m.at j d := by
  simp only [FMap.at, look_cut]; split <;> rfl

end Sys2Proof.Laws
end

