-- ==== Sys2Proof/Laws/Registers.lean ====
section
/-! SUPPORT. Registers of a context, and what completing an instruction does (R15, R16). -/

namespace Sys2Proof.Laws

open Sys2Proof Sys2Proof.Machine Sys2Proof.Safety

@[simp] theorem ctx_setCtx_same (s : State) (n k : Nat) (x : Ctx) : (s.setCtx n k x).ctx n k = x := by
  simp [State.ctx, State.setCtx]

@[simp] theorem me_setMe (s : State) (x : Ctx) : (s.setMe x).me = x := by simp [State.me, State.setMe]

@[simp] theorem myCore_setMyCore (s : State) (c : Core) : (s.setMyCore c).myCore = c := by
  simp [State.myCore, State.setMyCore, State.core, State.setCore]

@[simp] theorem me_setMyCore (s : State) (c : Core) : (s.setMyCore c).me = s.me := rfl

@[simp] theorem myCore_setMe (s : State) (x : Ctx) : (s.setMe x).myCore = s.myCore := rfl

@[simp] theorem me_putX (s : State) (r : Reg) (v : Word) : (s.putX r v).me = (s.me.writeX r v).next := by simp [State.putX]

@[simp] theorem me_pass (s : State) : s.pass.me = s.me.next := by simp [State.pass]

@[simp] theorem me_putV (s : State) (r : Reg) (v : Vec) : (s.putV r v).me = (s.me.writeV r.toNat v).next := by simp [State.putV]

@[simp] theorem next_readX (x : Ctx) (r : Reg) : x.next.readX r = x.readX r := rfl
@[simp] theorem next_pc (x : Ctx) : x.next.pc = x.pc + 4 := rfl
@[simp] theorem next_win (x : Ctx) : x.next.win = x.win := rfl
@[simp] theorem next_glob (x : Ctx) : x.next.glob = x.glob := rfl
@[simp] theorem next_depth (x : Ctx) : x.next.depth = x.depth := rfl

@[simp] theorem writeX_pc (x : Ctx) (r : Reg) (v : Word) : (x.writeX r v).pc = x.pc := by unfold Ctx.writeX; (repeat' split) <;> rfl

@[simp] theorem writeX_depth (x : Ctx) (r : Reg) (v : Word) : (x.writeX r v).depth = x.depth := by
  unfold Ctx.writeX; (repeat' split) <;> rfl

theorem winIdx_inj {d a b : Nat} (ha : 8 ≤ a) (ha' : a < 32) (hb : 8 ≤ b) (hb' : b < 32) (h : winIdx d a = winIdx d b) : a = b := by
  unfold winIdx at h; split at h <;> split at h <;> omega

/-- A read after a write of a scalar register (R15). -/
theorem readX_writeX (x : Ctx) (r q : Reg) (v : Word) : (x.writeX r v).readX q = if q = r then landed r v else x.readX q := by
  have hr := r.isLt
  have hq := q.isLt
  have key : q = r ↔ q.toNat = r.toNat := BitVec.toNat_inj.symm
  have zero : r = 0#5 ↔ r.toNat = 0 := by rw [← BitVec.toNat_inj]; rfl
  unfold Ctx.writeX
  split
  · next h =>
    split
    · next e => subst e; simp [Ctx.readX, h, landed, zero]
    · rfl
  · next h =>
    split
    · next h8 =>
      simp only [Ctx.readX]
      by_cases hq0 : q.toNat = 0
      · have : q ≠ r := fun e => h (by rw [← key.1 e]; exact hq0)
        simp [hq0, this]
      · by_cases hq8 : q.toNat < 8
        · simp only [hq0, hq8, if_false, if_true, at_put]
          by_cases e : q = r
          · simp [e, landed, zero, h]
          · have : ¬ r.toNat = q.toNat := fun g => e (key.2 g.symm)
            simp [e, this]
        · have : q ≠ r := fun e => hq8 (by rw [key.1 e]; exact h8)
          simp [hq0, hq8, this]
    · next h8 =>
      simp only [Ctx.readX]
      by_cases hq0 : q.toNat = 0
      · have : q ≠ r := fun e => h (by rw [← key.1 e]; exact hq0)
        simp [hq0, this]
      · by_cases hq8 : q.toNat < 8
        · have : q ≠ r := fun e => h8 (by rw [← key.1 e]; exact hq8)
          simp [hq0, hq8, this]
        · simp only [hq0, hq8, if_false, at_put]
          by_cases e : q = r
          · simp [e, landed, zero, h]
          · have : ¬ winIdx x.depth r.toNat = winIdx x.depth q.toNat := fun g =>
              e (key.2 (winIdx_inj (by omega) hr (by omega) hq g).symm)
            simp [e, this]

/-- Writing one scalar register leaves every other, in every window (R15, R16). -/
theorem writeX_sameScalarsBut (x : Ctx) (r : Reg) (v : Word) : SameScalarsBut x (x.writeX r v) r where
  current q h := by rw [readX_writeX]; simp [h]
  frames i h := by
    unfold Ctx.writeX
    split
    · rfl
    · split
      · rfl
      · next h8 => exact at_put_ne _ _ _ (fun e => by rcases h with h | h; exact h8 h; exact h e.symm)
  globals q h := by
    unfold Ctx.writeX
    split
    · rfl
    · split
      · next h8 => exact at_put_ne _ _ _ (fun e => by rcases h with h | h; omega; exact h e.symm)
      · rfl
  depth := by simp

theorem writeX_context (x : Ctx) (r : Reg) (v : Word) (p : Word) :
    ({ x.writeX r v with pc := p } : Ctx) = { x with pc := p, glob := (x.writeX r v).glob, win := (x.writeX r v).win } := by
  unfold Ctx.writeX; (repeat' split) <;> rfl

/-- Replacing the context in focus changes nothing else. -/
theorem onlyMe_setMe (s : State) (x : Ctx) : OnlyMe s (s.setMe x) where
  rest := rfl
  others _ h := look_put_ne _ _ (Ne.symm h)
  memory _ _ := rfl

/-- Replacing the context in focus and its core changes nothing else. -/
theorem onlyMyCore_set (s : State) (c : Core) (x : Ctx) : OnlyMyCore s ((s.setMyCore c).setMe x) where
  rest := rfl
  others _ h := look_put_ne _ _ (Ne.symm h)
  cores _ h := look_put_ne _ _ (Ne.symm h)
  memory _ _ := rfl

/-- What completing with one scalar result does. -/
theorem putX_writesX (s : State) (r : Reg) (v : Word) : WritesX s (s.putX r v) r v where
  value := by rw [me_putX, next_readX, readX_writeX]; simp
  pc := by simp
  scalars := by
    rw [me_putX]
    have h := writeX_sameScalarsBut s.me r v
    exact ⟨h.current, h.frames, h.globals, h.depth⟩
  context := by rw [me_putX]; exact writeX_context _ _ _ _
  elsewhere := onlyMe_setMe s _

/-- What going on to another address does. -/
theorem setMe_jumps (s : State) (p : Word) : Jumps s (s.setMe { s.me with pc := p }) p where
  context := by simp
  elsewhere := onlyMe_setMe s _

/-- What a jump that links does. -/
theorem setMe_links (s : State) (d : Reg) (p : Word) :
    Links s (s.setMe { s.me.writeX d (s.me.pc + 4) with pc := p }) d p where
  value := by rw [me_setMe]; show (s.me.writeX d (s.me.pc + 4)).readX d = _; rw [readX_writeX]; simp
  pc := by simp
  scalars := by
    rw [me_setMe]
    have h := writeX_sameScalarsBut s.me d (s.me.pc + 4)
    exact ⟨h.current, h.frames, h.globals, h.depth⟩
  context := by rw [me_setMe]; exact writeX_context _ _ _ _
  elsewhere := onlyMe_setMe s _

end Sys2Proof.Laws
end

