-- ==== Sys2Proof/Laws/Operations.lean ====
section
/-! SUPPORT. What the shared operations can do: reading back what an update wrote, which fields an operation touches, and
the cases of taking a trap. -/

namespace Sys2Proof.Laws

open Sys2Proof Sys2Proof.Machine

/-! ### Reading back -/

@[simp] theorem core_setCore_same (s : State) (n : Nat) (c : Core) : (s.setCore n c).core n = c := by
  simp [State.core, State.setCore]

theorem core_setCore_ne (s : State) {n k : Nat} (c : Core) (h : n ≠ k) : (s.setCore n c).core k = s.core k := by
  simp only [State.core, State.setCore, at_put_ne _ _ _ h]
  rfl

@[simp] theorem core_setCtx (s : State) (n k j : Nat) (x : Ctx) : (s.setCtx n k x).core j = s.core j := rfl
@[simp] theorem ctx_setCore (s : State) (n j k : Nat) (c : Core) : (s.setCore n c).ctx j k = s.ctx j k := rfl

@[simp] theorem die_setDie_same (s : State) (d : Nat) (x : Die) : (s.setDie d x).die d = x := by
  simp [State.die, State.setDie]

theorem die_setDie_ne (s : State) {d k : Nat} (x : Die) (h : d ≠ k) : (s.setDie d x).die k = s.die k := by
  simp only [State.die, State.setDie, at_put_ne _ _ _ h]

@[simp] theorem queue_setQueue_same (s : State) (q : Nat) (x : Queue) : (s.setQueue q x).queue q = x := by
  simp [State.queue, State.setQueue]

theorem queue_setQueue_ne (s : State) {q k : Nat} (x : Queue) (h : q ≠ k) : (s.setQueue q x).queue k = s.queue k := by
  simp only [State.queue, State.setQueue, at_put_ne _ _ _ h]

@[simp] theorem port_setPort_same (s : State) (p : Nat) (x : Port) : (s.setPort p x).port p = x := by
  simp [State.port, State.setPort]

theorem port_setPort_ne (s : State) {p k : Nat} (x : Port) (h : p ≠ k) : (s.setPort p x).port k = s.port k := by
  simp only [State.port, State.setPort, at_put_ne _ _ _ h]

/-! ### Which fields an operation touches -/

theorem setPort_only (s : State) (p : Nat) (x : Port) :
    s.setPort p x = { s with ports := s.ports.put p x, stateGen := (s.setPort p x).stateGen } := rfl

theorem setCluster_only (s : State) (k : Nat) (x : Cluster) :
    s.setCluster k x = { s with clusters := s.clusters.put k x, stateGen := (s.setCluster k x).stateGen } := rfl

theorem setSite_only (s : State) (n : Nat) (e : Site) :
    s.setSite n e = { s with sites := s.sites.put n e, stateGen := (s.setSite n e).stateGen } := rfl

/-- What entering a router's input buffer touches: the packet and the buffer's credits, and of a PUSH its count (R75, R218, R252). -/
def AdmitsOnly (s t : State) : Prop := t = { s with net := t.net, used := t.used, reqs := t.reqs, ctxs := t.ctxs }

theorem AdmitsOnly.trans {s t u : State} (h : AdmitsOnly s t) (k : AdmitsOnly t u) : AdmitsOnly s u := by
  unfold AdmitsOnly at *
  exact k.trans (by rw [h])

theorem pushInjected_only (s : State) (p : Packet) : AdmitsOnly s (s.pushInjected p) := by
  unfold State.pushInjected State.dropPush
  dsimp only
  split
  · split
    · split
      · split <;> rfl
      · rfl
    · rfl
  · rfl

theorem admitOne_only (s : State) (site port lane : Nat) : AdmitsOnly s (s.admitOne site port lane) := by
  unfold State.admitOne
  dsimp only
  split
  · rfl
  · split
    · exact AdmitsOnly.trans (t := { s with net := _, used := _ }) rfl (pushInjected_only _ _)
    · rfl

theorem letIn_only (s : State) (site port lane : Nat) : AdmitsOnly s (s.letIn site port lane) :=
  (((admitOne_only s site port lane).trans (admitOne_only _ _ _ _)).trans (admitOne_only _ _ _ _)).trans
    (admitOne_only _ _ _ _)

/-- A packet enters the mesh at a site, under the next identifier. -/
theorem injectAt_only (s : State) (site port : Nat) (p : Packet) :
    let t := s.injectAt site port p
    t = { s with net := t.net, used := t.used, reqs := t.reqs, ctxs := t.ctxs, fresh := s.fresh + 1, injected := s.injected + 1 } :=
  letIn_only _ _ _ _

theorem inject_only (s : State) (site : Nat) (p : Packet) :
    let t := s.inject site p
    t = { s with net := t.net, used := t.used, reqs := t.reqs, ctxs := t.ctxs, fresh := s.fresh + 1, injected := s.injected + 1 } :=
  injectAt_only s site 0 p

/-- What a core sends enters the mesh at its site, or waits for its twin in a checked pair (R204). -/
theorem emit_cases (s : State) (core : Nat) (w : Option Sender) (p : Packet) :
    ((s.core core).pair = none ∧ s.emit core w p = s.inject (s.core core).site p) ∨
    (∃ q, (s.core core).pair = some q ∧
      s.emit core w p =
        s.setCore core { s.core core with pair := some { q with waiting := q.waiting ++ [⟨p, s.now, w⟩] } }) := by
  unfold State.emit
  dsimp only
  split
  · next q h => exact .inr ⟨q, h, rfl⟩
  · next h => exact .inl ⟨h, rfl⟩

theorem emit_only (s : State) (core : Nat) (w : Option Sender) (p : Packet) :
    let t := s.emit core w p
    t = { s with cores := t.cores, net := t.net, used := t.used, reqs := t.reqs, ctxs := t.ctxs, fresh := t.fresh,
                 injected := t.injected } := by
  rcases emit_cases s core w p with ⟨_, h⟩ | ⟨q, _, h⟩
  · have k := inject_only s (s.core core).site p
    dsimp only at k
    rw [h, k]
  · rw [h]
    rfl

/-- A packet leaves its place: the credits of its buffer are free, on their way, or sent to the peer port, and the next packet
behind the same local port may enter. -/
theorem vacate_only (s : State) (f : Flight) :
    let t := s.vacate f
    t = { s with net := t.net, used := t.used, reqs := t.reqs, ctxs := t.ctxs, owed := t.owed, ports := t.ports,
                 stateGen := t.stateGen } := by
  unfold State.vacate
  dsimp only
  split
  · rfl
  · split
    · split
      · have k := letIn_only (s.release' (bufKey f.site (8 + f.inPort) f.lane) f.need) f.site f.inPort f.lane
        unfold AdmitsOnly at k
        rw [k]
        rfl
      · rfl
    · split <;> rfl
  all_goals rfl

theorem consume_only (s : State) (id : Nat) :
    let t := s.consume id
    t = { s with net := t.net, consumed := t.consumed, used := t.used, reqs := t.reqs, ctxs := t.ctxs, owed := t.owed,
                 ports := t.ports, stateGen := t.stateGen, crcFails := t.crcFails } := by
  unfold State.consume State.linksGood
  dsimp only
  split
  · rfl
  · next f _ =>
    have h := vacate_only s f
    dsimp only at h
    rw [h]

/-- Only what issuing and sending an access touches differs: the accesses, counts of contexts, waiting packets of pairs, the
mesh, the next identifier. -/
def SendsOnly (s t : State) : Prop :=
  t = { s with reqs := t.reqs, ctxs := t.ctxs, cores := t.cores, net := t.net, used := t.used, fresh := t.fresh,
               injected := t.injected }

theorem SendsOnly.trans {s t u : State} (h : SendsOnly s t) (k : SendsOnly t u) : SendsOnly s u := by
  unfold SendsOnly at *
  exact k.trans (by rw [h])

theorem emit_sendsOnly (s : State) (core : Nat) (w : Option Sender) (p : Packet) : SendsOnly s (s.emit core w p) := by
  have h := emit_only s core w p
  dsimp only at h
  unfold SendsOnly
  rw [h]

/-- An access goes on its way: a routed one sends a packet. -/
theorem depart_sendsOnly (s : State) (r : Req) : SendsOnly s (s.depart r) := by
  have h : SendsOnly s (s.setReq { r with stage := .going }) := rfl
  unfold State.depart
  dsimp only
  split
  · exact h.trans (emit_sendsOnly _ _ _ _)
  · exact h

/-- An access that is issued touches the list of accesses and, where it leaves at once, what sending it touches. -/
theorem post_sendsOnly (s : State) (r : Req) : SendsOnly s (s.post r) := by
  unfold State.post
  dsimp only
  generalize (if r.group = 0 then s.fresh + 1 else r.group) = g
  split
  · rfl
  · split
    · rfl
    · exact SendsOnly.trans (t := { s with fresh := s.fresh + 1, reqs := _ }) rfl (depart_sendsOnly _ _)

/-! ### Traps (R24, R27, R200, R201) -/

theorem trap_idle (s : State) (core ctx cause : Nat) (val tpc : Word) (h : (s.ctx core ctx).act = none) :
    s.trap core ctx cause val tpc = s := by
  simp [State.trap, h]

theorem trap_app (s : State) (core ctx cause : Nat) (val tpc : Word) (a : Activation)
    (h : (s.ctx core ctx).act = some a) (hm : a.mode = .app) :
    s.trap core ctx cause val tpc = s.abortInto core ctx a cause val tpc := by
  simp [State.trap, h, hm]

theorem trap_system (s : State) (core ctx cause : Nat) (val tpc : Word) (a : Activation)
    (h : (s.ctx core ctx).act = some a) (hm : a.mode = .system) :
    s.trap core ctx cause val tpc = s.coreFault core ctx a cause val tpc := by
  simp [State.trap, h, hm]

/-- An abort into a trap context touches the core and the context, nothing else. -/
theorem abortInto_only (s : State) (core ctx : Nat) (a : Activation) (cause : Nat) (val tpc : Word) :
    ∃ c x, s.abortInto core ctx a cause val tpc = (s.setCore core c).setCtx core ctx x := ⟨_, _, rfl⟩

/-- A core fault touches the core and the context and logs one event. -/
theorem coreFault_only (s : State) (core ctx : Nat) (a : Activation) (cause : Nat) (val tpc : Word) :
    ∃ c x held, s.coreFault core ctx a cause val tpc =
      ((s.logCore core evCoreFault held [(s.ctx core ctx).trapcause, (s.ctx core ctx).trapval, causeWord ctx cause true, val]).setCore
        core c).setCtx core ctx x ∧ x.act = none := ⟨_, _, _, rfl, rfl⟩

/-- The end of a trap context touches the core and the context, and the context is free. -/
theorem trapReturn_only (s : State) (core ctx : Nat) (replay : Bool) (a : Activation) (h : (s.ctx core ctx).act = some a) :
    ∃ c x, s.trapReturn core ctx replay = (s.setCore core c).setCtx core ctx x ∧ x.act = none := by
  simp only [State.trapReturn, h]
  exact ⟨_, _, rfl, rfl⟩

end Sys2Proof.Laws
end

