-- ==== Sys2Proof/Laws/PerInstr.lean ====
section
/-! SUPPORT. The family `RoundTrip`: what an instruction is encoded as decodes to it again, one lemma per constructor. -/

namespace Sys2Proof.Laws

open Sys2Proof

set_option linter.unusedSimpArgs false
set_option linter.unusedVariables false

/-- The word, or the tile command word, of a well-formed instruction decodes to that instruction. -/
def RoundTrip.Statement (i : Instr) : Prop :=
  (∀ wd, i.wf = true → encode i = some wd → decode32 wd = some i) ∧
  (∀ wd q, i.wf = true → encodeCommand i = some wd → classFits (CmdFields.ofWord wd).cls q = true →
    decodeCommand q wd = .ok i)

theorem no_word {i : Instr} (h : encode i = none) (wd : Word32) : i.wf = true → encode i = some wd → decode32 wd = some i := by
  intro _ g; rw [h] at g; cases g

theorem no_command {i : Instr} (h : commandFields i = none) (wd : Vec) (q : EngineQ) :
    i.wf = true → encodeCommand i = some wd → classFits (CmdFields.ofWord wd).cls q = true → decodeCommand q wd = .ok i := by
  intro _ g; rw [encodeCommand, h] at g; cases g

theorem RoundTrip.lui (d : Reg) (imm : BitVec 20) : RoundTrip.Statement (.lui d imm) :=
  ⟨by
    intro wd hw h
    obtain rfl := Option.some.inj h
    rw [decode_encR]
    simp [decodeFields, decodeLui, EngineQ.code, CountClass.code, IdItem.code, CmpCond.code],
   no_command rfl⟩

theorem RoundTrip.auipc (d : Reg) (imm : BitVec 20) : RoundTrip.Statement (.auipc d imm) :=
  ⟨by
    intro wd hw h
    obtain rfl := Option.some.inj h
    rw [decode_encR]
    simp [decodeFields, decodeAuipc, EngineQ.code, CountClass.code, IdItem.code, CmpCond.code],
   no_command rfl⟩

theorem RoundTrip.jal (d : Reg) (imm : BitVec 20) : RoundTrip.Statement (.jal d imm) :=
  ⟨by
    intro wd hw h
    obtain rfl := Option.some.inj h
    rw [decode_encR]
    simp [decodeFields, decodeJal, EngineQ.code, CountClass.code, IdItem.code, CmpCond.code],
   no_command rfl⟩

theorem RoundTrip.jalr (d : Reg) (a : Reg) (imm : BitVec 12) : RoundTrip.Statement (.jalr d a imm) :=
  ⟨by
    intro wd hw h
    obtain rfl := Option.some.inj h
    rw [decode_encR]
    simp [decodeFields, decodeJalr, EngineQ.code, CountClass.code, IdItem.code, CmpCond.code],
   no_command rfl⟩

theorem RoundTrip.beq (a : Reg) (b : Reg) (imm : BitVec 12) : RoundTrip.Statement (.beq a b imm) :=
  ⟨by
    intro wd hw h
    obtain rfl := Option.some.inj h
    rw [decode_encR]
    simp [decodeFields, decodeBranch, EngineQ.code, CountClass.code, IdItem.code, CmpCond.code],
   no_command rfl⟩

theorem RoundTrip.bne (a : Reg) (b : Reg) (imm : BitVec 12) : RoundTrip.Statement (.bne a b imm) :=
  ⟨by
    intro wd hw h
    obtain rfl := Option.some.inj h
    rw [decode_encR]
    simp [decodeFields, decodeBranch, EngineQ.code, CountClass.code, IdItem.code, CmpCond.code],
   no_command rfl⟩

theorem RoundTrip.blt (a : Reg) (b : Reg) (imm : BitVec 12) : RoundTrip.Statement (.blt a b imm) :=
  ⟨by
    intro wd hw h
    obtain rfl := Option.some.inj h
    rw [decode_encR]
    simp [decodeFields, decodeBranch, EngineQ.code, CountClass.code, IdItem.code, CmpCond.code],
   no_command rfl⟩

theorem RoundTrip.bge (a : Reg) (b : Reg) (imm : BitVec 12) : RoundTrip.Statement (.bge a b imm) :=
  ⟨by
    intro wd hw h
    obtain rfl := Option.some.inj h
    rw [decode_encR]
    simp [decodeFields, decodeBranch, EngineQ.code, CountClass.code, IdItem.code, CmpCond.code],
   no_command rfl⟩

theorem RoundTrip.bltu (a : Reg) (b : Reg) (imm : BitVec 12) : RoundTrip.Statement (.bltu a b imm) :=
  ⟨by
    intro wd hw h
    obtain rfl := Option.some.inj h
    rw [decode_encR]
    simp [decodeFields, decodeBranch, EngineQ.code, CountClass.code, IdItem.code, CmpCond.code],
   no_command rfl⟩

theorem RoundTrip.bgeu (a : Reg) (b : Reg) (imm : BitVec 12) : RoundTrip.Statement (.bgeu a b imm) :=
  ⟨by
    intro wd hw h
    obtain rfl := Option.some.inj h
    rw [decode_encR]
    simp [decodeFields, decodeBranch, EngineQ.code, CountClass.code, IdItem.code, CmpCond.code],
   no_command rfl⟩

theorem RoundTrip.lb (d : Reg) (a : Reg) (imm : BitVec 12) : RoundTrip.Statement (.lb d a imm) :=
  ⟨by
    intro wd hw h
    obtain rfl := Option.some.inj h
    rw [decode_encR]
    simp [decodeFields, decodeLoad, EngineQ.code, CountClass.code, IdItem.code, CmpCond.code],
   no_command rfl⟩

theorem RoundTrip.lh (d : Reg) (a : Reg) (imm : BitVec 12) : RoundTrip.Statement (.lh d a imm) :=
  ⟨by
    intro wd hw h
    obtain rfl := Option.some.inj h
    rw [decode_encR]
    simp [decodeFields, decodeLoad, EngineQ.code, CountClass.code, IdItem.code, CmpCond.code],
   no_command rfl⟩

theorem RoundTrip.lw (d : Reg) (a : Reg) (imm : BitVec 12) : RoundTrip.Statement (.lw d a imm) :=
  ⟨by
    intro wd hw h
    obtain rfl := Option.some.inj h
    rw [decode_encR]
    simp [decodeFields, decodeLoad, EngineQ.code, CountClass.code, IdItem.code, CmpCond.code],
   no_command rfl⟩

theorem RoundTrip.ld (d : Reg) (a : Reg) (imm : BitVec 12) : RoundTrip.Statement (.ld d a imm) :=
  ⟨by
    intro wd hw h
    obtain rfl := Option.some.inj h
    rw [decode_encR]
    simp [decodeFields, decodeLoad, EngineQ.code, CountClass.code, IdItem.code, CmpCond.code],
   no_command rfl⟩

theorem RoundTrip.lbu (d : Reg) (a : Reg) (imm : BitVec 12) : RoundTrip.Statement (.lbu d a imm) :=
  ⟨by
    intro wd hw h
    obtain rfl := Option.some.inj h
    rw [decode_encR]
    simp [decodeFields, decodeLoad, EngineQ.code, CountClass.code, IdItem.code, CmpCond.code],
   no_command rfl⟩

theorem RoundTrip.lhu (d : Reg) (a : Reg) (imm : BitVec 12) : RoundTrip.Statement (.lhu d a imm) :=
  ⟨by
    intro wd hw h
    obtain rfl := Option.some.inj h
    rw [decode_encR]
    simp [decodeFields, decodeLoad, EngineQ.code, CountClass.code, IdItem.code, CmpCond.code],
   no_command rfl⟩

theorem RoundTrip.lwu (d : Reg) (a : Reg) (imm : BitVec 12) : RoundTrip.Statement (.lwu d a imm) :=
  ⟨by
    intro wd hw h
    obtain rfl := Option.some.inj h
    rw [decode_encR]
    simp [decodeFields, decodeLoad, EngineQ.code, CountClass.code, IdItem.code, CmpCond.code],
   no_command rfl⟩

theorem RoundTrip.sb (b : Reg) (a : Reg) (imm : BitVec 12) : RoundTrip.Statement (.sb b a imm) :=
  ⟨by
    intro wd hw h
    obtain rfl := Option.some.inj h
    rw [decode_encR]
    simp [decodeFields, decodeStore, EngineQ.code, CountClass.code, IdItem.code, CmpCond.code],
   no_command rfl⟩

theorem RoundTrip.sh (b : Reg) (a : Reg) (imm : BitVec 12) : RoundTrip.Statement (.sh b a imm) :=
  ⟨by
    intro wd hw h
    obtain rfl := Option.some.inj h
    rw [decode_encR]
    simp [decodeFields, decodeStore, EngineQ.code, CountClass.code, IdItem.code, CmpCond.code],
   no_command rfl⟩

theorem RoundTrip.sw (b : Reg) (a : Reg) (imm : BitVec 12) : RoundTrip.Statement (.sw b a imm) :=
  ⟨by
    intro wd hw h
    obtain rfl := Option.some.inj h
    rw [decode_encR]
    simp [decodeFields, decodeStore, EngineQ.code, CountClass.code, IdItem.code, CmpCond.code],
   no_command rfl⟩

theorem RoundTrip.sd (b : Reg) (a : Reg) (imm : BitVec 12) : RoundTrip.Statement (.sd b a imm) :=
  ⟨by
    intro wd hw h
    obtain rfl := Option.some.inj h
    rw [decode_encR]
    simp [decodeFields, decodeStore, EngineQ.code, CountClass.code, IdItem.code, CmpCond.code],
   no_command rfl⟩

theorem RoundTrip.addi (d : Reg) (a : Reg) (imm : BitVec 12) : RoundTrip.Statement (.addi d a imm) :=
  ⟨by
    intro wd hw h
    obtain rfl := Option.some.inj h
    rw [decode_encR]
    simp [decodeFields, decodeOpImm, EngineQ.code, CountClass.code, IdItem.code, CmpCond.code],
   no_command rfl⟩

theorem RoundTrip.slti (d : Reg) (a : Reg) (imm : BitVec 12) : RoundTrip.Statement (.slti d a imm) :=
  ⟨by
    intro wd hw h
    obtain rfl := Option.some.inj h
    rw [decode_encR]
    simp [decodeFields, decodeOpImm, EngineQ.code, CountClass.code, IdItem.code, CmpCond.code],
   no_command rfl⟩

theorem RoundTrip.sltiu (d : Reg) (a : Reg) (imm : BitVec 12) : RoundTrip.Statement (.sltiu d a imm) :=
  ⟨by
    intro wd hw h
    obtain rfl := Option.some.inj h
    rw [decode_encR]
    simp [decodeFields, decodeOpImm, EngineQ.code, CountClass.code, IdItem.code, CmpCond.code],
   no_command rfl⟩

theorem RoundTrip.xori (d : Reg) (a : Reg) (imm : BitVec 12) : RoundTrip.Statement (.xori d a imm) :=
  ⟨by
    intro wd hw h
    obtain rfl := Option.some.inj h
    rw [decode_encR]
    simp [decodeFields, decodeOpImm, EngineQ.code, CountClass.code, IdItem.code, CmpCond.code],
   no_command rfl⟩

theorem RoundTrip.ori (d : Reg) (a : Reg) (imm : BitVec 12) : RoundTrip.Statement (.ori d a imm) :=
  ⟨by
    intro wd hw h
    obtain rfl := Option.some.inj h
    rw [decode_encR]
    simp [decodeFields, decodeOpImm, EngineQ.code, CountClass.code, IdItem.code, CmpCond.code],
   no_command rfl⟩

theorem RoundTrip.andi (d : Reg) (a : Reg) (imm : BitVec 12) : RoundTrip.Statement (.andi d a imm) :=
  ⟨by
    intro wd hw h
    obtain rfl := Option.some.inj h
    rw [decode_encR]
    simp [decodeFields, decodeOpImm, EngineQ.code, CountClass.code, IdItem.code, CmpCond.code],
   no_command rfl⟩

theorem RoundTrip.slli (d : Reg) (a : Reg) (sh : BitVec 6) : RoundTrip.Statement (.slli d a sh) :=
  ⟨by
    intro wd hw h
    obtain rfl := Option.some.inj h
    rw [decode_encR]
    simp [decodeFields, decodeOpImm, EngineQ.code, CountClass.code, IdItem.code, CmpCond.code],
   no_command rfl⟩

theorem RoundTrip.srli (d : Reg) (a : Reg) (sh : BitVec 6) : RoundTrip.Statement (.srli d a sh) :=
  ⟨by
    intro wd hw h
    obtain rfl := Option.some.inj h
    rw [decode_encR]
    simp [decodeFields, decodeOpImm, EngineQ.code, CountClass.code, IdItem.code, CmpCond.code],
   no_command rfl⟩

theorem RoundTrip.srai (d : Reg) (a : Reg) (sh : BitVec 6) : RoundTrip.Statement (.srai d a sh) :=
  ⟨by
    intro wd hw h
    obtain rfl := Option.some.inj h
    rw [decode_encR]
    simp [decodeFields, decodeOpImm, EngineQ.code, CountClass.code, IdItem.code, CmpCond.code],
   no_command rfl⟩

theorem RoundTrip.addiw (d : Reg) (a : Reg) (imm : BitVec 12) : RoundTrip.Statement (.addiw d a imm) :=
  ⟨by
    intro wd hw h
    obtain rfl := Option.some.inj h
    rw [decode_encR]
    simp [decodeFields, decodeOpImm32, EngineQ.code, CountClass.code, IdItem.code, CmpCond.code],
   no_command rfl⟩

theorem RoundTrip.slliw (d : Reg) (a : Reg) (sh : BitVec 5) : RoundTrip.Statement (.slliw d a sh) :=
  ⟨by
    intro wd hw h
    obtain rfl := Option.some.inj h
    rw [decode_encR]
    simp [decodeFields, decodeOpImm32, EngineQ.code, CountClass.code, IdItem.code, CmpCond.code],
   no_command rfl⟩

theorem RoundTrip.srliw (d : Reg) (a : Reg) (sh : BitVec 5) : RoundTrip.Statement (.srliw d a sh) :=
  ⟨by
    intro wd hw h
    obtain rfl := Option.some.inj h
    rw [decode_encR]
    simp [decodeFields, decodeOpImm32, EngineQ.code, CountClass.code, IdItem.code, CmpCond.code],
   no_command rfl⟩

theorem RoundTrip.sraiw (d : Reg) (a : Reg) (sh : BitVec 5) : RoundTrip.Statement (.sraiw d a sh) :=
  ⟨by
    intro wd hw h
    obtain rfl := Option.some.inj h
    rw [decode_encR]
    simp [decodeFields, decodeOpImm32, EngineQ.code, CountClass.code, IdItem.code, CmpCond.code],
   no_command rfl⟩

theorem RoundTrip.add (d : Reg) (a : Reg) (b : Reg) : RoundTrip.Statement (.add d a b) :=
  ⟨by
    intro wd hw h
    obtain rfl := Option.some.inj h
    rw [decode_encR]
    simp [decodeFields, decodeOp, EngineQ.code, CountClass.code, IdItem.code, CmpCond.code],
   no_command rfl⟩

theorem RoundTrip.sll (d : Reg) (a : Reg) (b : Reg) : RoundTrip.Statement (.sll d a b) :=
  ⟨by
    intro wd hw h
    obtain rfl := Option.some.inj h
    rw [decode_encR]
    simp [decodeFields, decodeOp, EngineQ.code, CountClass.code, IdItem.code, CmpCond.code],
   no_command rfl⟩

theorem RoundTrip.slt (d : Reg) (a : Reg) (b : Reg) : RoundTrip.Statement (.slt d a b) :=
  ⟨by
    intro wd hw h
    obtain rfl := Option.some.inj h
    rw [decode_encR]
    simp [decodeFields, decodeOp, EngineQ.code, CountClass.code, IdItem.code, CmpCond.code],
   no_command rfl⟩

theorem RoundTrip.sltu (d : Reg) (a : Reg) (b : Reg) : RoundTrip.Statement (.sltu d a b) :=
  ⟨by
    intro wd hw h
    obtain rfl := Option.some.inj h
    rw [decode_encR]
    simp [decodeFields, decodeOp, EngineQ.code, CountClass.code, IdItem.code, CmpCond.code],
   no_command rfl⟩

theorem RoundTrip.xor (d : Reg) (a : Reg) (b : Reg) : RoundTrip.Statement (.xor d a b) :=
  ⟨by
    intro wd hw h
    obtain rfl := Option.some.inj h
    rw [decode_encR]
    simp [decodeFields, decodeOp, EngineQ.code, CountClass.code, IdItem.code, CmpCond.code],
   no_command rfl⟩

theorem RoundTrip.srl (d : Reg) (a : Reg) (b : Reg) : RoundTrip.Statement (.srl d a b) :=
  ⟨by
    intro wd hw h
    obtain rfl := Option.some.inj h
    rw [decode_encR]
    simp [decodeFields, decodeOp, EngineQ.code, CountClass.code, IdItem.code, CmpCond.code],
   no_command rfl⟩

theorem RoundTrip.or (d : Reg) (a : Reg) (b : Reg) : RoundTrip.Statement (.or d a b) :=
  ⟨by
    intro wd hw h
    obtain rfl := Option.some.inj h
    rw [decode_encR]
    simp [decodeFields, decodeOp, EngineQ.code, CountClass.code, IdItem.code, CmpCond.code],
   no_command rfl⟩

theorem RoundTrip.and (d : Reg) (a : Reg) (b : Reg) : RoundTrip.Statement (.and d a b) :=
  ⟨by
    intro wd hw h
    obtain rfl := Option.some.inj h
    rw [decode_encR]
    simp [decodeFields, decodeOp, EngineQ.code, CountClass.code, IdItem.code, CmpCond.code],
   no_command rfl⟩

theorem RoundTrip.sub (d : Reg) (a : Reg) (b : Reg) : RoundTrip.Statement (.sub d a b) :=
  ⟨by
    intro wd hw h
    obtain rfl := Option.some.inj h
    rw [decode_encR]
    simp [decodeFields, decodeOp, EngineQ.code, CountClass.code, IdItem.code, CmpCond.code],
   no_command rfl⟩

theorem RoundTrip.sra (d : Reg) (a : Reg) (b : Reg) : RoundTrip.Statement (.sra d a b) :=
  ⟨by
    intro wd hw h
    obtain rfl := Option.some.inj h
    rw [decode_encR]
    simp [decodeFields, decodeOp, EngineQ.code, CountClass.code, IdItem.code, CmpCond.code],
   no_command rfl⟩

theorem RoundTrip.mul (d : Reg) (a : Reg) (b : Reg) : RoundTrip.Statement (.mul d a b) :=
  ⟨by
    intro wd hw h
    obtain rfl := Option.some.inj h
    rw [decode_encR]
    simp [decodeFields, decodeOp, EngineQ.code, CountClass.code, IdItem.code, CmpCond.code],
   no_command rfl⟩

theorem RoundTrip.mulh (d : Reg) (a : Reg) (b : Reg) : RoundTrip.Statement (.mulh d a b) :=
  ⟨by
    intro wd hw h
    obtain rfl := Option.some.inj h
    rw [decode_encR]
    simp [decodeFields, decodeOp, EngineQ.code, CountClass.code, IdItem.code, CmpCond.code],
   no_command rfl⟩

theorem RoundTrip.mulhsu (d : Reg) (a : Reg) (b : Reg) : RoundTrip.Statement (.mulhsu d a b) :=
  ⟨by
    intro wd hw h
    obtain rfl := Option.some.inj h
    rw [decode_encR]
    simp [decodeFields, decodeOp, EngineQ.code, CountClass.code, IdItem.code, CmpCond.code],
   no_command rfl⟩

theorem RoundTrip.mulhu (d : Reg) (a : Reg) (b : Reg) : RoundTrip.Statement (.mulhu d a b) :=
  ⟨by
    intro wd hw h
    obtain rfl := Option.some.inj h
    rw [decode_encR]
    simp [decodeFields, decodeOp, EngineQ.code, CountClass.code, IdItem.code, CmpCond.code],
   no_command rfl⟩

theorem RoundTrip.div (d : Reg) (a : Reg) (b : Reg) : RoundTrip.Statement (.div d a b) :=
  ⟨by
    intro wd hw h
    obtain rfl := Option.some.inj h
    rw [decode_encR]
    simp [decodeFields, decodeOp, EngineQ.code, CountClass.code, IdItem.code, CmpCond.code],
   no_command rfl⟩

theorem RoundTrip.divu (d : Reg) (a : Reg) (b : Reg) : RoundTrip.Statement (.divu d a b) :=
  ⟨by
    intro wd hw h
    obtain rfl := Option.some.inj h
    rw [decode_encR]
    simp [decodeFields, decodeOp, EngineQ.code, CountClass.code, IdItem.code, CmpCond.code],
   no_command rfl⟩

theorem RoundTrip.rem (d : Reg) (a : Reg) (b : Reg) : RoundTrip.Statement (.rem d a b) :=
  ⟨by
    intro wd hw h
    obtain rfl := Option.some.inj h
    rw [decode_encR]
    simp [decodeFields, decodeOp, EngineQ.code, CountClass.code, IdItem.code, CmpCond.code],
   no_command rfl⟩

theorem RoundTrip.remu (d : Reg) (a : Reg) (b : Reg) : RoundTrip.Statement (.remu d a b) :=
  ⟨by
    intro wd hw h
    obtain rfl := Option.some.inj h
    rw [decode_encR]
    simp [decodeFields, decodeOp, EngineQ.code, CountClass.code, IdItem.code, CmpCond.code],
   no_command rfl⟩

theorem RoundTrip.addw (d : Reg) (a : Reg) (b : Reg) : RoundTrip.Statement (.addw d a b) :=
  ⟨by
    intro wd hw h
    obtain rfl := Option.some.inj h
    rw [decode_encR]
    simp [decodeFields, decodeOp32, EngineQ.code, CountClass.code, IdItem.code, CmpCond.code],
   no_command rfl⟩

theorem RoundTrip.sllw (d : Reg) (a : Reg) (b : Reg) : RoundTrip.Statement (.sllw d a b) :=
  ⟨by
    intro wd hw h
    obtain rfl := Option.some.inj h
    rw [decode_encR]
    simp [decodeFields, decodeOp32, EngineQ.code, CountClass.code, IdItem.code, CmpCond.code],
   no_command rfl⟩

theorem RoundTrip.srlw (d : Reg) (a : Reg) (b : Reg) : RoundTrip.Statement (.srlw d a b) :=
  ⟨by
    intro wd hw h
    obtain rfl := Option.some.inj h
    rw [decode_encR]
    simp [decodeFields, decodeOp32, EngineQ.code, CountClass.code, IdItem.code, CmpCond.code],
   no_command rfl⟩

theorem RoundTrip.subw (d : Reg) (a : Reg) (b : Reg) : RoundTrip.Statement (.subw d a b) :=
  ⟨by
    intro wd hw h
    obtain rfl := Option.some.inj h
    rw [decode_encR]
    simp [decodeFields, decodeOp32, EngineQ.code, CountClass.code, IdItem.code, CmpCond.code],
   no_command rfl⟩

theorem RoundTrip.sraw (d : Reg) (a : Reg) (b : Reg) : RoundTrip.Statement (.sraw d a b) :=
  ⟨by
    intro wd hw h
    obtain rfl := Option.some.inj h
    rw [decode_encR]
    simp [decodeFields, decodeOp32, EngineQ.code, CountClass.code, IdItem.code, CmpCond.code],
   no_command rfl⟩

theorem RoundTrip.mulw (d : Reg) (a : Reg) (b : Reg) : RoundTrip.Statement (.mulw d a b) :=
  ⟨by
    intro wd hw h
    obtain rfl := Option.some.inj h
    rw [decode_encR]
    simp [decodeFields, decodeOp32, EngineQ.code, CountClass.code, IdItem.code, CmpCond.code],
   no_command rfl⟩

theorem RoundTrip.divw (d : Reg) (a : Reg) (b : Reg) : RoundTrip.Statement (.divw d a b) :=
  ⟨by
    intro wd hw h
    obtain rfl := Option.some.inj h
    rw [decode_encR]
    simp [decodeFields, decodeOp32, EngineQ.code, CountClass.code, IdItem.code, CmpCond.code],
   no_command rfl⟩

theorem RoundTrip.divuw (d : Reg) (a : Reg) (b : Reg) : RoundTrip.Statement (.divuw d a b) :=
  ⟨by
    intro wd hw h
    obtain rfl := Option.some.inj h
    rw [decode_encR]
    simp [decodeFields, decodeOp32, EngineQ.code, CountClass.code, IdItem.code, CmpCond.code],
   no_command rfl⟩

theorem RoundTrip.remw (d : Reg) (a : Reg) (b : Reg) : RoundTrip.Statement (.remw d a b) :=
  ⟨by
    intro wd hw h
    obtain rfl := Option.some.inj h
    rw [decode_encR]
    simp [decodeFields, decodeOp32, EngineQ.code, CountClass.code, IdItem.code, CmpCond.code],
   no_command rfl⟩

theorem RoundTrip.remuw (d : Reg) (a : Reg) (b : Reg) : RoundTrip.Statement (.remuw d a b) :=
  ⟨by
    intro wd hw h
    obtain rfl := Option.some.inj h
    rw [decode_encR]
    simp [decodeFields, decodeOp32, EngineQ.code, CountClass.code, IdItem.code, CmpCond.code],
   no_command rfl⟩

theorem RoundTrip.fence (fm : BitVec 4) (pred : BitVec 4) (succ : BitVec 4) : RoundTrip.Statement (.fence fm pred succ) :=
  ⟨by
    intro wd hw h
    obtain rfl := Option.some.inj h
    rw [decode_encR]
    simp [decodeFields, decodeMiscMem, EngineQ.code, CountClass.code, IdItem.code, CmpCond.code],
   no_command rfl⟩

theorem RoundTrip.fenceI : RoundTrip.Statement (.fenceI) :=
  ⟨by
    intro wd hw h
    obtain rfl := Option.some.inj h
    rw [decode_encR]
    simp [decodeFields, decodeMiscMem, EngineQ.code, CountClass.code, IdItem.code, CmpCond.code],
   no_command rfl⟩

theorem RoundTrip.ecall : RoundTrip.Statement (.ecall) :=
  ⟨by
    intro wd hw h
    obtain rfl := Option.some.inj h
    rw [decode_encR]
    simp [decodeFields, decodeSystem, EngineQ.code, CountClass.code, IdItem.code, CmpCond.code],
   no_command rfl⟩

theorem RoundTrip.ebreak : RoundTrip.Statement (.ebreak) :=
  ⟨by
    intro wd hw h
    obtain rfl := Option.some.inj h
    rw [decode_encR]
    simp [decodeFields, decodeSystem, EngineQ.code, CountClass.code, IdItem.code, CmpCond.code],
   no_command rfl⟩

theorem RoundTrip.csrrw (d : Reg) (a : Reg) (csr : BitVec 12) : RoundTrip.Statement (.csrrw d a csr) :=
  ⟨by
    intro wd hw h
    obtain rfl := Option.some.inj h
    rw [decode_encR]
    simp [decodeFields, decodeSystem, EngineQ.code, CountClass.code, IdItem.code, CmpCond.code],
   no_command rfl⟩

theorem RoundTrip.csrrs (d : Reg) (a : Reg) (csr : BitVec 12) : RoundTrip.Statement (.csrrs d a csr) :=
  ⟨by
    intro wd hw h
    obtain rfl := Option.some.inj h
    rw [decode_encR]
    simp [decodeFields, decodeSystem, EngineQ.code, CountClass.code, IdItem.code, CmpCond.code],
   no_command rfl⟩

theorem RoundTrip.csrrc (d : Reg) (a : Reg) (csr : BitVec 12) : RoundTrip.Statement (.csrrc d a csr) :=
  ⟨by
    intro wd hw h
    obtain rfl := Option.some.inj h
    rw [decode_encR]
    simp [decodeFields, decodeSystem, EngineQ.code, CountClass.code, IdItem.code, CmpCond.code],
   no_command rfl⟩

theorem RoundTrip.csrrwi (d : Reg) (u : BitVec 5) (csr : BitVec 12) : RoundTrip.Statement (.csrrwi d u csr) :=
  ⟨by
    intro wd hw h
    obtain rfl := Option.some.inj h
    rw [decode_encR]
    simp [decodeFields, decodeSystem, EngineQ.code, CountClass.code, IdItem.code, CmpCond.code],
   no_command rfl⟩

theorem RoundTrip.csrrsi (d : Reg) (u : BitVec 5) (csr : BitVec 12) : RoundTrip.Statement (.csrrsi d u csr) :=
  ⟨by
    intro wd hw h
    obtain rfl := Option.some.inj h
    rw [decode_encR]
    simp [decodeFields, decodeSystem, EngineQ.code, CountClass.code, IdItem.code, CmpCond.code],
   no_command rfl⟩

theorem RoundTrip.csrrci (d : Reg) (u : BitVec 5) (csr : BitVec 12) : RoundTrip.Statement (.csrrci d u csr) :=
  ⟨by
    intro wd hw h
    obtain rfl := Option.some.inj h
    rw [decode_encR]
    simp [decodeFields, decodeSystem, EngineQ.code, CountClass.code, IdItem.code, CmpCond.code],
   no_command rfl⟩

theorem RoundTrip.wcall (off : BitVec 22) : RoundTrip.Statement (.wcall off) :=
  ⟨by
    intro wd hw h
    obtain rfl := Option.some.inj h
    rw [decode_encR]
    simp [decodeFields, decodeCustom0, EngineQ.code, CountClass.code, IdItem.code, CmpCond.code],
   no_command rfl⟩

theorem RoundTrip.wcallr (a : Reg) : RoundTrip.Statement (.wcallr a) :=
  ⟨by
    intro wd hw h
    obtain rfl := Option.some.inj h
    rw [decode_encR]
    simp [decodeFields, decodeCustom0, EngineQ.code, CountClass.code, IdItem.code, CmpCond.code],
   no_command rfl⟩

theorem RoundTrip.wret : RoundTrip.Statement (.wret) :=
  ⟨by
    intro wd hw h
    obtain rfl := Option.some.inj h
    rw [decode_encR]
    simp [decodeFields, decodeCustom0, EngineQ.code, CountClass.code, IdItem.code, CmpCond.code],
   no_command rfl⟩

theorem RoundTrip.done : RoundTrip.Statement (.done) :=
  ⟨by
    intro wd hw h
    obtain rfl := Option.some.inj h
    rw [decode_encR]
    simp [decodeFields, decodeCustom0, EngineQ.code, CountClass.code, IdItem.code, CmpCond.code],
   no_command rfl⟩

theorem RoundTrip.tretReplay : RoundTrip.Statement (.tretReplay) :=
  ⟨by
    intro wd hw h
    obtain rfl := Option.some.inj h
    rw [decode_encR]
    simp [decodeFields, decodeCustom0, EngineQ.code, CountClass.code, IdItem.code, CmpCond.code],
   no_command rfl⟩

theorem RoundTrip.tretDiscard : RoundTrip.Statement (.tretDiscard) :=
  ⟨by
    intro wd hw h
    obtain rfl := Option.some.inj h
    rw [decode_encR]
    simp [decodeFields, decodeCustom0, EngineQ.code, CountClass.code, IdItem.code, CmpCond.code],
   no_command rfl⟩

theorem RoundTrip.send (tag : BitVec 6) (ch : BitVec 6) (pl : BitVec 5) : RoundTrip.Statement (.send tag ch pl) :=
  ⟨by
    intro wd hw h
    replace hw : (pl == 0#5 || 16 <= pl.toNat) = true := hw
    obtain rfl := Option.some.inj h
    rw [decode_encR]
    try simp at hw
    simp [decodeFields, decodeCustom0, EngineQ.code, CountClass.code, IdItem.code, CmpCond.code, hw],
   no_command rfl⟩

theorem RoundTrip.sendi (tag : BitVec 6) (ch : BitVec 6) (pl : BitVec 5) : RoundTrip.Statement (.sendi tag ch pl) :=
  ⟨by
    intro wd hw h
    replace hw : (pl == 0#5 || 16 <= pl.toNat) = true := hw
    obtain rfl := Option.some.inj h
    rw [decode_encR]
    try simp at hw
    simp [decodeFields, decodeCustom0, EngineQ.code, CountClass.code, IdItem.code, CmpCond.code, hw],
   no_command rfl⟩

theorem RoundTrip.sendm (ch : BitVec 6) : RoundTrip.Statement (.sendm ch) :=
  ⟨by
    intro wd hw h
    obtain rfl := Option.some.inj h
    rw [decode_encR]
    simp [decodeFields, decodeCustom0, EngineQ.code, CountClass.code, IdItem.code, CmpCond.code],
   no_command rfl⟩

theorem RoundTrip.tagopEnSet (d : Reg) (tag : BitVec 6) : RoundTrip.Statement (.tagopEnSet d tag) :=
  ⟨by
    intro wd hw h
    obtain rfl := Option.some.inj h
    rw [decode_encR]
    simp [decodeFields, decodeCustom0, EngineQ.code, CountClass.code, IdItem.code, CmpCond.code],
   no_command rfl⟩

theorem RoundTrip.tagopEnClr (d : Reg) (tag : BitVec 6) : RoundTrip.Statement (.tagopEnClr d tag) :=
  ⟨by
    intro wd hw h
    obtain rfl := Option.some.inj h
    rw [decode_encR]
    simp [decodeFields, decodeCustom0, EngineQ.code, CountClass.code, IdItem.code, CmpCond.code],
   no_command rfl⟩

theorem RoundTrip.tagopPdSet (d : Reg) (tag : BitVec 6) : RoundTrip.Statement (.tagopPdSet d tag) :=
  ⟨by
    intro wd hw h
    obtain rfl := Option.some.inj h
    rw [decode_encR]
    simp [decodeFields, decodeCustom0, EngineQ.code, CountClass.code, IdItem.code, CmpCond.code],
   no_command rfl⟩

theorem RoundTrip.tagopPdClr (d : Reg) (tag : BitVec 6) : RoundTrip.Statement (.tagopPdClr d tag) :=
  ⟨by
    intro wd hw h
    obtain rfl := Option.some.inj h
    rw [decode_encR]
    simp [decodeFields, decodeCustom0, EngineQ.code, CountClass.code, IdItem.code, CmpCond.code],
   no_command rfl⟩

theorem RoundTrip.tagopEnSetMask (d : Reg) (a : Reg) : RoundTrip.Statement (.tagopEnSetMask d a) :=
  ⟨by
    intro wd hw h
    obtain rfl := Option.some.inj h
    rw [decode_encR]
    simp [decodeFields, decodeCustom0, EngineQ.code, CountClass.code, IdItem.code, CmpCond.code],
   no_command rfl⟩

theorem RoundTrip.tagopEnClrMask (d : Reg) (a : Reg) : RoundTrip.Statement (.tagopEnClrMask d a) :=
  ⟨by
    intro wd hw h
    obtain rfl := Option.some.inj h
    rw [decode_encR]
    simp [decodeFields, decodeCustom0, EngineQ.code, CountClass.code, IdItem.code, CmpCond.code],
   no_command rfl⟩

theorem RoundTrip.tagopPdSetMask (d : Reg) (a : Reg) : RoundTrip.Statement (.tagopPdSetMask d a) :=
  ⟨by
    intro wd hw h
    obtain rfl := Option.some.inj h
    rw [decode_encR]
    simp [decodeFields, decodeCustom0, EngineQ.code, CountClass.code, IdItem.code, CmpCond.code],
   no_command rfl⟩

theorem RoundTrip.tagopPdClrMask (d : Reg) (a : Reg) : RoundTrip.Statement (.tagopPdClrMask d a) :=
  ⟨by
    intro wd hw h
    obtain rfl := Option.some.inj h
    rw [decode_encR]
    simp [decodeFields, decodeCustom0, EngineQ.code, CountClass.code, IdItem.code, CmpCond.code],
   no_command rfl⟩

theorem RoundTrip.waitc (sy : BitVec 4) (mx : BitVec 4) (cp : BitVec 4) (st : BitVec 4) (ld : BitVec 4) : RoundTrip.Statement (.waitc sy mx cp st ld) :=
  ⟨by
    intro wd hw h
    obtain rfl := Option.some.inj h
    rw [decode_encR]
    simp [decodeFields, decodeCustom0, EngineQ.code, CountClass.code, IdItem.code, CmpCond.code],
   no_command rfl⟩

theorem RoundTrip.enq (a : Reg) (q : EngineQ) : RoundTrip.Statement (.enq a q) :=
  ⟨by
    intro wd hw h
    obtain rfl := Option.some.inj h
    rw [decode_encR]
    cases q <;>
    simp [decodeFields, decodeCustom0, EngineQ.code, CountClass.code, IdItem.code, CmpCond.code],
   no_command rfl⟩

theorem RoundTrip.enqm (a : Reg) (q : EngineQ) : RoundTrip.Statement (.enqm a q) :=
  ⟨by
    intro wd hw h
    obtain rfl := Option.some.inj h
    rw [decode_encR]
    cases q <;>
    simp [decodeFields, decodeCustom0, EngineQ.code, CountClass.code, IdItem.code, CmpCond.code],
   no_command rfl⟩

theorem RoundTrip.sbind (n : BitVec 3) (a : Reg) : RoundTrip.Statement (.sbind n a) :=
  ⟨by
    intro wd hw h
    obtain rfl := Option.some.inj h
    rw [decode_encR]
    simp [decodeFields, decodeCustom0, EngineQ.code, CountClass.code, IdItem.code, CmpCond.code],
   no_command rfl⟩

theorem RoundTrip.sunbind (n : BitVec 3) : RoundTrip.Statement (.sunbind n) :=
  ⟨by
    intro wd hw h
    obtain rfl := Option.some.inj h
    rw [decode_encR]
    simp [decodeFields, decodeCustom0, EngineQ.code, CountClass.code, IdItem.code, CmpCond.code],
   no_command rfl⟩

theorem RoundTrip.trctlStatus (d : Reg) : RoundTrip.Statement (.trctlStatus d) :=
  ⟨by
    intro wd hw h
    obtain rfl := Option.some.inj h
    rw [decode_encR]
    simp [decodeFields, decodeCustom0, EngineQ.code, CountClass.code, IdItem.code, CmpCond.code],
   no_command rfl⟩

theorem RoundTrip.trctlMarkr (a : Reg) : RoundTrip.Statement (.trctlMarkr a) :=
  ⟨by
    intro wd hw h
    obtain rfl := Option.some.inj h
    rw [decode_encR]
    simp [decodeFields, decodeCustom0, EngineQ.code, CountClass.code, IdItem.code, CmpCond.code],
   no_command rfl⟩

theorem RoundTrip.trctlMarkw (a : Reg) : RoundTrip.Statement (.trctlMarkw a) :=
  ⟨by
    intro wd hw h
    obtain rfl := Option.some.inj h
    rw [decode_encR]
    simp [decodeFields, decodeCustom0, EngineQ.code, CountClass.code, IdItem.code, CmpCond.code],
   no_command rfl⟩

theorem RoundTrip.trctlSat : RoundTrip.Statement (.trctlSat) :=
  ⟨by
    intro wd hw h
    obtain rfl := Option.some.inj h
    rw [decode_encR]
    simp [decodeFields, decodeCustom0, EngineQ.code, CountClass.code, IdItem.code, CmpCond.code],
   no_command rfl⟩

theorem RoundTrip.trctlFlush : RoundTrip.Statement (.trctlFlush) :=
  ⟨by
    intro wd hw h
    obtain rfl := Option.some.inj h
    rw [decode_encR]
    simp [decodeFields, decodeCustom0, EngineQ.code, CountClass.code, IdItem.code, CmpCond.code],
   no_command rfl⟩

theorem RoundTrip.pair (west : Bool) : RoundTrip.Statement (.pair west) :=
  ⟨by
    intro wd hw h
    obtain rfl := Option.some.inj h
    rw [decode_encR]
    cases west <;>
    simp [decodeFields, decodeCustom0, EngineQ.code, CountClass.code, IdItem.code, CmpCond.code],
   no_command rfl⟩

theorem RoundTrip.unpair : RoundTrip.Statement (.unpair) :=
  ⟨by
    intro wd hw h
    obtain rfl := Option.some.inj h
    rw [decode_encR]
    simp [decodeFields, decodeCustom0, EngineQ.code, CountClass.code, IdItem.code, CmpCond.code],
   no_command rfl⟩

theorem RoundTrip.migrateCtx (a : Reg) : RoundTrip.Statement (.migrateCtx a) :=
  ⟨by
    intro wd hw h
    obtain rfl := Option.some.inj h
    rw [decode_encR]
    simp [decodeFields, decodeCustom0, EngineQ.code, CountClass.code, IdItem.code, CmpCond.code],
   no_command rfl⟩

theorem RoundTrip.migrateFull (a : Reg) : RoundTrip.Statement (.migrateFull a) :=
  ⟨by
    intro wd hw h
    obtain rfl := Option.some.inj h
    rw [decode_encR]
    simp [decodeFields, decodeCustom0, EngineQ.code, CountClass.code, IdItem.code, CmpCond.code],
   no_command rfl⟩

theorem RoundTrip.rdcnt (d : Reg) (c : CountClass) : RoundTrip.Statement (.rdcnt d c) :=
  ⟨by
    intro wd hw h
    obtain rfl := Option.some.inj h
    rw [decode_encR]
    cases c <;>
    simp [decodeFields, decodeCustom0, EngineQ.code, CountClass.code, IdItem.code, CmpCond.code],
   no_command rfl⟩

theorem RoundTrip.rdqf (d : Reg) (q : EngineQ) : RoundTrip.Statement (.rdqf d q) :=
  ⟨by
    intro wd hw h
    obtain rfl := Option.some.inj h
    rw [decode_encR]
    cases q <;>
    simp [decodeFields, decodeCustom0, EngineQ.code, CountClass.code, IdItem.code, CmpCond.code],
   no_command rfl⟩

theorem RoundTrip.rdstrm (d : Reg) (n : BitVec 3) : RoundTrip.Statement (.rdstrm d n) :=
  ⟨by
    intro wd hw h
    obtain rfl := Option.some.inj h
    rw [decode_encR]
    simp [decodeFields, decodeCustom0, EngineQ.code, CountClass.code, IdItem.code, CmpCond.code],
   no_command rfl⟩

theorem RoundTrip.rdid (d : Reg) (item : IdItem) : RoundTrip.Statement (.rdid d item) :=
  ⟨by
    intro wd hw h
    obtain rfl := Option.some.inj h
    rw [decode_encR]
    cases item <;>
    simp [decodeFields, decodeCustom0, EngineQ.code, CountClass.code, IdItem.code, CmpCond.code],
   no_command rfl⟩

theorem RoundTrip.ldp (d : Reg) (a : Reg) (p : Reg) (imm : BitVec 6) : RoundTrip.Statement (.ldp d a p imm) :=
  ⟨by
    intro wd hw h
    obtain rfl := Option.some.inj h
    rw [decode_encR]
    simp [decodeFields, decodeCustom1, EngineQ.code, CountClass.code, IdItem.code, CmpCond.code],
   no_command rfl⟩

theorem RoundTrip.stp (d : Reg) (a : Reg) (p : Reg) (imm : BitVec 6) : RoundTrip.Statement (.stp d a p imm) :=
  ⟨by
    intro wd hw h
    obtain rfl := Option.some.inj h
    rw [decode_encR]
    simp [decodeFields, decodeCustom1, EngineQ.code, CountClass.code, IdItem.code, CmpCond.code],
   no_command rfl⟩

theorem RoundTrip.ldacq (d : Reg) (a : Reg) (w : Bool) (g : BitVec 8) : RoundTrip.Statement (.ldacq d a w g) :=
  ⟨by
    intro wd hw h
    obtain rfl := Option.some.inj h
    rw [decode_encR]
    cases w <;>
    simp [decodeFields, decodeCustom1, EngineQ.code, CountClass.code, IdItem.code, CmpCond.code],
   no_command rfl⟩

theorem RoundTrip.strel (d : Reg) (a : Reg) (w : Bool) (g : BitVec 8) : RoundTrip.Statement (.strel d a w g) :=
  ⟨by
    intro wd hw h
    obtain rfl := Option.some.inj h
    rw [decode_encR]
    cases w <;>
    simp [decodeFields, decodeCustom1, EngineQ.code, CountClass.code, IdItem.code, CmpCond.code],
   no_command rfl⟩

theorem RoundTrip.amoAdd (d : Reg) (a : Reg) (b : Reg) (w : Bool) (aq : Bool) (rl : Bool) : RoundTrip.Statement (.amoAdd d a b w aq rl) :=
  ⟨by
    intro wd hw h
    obtain rfl := Option.some.inj h
    rw [decode_encR]
    cases w <;>
    cases aq <;>
    cases rl <;>
    simp [decodeFields, decodeCustom1, EngineQ.code, CountClass.code, IdItem.code, CmpCond.code],
   no_command rfl⟩

theorem RoundTrip.amoAnd (d : Reg) (a : Reg) (b : Reg) (w : Bool) (aq : Bool) (rl : Bool) : RoundTrip.Statement (.amoAnd d a b w aq rl) :=
  ⟨by
    intro wd hw h
    obtain rfl := Option.some.inj h
    rw [decode_encR]
    cases w <;>
    cases aq <;>
    cases rl <;>
    simp [decodeFields, decodeCustom1, EngineQ.code, CountClass.code, IdItem.code, CmpCond.code],
   no_command rfl⟩

theorem RoundTrip.amoOr (d : Reg) (a : Reg) (b : Reg) (w : Bool) (aq : Bool) (rl : Bool) : RoundTrip.Statement (.amoOr d a b w aq rl) :=
  ⟨by
    intro wd hw h
    obtain rfl := Option.some.inj h
    rw [decode_encR]
    cases w <;>
    cases aq <;>
    cases rl <;>
    simp [decodeFields, decodeCustom1, EngineQ.code, CountClass.code, IdItem.code, CmpCond.code],
   no_command rfl⟩

theorem RoundTrip.amoXor (d : Reg) (a : Reg) (b : Reg) (w : Bool) (aq : Bool) (rl : Bool) : RoundTrip.Statement (.amoXor d a b w aq rl) :=
  ⟨by
    intro wd hw h
    obtain rfl := Option.some.inj h
    rw [decode_encR]
    cases w <;>
    cases aq <;>
    cases rl <;>
    simp [decodeFields, decodeCustom1, EngineQ.code, CountClass.code, IdItem.code, CmpCond.code],
   no_command rfl⟩

theorem RoundTrip.amoMin (d : Reg) (a : Reg) (b : Reg) (w : Bool) (aq : Bool) (rl : Bool) : RoundTrip.Statement (.amoMin d a b w aq rl) :=
  ⟨by
    intro wd hw h
    obtain rfl := Option.some.inj h
    rw [decode_encR]
    cases w <;>
    cases aq <;>
    cases rl <;>
    simp [decodeFields, decodeCustom1, EngineQ.code, CountClass.code, IdItem.code, CmpCond.code],
   no_command rfl⟩

theorem RoundTrip.amoMax (d : Reg) (a : Reg) (b : Reg) (w : Bool) (aq : Bool) (rl : Bool) : RoundTrip.Statement (.amoMax d a b w aq rl) :=
  ⟨by
    intro wd hw h
    obtain rfl := Option.some.inj h
    rw [decode_encR]
    cases w <;>
    cases aq <;>
    cases rl <;>
    simp [decodeFields, decodeCustom1, EngineQ.code, CountClass.code, IdItem.code, CmpCond.code],
   no_command rfl⟩

theorem RoundTrip.amoMinu (d : Reg) (a : Reg) (b : Reg) (w : Bool) (aq : Bool) (rl : Bool) : RoundTrip.Statement (.amoMinu d a b w aq rl) :=
  ⟨by
    intro wd hw h
    obtain rfl := Option.some.inj h
    rw [decode_encR]
    cases w <;>
    cases aq <;>
    cases rl <;>
    simp [decodeFields, decodeCustom1, EngineQ.code, CountClass.code, IdItem.code, CmpCond.code],
   no_command rfl⟩

theorem RoundTrip.amoMaxu (d : Reg) (a : Reg) (b : Reg) (w : Bool) (aq : Bool) (rl : Bool) : RoundTrip.Statement (.amoMaxu d a b w aq rl) :=
  ⟨by
    intro wd hw h
    obtain rfl := Option.some.inj h
    rw [decode_encR]
    cases w <;>
    cases aq <;>
    cases rl <;>
    simp [decodeFields, decodeCustom1, EngineQ.code, CountClass.code, IdItem.code, CmpCond.code],
   no_command rfl⟩

theorem RoundTrip.amoSwap (d : Reg) (a : Reg) (b : Reg) (w : Bool) (aq : Bool) (rl : Bool) : RoundTrip.Statement (.amoSwap d a b w aq rl) :=
  ⟨by
    intro wd hw h
    obtain rfl := Option.some.inj h
    rw [decode_encR]
    cases w <;>
    cases aq <;>
    cases rl <;>
    simp [decodeFields, decodeCustom1, EngineQ.code, CountClass.code, IdItem.code, CmpCond.code],
   no_command rfl⟩

theorem RoundTrip.amoFadd (d : Reg) (a : Reg) (b : Reg) (aq : Bool) (rl : Bool) : RoundTrip.Statement (.amoFadd d a b aq rl) :=
  ⟨by
    intro wd hw h
    obtain rfl := Option.some.inj h
    rw [decode_encR]
    cases aq <;>
    cases rl <;>
    simp [decodeFields, decodeCustom1, EngineQ.code, CountClass.code, IdItem.code, CmpCond.code],
   no_command rfl⟩

theorem RoundTrip.amoAddPeer (d : Reg) (a : Reg) (p : Reg) (w : Bool) (aq : Bool) (rl : Bool) : RoundTrip.Statement (.amoAddPeer d a p w aq rl) :=
  ⟨by
    intro wd hw h
    obtain rfl := Option.some.inj h
    rw [decode_encR]
    cases w <;>
    cases aq <;>
    cases rl <;>
    simp [decodeFields, decodeCustom1, EngineQ.code, CountClass.code, IdItem.code, CmpCond.code],
   no_command rfl⟩

theorem RoundTrip.amoAndPeer (d : Reg) (a : Reg) (p : Reg) (w : Bool) (aq : Bool) (rl : Bool) : RoundTrip.Statement (.amoAndPeer d a p w aq rl) :=
  ⟨by
    intro wd hw h
    obtain rfl := Option.some.inj h
    rw [decode_encR]
    cases w <;>
    cases aq <;>
    cases rl <;>
    simp [decodeFields, decodeCustom1, EngineQ.code, CountClass.code, IdItem.code, CmpCond.code],
   no_command rfl⟩

theorem RoundTrip.amoOrPeer (d : Reg) (a : Reg) (p : Reg) (w : Bool) (aq : Bool) (rl : Bool) : RoundTrip.Statement (.amoOrPeer d a p w aq rl) :=
  ⟨by
    intro wd hw h
    obtain rfl := Option.some.inj h
    rw [decode_encR]
    cases w <;>
    cases aq <;>
    cases rl <;>
    simp [decodeFields, decodeCustom1, EngineQ.code, CountClass.code, IdItem.code, CmpCond.code],
   no_command rfl⟩

theorem RoundTrip.amoXorPeer (d : Reg) (a : Reg) (p : Reg) (w : Bool) (aq : Bool) (rl : Bool) : RoundTrip.Statement (.amoXorPeer d a p w aq rl) :=
  ⟨by
    intro wd hw h
    obtain rfl := Option.some.inj h
    rw [decode_encR]
    cases w <;>
    cases aq <;>
    cases rl <;>
    simp [decodeFields, decodeCustom1, EngineQ.code, CountClass.code, IdItem.code, CmpCond.code],
   no_command rfl⟩

theorem RoundTrip.amoMinPeer (d : Reg) (a : Reg) (p : Reg) (w : Bool) (aq : Bool) (rl : Bool) : RoundTrip.Statement (.amoMinPeer d a p w aq rl) :=
  ⟨by
    intro wd hw h
    obtain rfl := Option.some.inj h
    rw [decode_encR]
    cases w <;>
    cases aq <;>
    cases rl <;>
    simp [decodeFields, decodeCustom1, EngineQ.code, CountClass.code, IdItem.code, CmpCond.code],
   no_command rfl⟩

theorem RoundTrip.amoMaxPeer (d : Reg) (a : Reg) (p : Reg) (w : Bool) (aq : Bool) (rl : Bool) : RoundTrip.Statement (.amoMaxPeer d a p w aq rl) :=
  ⟨by
    intro wd hw h
    obtain rfl := Option.some.inj h
    rw [decode_encR]
    cases w <;>
    cases aq <;>
    cases rl <;>
    simp [decodeFields, decodeCustom1, EngineQ.code, CountClass.code, IdItem.code, CmpCond.code],
   no_command rfl⟩

theorem RoundTrip.amoMinuPeer (d : Reg) (a : Reg) (p : Reg) (w : Bool) (aq : Bool) (rl : Bool) : RoundTrip.Statement (.amoMinuPeer d a p w aq rl) :=
  ⟨by
    intro wd hw h
    obtain rfl := Option.some.inj h
    rw [decode_encR]
    cases w <;>
    cases aq <;>
    cases rl <;>
    simp [decodeFields, decodeCustom1, EngineQ.code, CountClass.code, IdItem.code, CmpCond.code],
   no_command rfl⟩

theorem RoundTrip.amoMaxuPeer (d : Reg) (a : Reg) (p : Reg) (w : Bool) (aq : Bool) (rl : Bool) : RoundTrip.Statement (.amoMaxuPeer d a p w aq rl) :=
  ⟨by
    intro wd hw h
    obtain rfl := Option.some.inj h
    rw [decode_encR]
    cases w <;>
    cases aq <;>
    cases rl <;>
    simp [decodeFields, decodeCustom1, EngineQ.code, CountClass.code, IdItem.code, CmpCond.code],
   no_command rfl⟩

theorem RoundTrip.amoSwapPeer (d : Reg) (a : Reg) (p : Reg) (w : Bool) (aq : Bool) (rl : Bool) : RoundTrip.Statement (.amoSwapPeer d a p w aq rl) :=
  ⟨by
    intro wd hw h
    obtain rfl := Option.some.inj h
    rw [decode_encR]
    cases w <;>
    cases aq <;>
    cases rl <;>
    simp [decodeFields, decodeCustom1, EngineQ.code, CountClass.code, IdItem.code, CmpCond.code],
   no_command rfl⟩

theorem RoundTrip.amoFaddPeer (d : Reg) (a : Reg) (p : Reg) (aq : Bool) (rl : Bool) : RoundTrip.Statement (.amoFaddPeer d a p aq rl) :=
  ⟨by
    intro wd hw h
    obtain rfl := Option.some.inj h
    rw [decode_encR]
    cases aq <;>
    cases rl <;>
    simp [decodeFields, decodeCustom1, EngineQ.code, CountClass.code, IdItem.code, CmpCond.code],
   no_command rfl⟩

theorem RoundTrip.cas (d : Reg) (a : Reg) (b : Reg) (w : Bool) (aq : Bool) (rl : Bool) : RoundTrip.Statement (.cas d a b w aq rl) :=
  ⟨by
    intro wd hw h
    obtain rfl := Option.some.inj h
    rw [decode_encR]
    cases w <;>
    cases aq <;>
    cases rl <;>
    simp [decodeFields, decodeCustom1, EngineQ.code, CountClass.code, IdItem.code, CmpCond.code],
   no_command rfl⟩

theorem RoundTrip.push (d : Reg) (a : Reg) (v : Bool) (win : BitVec 8) : RoundTrip.Statement (.push d a v win) :=
  ⟨by
    intro wd hw h
    obtain rfl := Option.some.inj h
    rw [decode_encR]
    cases v <;>
    simp [decodeFields, decodeCustom1, EngineQ.code, CountClass.code, IdItem.code, CmpCond.code],
   no_command rfl⟩

theorem RoundTrip.pop (d : Reg) (a : Reg) (v : Bool) (win : BitVec 8) : RoundTrip.Statement (.pop d a v win) :=
  ⟨by
    intro wd hw h
    obtain rfl := Option.some.inj h
    rw [decode_encR]
    cases v <;>
    simp [decodeFields, decodeCustom1, EngineQ.code, CountClass.code, IdItem.code, CmpCond.code],
   no_command rfl⟩

theorem RoundTrip.popw (d : Reg) (a : Reg) (v : Bool) (win : BitVec 8) : RoundTrip.Statement (.popw d a v win) :=
  ⟨by
    intro wd hw h
    obtain rfl := Option.some.inj h
    rw [decode_encR]
    cases v <;>
    simp [decodeFields, decodeCustom1, EngineQ.code, CountClass.code, IdItem.code, CmpCond.code],
   no_command rfl⟩

theorem RoundTrip.objinit (a : Reg) (b : Reg) : RoundTrip.Statement (.objinit a b) :=
  ⟨by
    intro wd hw h
    obtain rfl := Option.some.inj h
    rw [decode_encR]
    simp [decodeFields, decodeCustom1, EngineQ.code, CountClass.code, IdItem.code, CmpCond.code],
   no_command rfl⟩

theorem RoundTrip.barinit (a : Reg) (b : Reg) : RoundTrip.Statement (.barinit a b) :=
  ⟨by
    intro wd hw h
    obtain rfl := Option.some.inj h
    rw [decode_encR]
    simp [decodeFields, decodeCustom1, EngineQ.code, CountClass.code, IdItem.code, CmpCond.code],
   no_command rfl⟩

theorem RoundTrip.bararr (a : Reg) : RoundTrip.Statement (.bararr a) :=
  ⟨by
    intro wd hw h
    obtain rfl := Option.some.inj h
    rw [decode_encR]
    simp [decodeFields, decodeCustom1, EngineQ.code, CountClass.code, IdItem.code, CmpCond.code],
   no_command rfl⟩

theorem RoundTrip.barwait (d : Reg) (a : Reg) : RoundTrip.Statement (.barwait d a) :=
  ⟨by
    intro wd hw h
    obtain rfl := Option.some.inj h
    rw [decode_encR]
    simp [decodeFields, decodeCustom1, EngineQ.code, CountClass.code, IdItem.code, CmpCond.code],
   no_command rfl⟩

theorem RoundTrip.decz (a : Reg) (b : Reg) : RoundTrip.Statement (.decz a b) :=
  ⟨by
    intro wd hw h
    obtain rfl := Option.some.inj h
    rw [decode_encR]
    simp [decodeFields, decodeCustom1, EngineQ.code, CountClass.code, IdItem.code, CmpCond.code],
   no_command rfl⟩

theorem RoundTrip.phase (mask : BitVec 3) (g : BitVec 8) : RoundTrip.Statement (.phase mask g) :=
  ⟨by
    intro wd hw h
    obtain rfl := Option.some.inj h
    rw [decode_encR]
    simp [decodeFields, decodeCustom1, EngineQ.code, CountClass.code, IdItem.code, CmpCond.code],
   no_command rfl⟩

theorem RoundTrip.rtset (a : Reg) (b : Reg) : RoundTrip.Statement (.rtset a b) :=
  ⟨by
    intro wd hw h
    obtain rfl := Option.some.inj h
    rw [decode_encR]
    simp [decodeFields, decodeCustom1, EngineQ.code, CountClass.code, IdItem.code, CmpCond.code],
   no_command rfl⟩

theorem RoundTrip.rtinv (a : Reg) : RoundTrip.Statement (.rtinv a) :=
  ⟨by
    intro wd hw h
    obtain rfl := Option.some.inj h
    rw [decode_encR]
    simp [decodeFields, decodeCustom1, EngineQ.code, CountClass.code, IdItem.code, CmpCond.code],
   no_command rfl⟩

theorem RoundTrip.rtinvAll : RoundTrip.Statement (.rtinvAll) :=
  ⟨by
    intro wd hw h
    obtain rfl := Option.some.inj h
    rw [decode_encR]
    simp [decodeFields, decodeCustom1, EngineQ.code, CountClass.code, IdItem.code, CmpCond.code],
   no_command rfl⟩

theorem RoundTrip.rtbind (a : Reg) (b : Reg) : RoundTrip.Statement (.rtbind a b) :=
  ⟨by
    intro wd hw h
    obtain rfl := Option.some.inj h
    rw [decode_encR]
    simp [decodeFields, decodeCustom1, EngineQ.code, CountClass.code, IdItem.code, CmpCond.code],
   no_command rfl⟩

theorem RoundTrip.vadd (et : ElemTy) (d : Reg) (a : Reg) (b : Reg) (k : BitVec 3) : RoundTrip.Statement (.vadd et d a b k) :=
  ⟨by
    intro wd hw h
    obtain rfl := Option.some.inj h
    rw [decode_encR]
    simp [decodeFields, decodeCustom2, EngineQ.code, CountClass.code, IdItem.code, CmpCond.code],
   no_command rfl⟩

theorem RoundTrip.vsub (et : ElemTy) (d : Reg) (a : Reg) (b : Reg) (k : BitVec 3) : RoundTrip.Statement (.vsub et d a b k) :=
  ⟨by
    intro wd hw h
    obtain rfl := Option.some.inj h
    rw [decode_encR]
    simp [decodeFields, decodeCustom2, EngineQ.code, CountClass.code, IdItem.code, CmpCond.code],
   no_command rfl⟩

theorem RoundTrip.vmul (et : ElemTy) (d : Reg) (a : Reg) (b : Reg) (k : BitVec 3) : RoundTrip.Statement (.vmul et d a b k) :=
  ⟨by
    intro wd hw h
    obtain rfl := Option.some.inj h
    rw [decode_encR]
    simp [decodeFields, decodeCustom2, EngineQ.code, CountClass.code, IdItem.code, CmpCond.code],
   no_command rfl⟩

theorem RoundTrip.vfma (et : ElemTy) (d : Reg) (a : Reg) (b : Reg) (k : BitVec 3) : RoundTrip.Statement (.vfma et d a b k) :=
  ⟨by
    intro wd hw h
    replace hw : (et.isFp) = true := hw
    obtain rfl := Option.some.inj h
    rw [decode_encR]
    try simp at hw
    simp [decodeFields, decodeCustom2, EngineQ.code, CountClass.code, IdItem.code, CmpCond.code, hw],
   no_command rfl⟩

theorem RoundTrip.vfms (et : ElemTy) (d : Reg) (a : Reg) (b : Reg) (k : BitVec 3) : RoundTrip.Statement (.vfms et d a b k) :=
  ⟨by
    intro wd hw h
    replace hw : (et.isFp) = true := hw
    obtain rfl := Option.some.inj h
    rw [decode_encR]
    try simp at hw
    simp [decodeFields, decodeCustom2, EngineQ.code, CountClass.code, IdItem.code, CmpCond.code, hw],
   no_command rfl⟩

theorem RoundTrip.vfnma (et : ElemTy) (d : Reg) (a : Reg) (b : Reg) (k : BitVec 3) : RoundTrip.Statement (.vfnma et d a b k) :=
  ⟨by
    intro wd hw h
    replace hw : (et.isFp) = true := hw
    obtain rfl := Option.some.inj h
    rw [decode_encR]
    try simp at hw
    simp [decodeFields, decodeCustom2, EngineQ.code, CountClass.code, IdItem.code, CmpCond.code, hw],
   no_command rfl⟩

theorem RoundTrip.vmin (et : ElemTy) (d : Reg) (a : Reg) (b : Reg) (k : BitVec 3) : RoundTrip.Statement (.vmin et d a b k) :=
  ⟨by
    intro wd hw h
    obtain rfl := Option.some.inj h
    rw [decode_encR]
    simp [decodeFields, decodeCustom2, EngineQ.code, CountClass.code, IdItem.code, CmpCond.code],
   no_command rfl⟩

theorem RoundTrip.vmax (et : ElemTy) (d : Reg) (a : Reg) (b : Reg) (k : BitVec 3) : RoundTrip.Statement (.vmax et d a b k) :=
  ⟨by
    intro wd hw h
    obtain rfl := Option.some.inj h
    rw [decode_encR]
    simp [decodeFields, decodeCustom2, EngineQ.code, CountClass.code, IdItem.code, CmpCond.code],
   no_command rfl⟩

theorem RoundTrip.vand (et : ElemTy) (d : Reg) (a : Reg) (b : Reg) (k : BitVec 3) : RoundTrip.Statement (.vand et d a b k) :=
  ⟨by
    intro wd hw h
    replace hw : (!et.isFp) = true := hw
    obtain rfl := Option.some.inj h
    rw [decode_encR]
    try simp at hw
    simp [decodeFields, decodeCustom2, EngineQ.code, CountClass.code, IdItem.code, CmpCond.code, hw],
   no_command rfl⟩

theorem RoundTrip.vor (et : ElemTy) (d : Reg) (a : Reg) (b : Reg) (k : BitVec 3) : RoundTrip.Statement (.vor et d a b k) :=
  ⟨by
    intro wd hw h
    replace hw : (!et.isFp) = true := hw
    obtain rfl := Option.some.inj h
    rw [decode_encR]
    try simp at hw
    simp [decodeFields, decodeCustom2, EngineQ.code, CountClass.code, IdItem.code, CmpCond.code, hw],
   no_command rfl⟩

theorem RoundTrip.vxor (et : ElemTy) (d : Reg) (a : Reg) (b : Reg) (k : BitVec 3) : RoundTrip.Statement (.vxor et d a b k) :=
  ⟨by
    intro wd hw h
    replace hw : (!et.isFp) = true := hw
    obtain rfl := Option.some.inj h
    rw [decode_encR]
    try simp at hw
    simp [decodeFields, decodeCustom2, EngineQ.code, CountClass.code, IdItem.code, CmpCond.code, hw],
   no_command rfl⟩

theorem RoundTrip.vshl (et : ElemTy) (d : Reg) (a : Reg) (b : Reg) (k : BitVec 3) : RoundTrip.Statement (.vshl et d a b k) :=
  ⟨by
    intro wd hw h
    replace hw : (!et.isFp) = true := hw
    obtain rfl := Option.some.inj h
    rw [decode_encR]
    try simp at hw
    simp [decodeFields, decodeCustom2, EngineQ.code, CountClass.code, IdItem.code, CmpCond.code, hw],
   no_command rfl⟩

theorem RoundTrip.vshr (et : ElemTy) (d : Reg) (a : Reg) (b : Reg) (k : BitVec 3) : RoundTrip.Statement (.vshr et d a b k) :=
  ⟨by
    intro wd hw h
    replace hw : (!et.isFp) = true := hw
    obtain rfl := Option.some.inj h
    rw [decode_encR]
    try simp at hw
    simp [decodeFields, decodeCustom2, EngineQ.code, CountClass.code, IdItem.code, CmpCond.code, hw],
   no_command rfl⟩

theorem RoundTrip.vsra (et : ElemTy) (d : Reg) (a : Reg) (b : Reg) (k : BitVec 3) : RoundTrip.Statement (.vsra et d a b k) :=
  ⟨by
    intro wd hw h
    replace hw : (!et.isFp) = true := hw
    obtain rfl := Option.some.inj h
    rw [decode_encR]
    try simp at hw
    simp [decodeFields, decodeCustom2, EngineQ.code, CountClass.code, IdItem.code, CmpCond.code, hw],
   no_command rfl⟩

theorem RoundTrip.vcmp (c : CmpCond) (et : ElemTy) (kd : BitVec 3) (a : Reg) (b : Reg) (k : BitVec 3) : RoundTrip.Statement (.vcmp c et kd a b k) :=
  ⟨by
    intro wd hw h
    replace hw : (kd != 0#3) = true := hw
    obtain rfl := Option.some.inj h
    rw [decode_encR]
    try simp at hw
    cases c <;>
    simp [decodeFields, decodeCustom2, EngineQ.code, CountClass.code, IdItem.code, CmpCond.code, hw],
   no_command rfl⟩

theorem RoundTrip.vabs (et : ElemTy) (d : Reg) (a : Reg) (k : BitVec 3) : RoundTrip.Statement (.vabs et d a k) :=
  ⟨by
    intro wd hw h
    obtain rfl := Option.some.inj h
    rw [decode_encR]
    simp [decodeFields, decodeCustom2, EngineQ.code, CountClass.code, IdItem.code, CmpCond.code],
   no_command rfl⟩

theorem RoundTrip.vneg (et : ElemTy) (d : Reg) (a : Reg) (k : BitVec 3) : RoundTrip.Statement (.vneg et d a k) :=
  ⟨by
    intro wd hw h
    obtain rfl := Option.some.inj h
    rw [decode_encR]
    simp [decodeFields, decodeCustom2, EngineQ.code, CountClass.code, IdItem.code, CmpCond.code],
   no_command rfl⟩

theorem RoundTrip.vrcp (et : ElemTy) (d : Reg) (a : Reg) (k : BitVec 3) : RoundTrip.Statement (.vrcp et d a k) :=
  ⟨by
    intro wd hw h
    replace hw : (et.isFp) = true := hw
    obtain rfl := Option.some.inj h
    rw [decode_encR]
    try simp at hw
    simp [decodeFields, decodeCustom2, EngineQ.code, CountClass.code, IdItem.code, CmpCond.code, hw],
   no_command rfl⟩

theorem RoundTrip.vsqrt (et : ElemTy) (d : Reg) (a : Reg) (k : BitVec 3) : RoundTrip.Statement (.vsqrt et d a k) :=
  ⟨by
    intro wd hw h
    replace hw : (et.isFp) = true := hw
    obtain rfl := Option.some.inj h
    rw [decode_encR]
    try simp at hw
    simp [decodeFields, decodeCustom2, EngineQ.code, CountClass.code, IdItem.code, CmpCond.code, hw],
   no_command rfl⟩

theorem RoundTrip.vrsq (et : ElemTy) (d : Reg) (a : Reg) (k : BitVec 3) : RoundTrip.Statement (.vrsq et d a k) :=
  ⟨by
    intro wd hw h
    replace hw : (et.isFp && et != .f64) = true := hw
    obtain rfl := Option.some.inj h
    rw [decode_encR]
    try simp at hw
    simp [decodeFields, decodeCustom2, EngineQ.code, CountClass.code, IdItem.code, CmpCond.code, hw],
   no_command rfl⟩

theorem RoundTrip.vexp2 (et : ElemTy) (d : Reg) (a : Reg) (k : BitVec 3) : RoundTrip.Statement (.vexp2 et d a k) :=
  ⟨by
    intro wd hw h
    replace hw : (et.isFp && et != .f64) = true := hw
    obtain rfl := Option.some.inj h
    rw [decode_encR]
    try simp at hw
    simp [decodeFields, decodeCustom2, EngineQ.code, CountClass.code, IdItem.code, CmpCond.code, hw],
   no_command rfl⟩

theorem RoundTrip.vclz (et : ElemTy) (d : Reg) (a : Reg) (k : BitVec 3) : RoundTrip.Statement (.vclz et d a k) :=
  ⟨by
    intro wd hw h
    replace hw : (!et.isFp) = true := hw
    obtain rfl := Option.some.inj h
    rw [decode_encR]
    try simp at hw
    simp [decodeFields, decodeCustom2, EngineQ.code, CountClass.code, IdItem.code, CmpCond.code, hw],
   no_command rfl⟩

theorem RoundTrip.vpopc (et : ElemTy) (d : Reg) (a : Reg) (k : BitVec 3) : RoundTrip.Statement (.vpopc et d a k) :=
  ⟨by
    intro wd hw h
    replace hw : (!et.isFp) = true := hw
    obtain rfl := Option.some.inj h
    rw [decode_encR]
    try simp at hw
    simp [decodeFields, decodeCustom2, EngineQ.code, CountClass.code, IdItem.code, CmpCond.code, hw],
   no_command rfl⟩

theorem RoundTrip.vredAdd (et : ElemTy) (d : Reg) (a : Reg) (k : BitVec 3) : RoundTrip.Statement (.vredAdd et d a k) :=
  ⟨by
    intro wd hw h
    obtain rfl := Option.some.inj h
    rw [decode_encR]
    simp [decodeFields, decodeCustom2, EngineQ.code, CountClass.code, IdItem.code, CmpCond.code],
   no_command rfl⟩

theorem RoundTrip.vredMin (et : ElemTy) (d : Reg) (a : Reg) (k : BitVec 3) : RoundTrip.Statement (.vredMin et d a k) :=
  ⟨by
    intro wd hw h
    obtain rfl := Option.some.inj h
    rw [decode_encR]
    simp [decodeFields, decodeCustom2, EngineQ.code, CountClass.code, IdItem.code, CmpCond.code],
   no_command rfl⟩

theorem RoundTrip.vredMax (et : ElemTy) (d : Reg) (a : Reg) (k : BitVec 3) : RoundTrip.Statement (.vredMax et d a k) :=
  ⟨by
    intro wd hw h
    obtain rfl := Option.some.inj h
    rw [decode_encR]
    simp [decodeFields, decodeCustom2, EngineQ.code, CountClass.code, IdItem.code, CmpCond.code],
   no_command rfl⟩

theorem RoundTrip.vld (et : ElemTy) (d : Reg) (a : Reg) (imm : BitVec 5) (k : BitVec 3) : RoundTrip.Statement (.vld et d a imm k) :=
  ⟨by
    intro wd hw h
    obtain rfl := Option.some.inj h
    rw [decode_encR]
    simp [decodeFields, decodeCustom3, EngineQ.code, CountClass.code, IdItem.code, CmpCond.code],
   no_command rfl⟩

theorem RoundTrip.vst (et : ElemTy) (d : Reg) (a : Reg) (imm : BitVec 5) (k : BitVec 3) : RoundTrip.Statement (.vst et d a imm k) :=
  ⟨by
    intro wd hw h
    obtain rfl := Option.some.inj h
    rw [decode_encR]
    simp [decodeFields, decodeCustom3, EngineQ.code, CountClass.code, IdItem.code, CmpCond.code],
   no_command rfl⟩

theorem RoundTrip.vlds (et : ElemTy) (d : Reg) (a : Reg) (b : Reg) (k : BitVec 3) : RoundTrip.Statement (.vlds et d a b k) :=
  ⟨by
    intro wd hw h
    obtain rfl := Option.some.inj h
    rw [decode_encR]
    simp [decodeFields, decodeCustom3, EngineQ.code, CountClass.code, IdItem.code, CmpCond.code],
   no_command rfl⟩

theorem RoundTrip.vsts (et : ElemTy) (d : Reg) (a : Reg) (b : Reg) (k : BitVec 3) : RoundTrip.Statement (.vsts et d a b k) :=
  ⟨by
    intro wd hw h
    obtain rfl := Option.some.inj h
    rw [decode_encR]
    simp [decodeFields, decodeCustom3, EngineQ.code, CountClass.code, IdItem.code, CmpCond.code],
   no_command rfl⟩

theorem RoundTrip.vldx (et : ElemTy) (d : Reg) (a : Reg) (b : Reg) (k : BitVec 3) : RoundTrip.Statement (.vldx et d a b k) :=
  ⟨by
    intro wd hw h
    replace hw : (et == .f32 || et == .f64 || et == .i32 || et == .i64) = true := hw
    obtain rfl := Option.some.inj h
    rw [decode_encR]
    try simp at hw
    simp [decodeFields, decodeCustom3, EngineQ.code, CountClass.code, IdItem.code, CmpCond.code, hw],
   no_command rfl⟩

theorem RoundTrip.vstx (et : ElemTy) (d : Reg) (a : Reg) (b : Reg) (k : BitVec 3) : RoundTrip.Statement (.vstx et d a b k) :=
  ⟨by
    intro wd hw h
    replace hw : (et == .f32 || et == .f64 || et == .i32 || et == .i64) = true := hw
    obtain rfl := Option.some.inj h
    rw [decode_encR]
    try simp at hw
    simp [decodeFields, decodeCustom3, EngineQ.code, CountClass.code, IdItem.code, CmpCond.code, hw],
   no_command rfl⟩

theorem RoundTrip.vcvtTo (et : ElemTy) (d : Reg) (a : Reg) (code : BitVec 4) (k : BitVec 3) : RoundTrip.Statement (.vcvtTo et d a code k) :=
  ⟨by
    intro wd hw h
    replace hw : (code.toNat != et.code.toNat && code.toNat <= 12) = true := hw
    obtain rfl := Option.some.inj h
    rw [decode_encR]
    try simp at hw
    simp [decodeFields, decodeCustom3, EngineQ.code, CountClass.code, IdItem.code, CmpCond.code, hw],
   no_command rfl⟩

theorem RoundTrip.vcvtFrom (et : ElemTy) (d : Reg) (a : Reg) (code : BitVec 4) (k : BitVec 3) : RoundTrip.Statement (.vcvtFrom et d a code k) :=
  ⟨by
    intro wd hw h
    replace hw : (8 <= code.toNat && code.toNat <= 12) = true := hw
    obtain rfl := Option.some.inj h
    rw [decode_encR]
    try simp at hw
    simp [decodeFields, decodeCustom3, EngineQ.code, CountClass.code, IdItem.code, CmpCond.code, hw],
   no_command rfl⟩

theorem RoundTrip.vpack (et : ElemTy) (d : Reg) (a : Reg) (b : Reg) (k : BitVec 3) : RoundTrip.Statement (.vpack et d a b k) :=
  ⟨by
    intro wd hw h
    replace hw : (et == .i64 || et == .i32 || et == .i16) = true := hw
    obtain rfl := Option.some.inj h
    rw [decode_encR]
    try simp at hw
    simp [decodeFields, decodeCustom3, EngineQ.code, CountClass.code, IdItem.code, CmpCond.code, hw],
   no_command rfl⟩

theorem RoundTrip.vunpk (et : ElemTy) (d : Reg) (a : Reg) (hi : Bool) (k : BitVec 3) : RoundTrip.Statement (.vunpk et d a hi k) :=
  ⟨by
    intro wd hw h
    replace hw : (et == .i32 || et == .i16 || et == .i8) = true := hw
    obtain rfl := Option.some.inj h
    rw [decode_encR]
    try simp at hw
    cases hi <;>
    simp [decodeFields, decodeCustom3, EngineQ.code, CountClass.code, IdItem.code, CmpCond.code, hw],
   no_command rfl⟩

theorem RoundTrip.vperm (et : ElemTy) (d : Reg) (a : Reg) (b : Reg) (k : BitVec 3) : RoundTrip.Statement (.vperm et d a b k) :=
  ⟨by
    intro wd hw h
    obtain rfl := Option.some.inj h
    rw [decode_encR]
    simp [decodeFields, decodeCustom3, EngineQ.code, CountClass.code, IdItem.code, CmpCond.code],
   no_command rfl⟩

theorem RoundTrip.vbcast (et : ElemTy) (d : Reg) (a : Reg) (k : BitVec 3) : RoundTrip.Statement (.vbcast et d a k) :=
  ⟨by
    intro wd hw h
    obtain rfl := Option.some.inj h
    rw [decode_encR]
    simp [decodeFields, decodeCustom3, EngineQ.code, CountClass.code, IdItem.code, CmpCond.code],
   no_command rfl⟩

theorem RoundTrip.vins (et : ElemTy) (d : Reg) (a : Reg) (n : BitVec 5) : RoundTrip.Statement (.vins et d a n) :=
  ⟨by
    intro wd hw h
    replace hw : (decide (n.toNat < et.nelem)) = true := hw
    obtain rfl := Option.some.inj h
    rw [decode_encR]
    try simp at hw
    simp [decodeFields, decodeCustom3, EngineQ.code, CountClass.code, IdItem.code, CmpCond.code, hw],
   no_command rfl⟩

theorem RoundTrip.vext (et : ElemTy) (d : Reg) (a : Reg) (n : BitVec 5) : RoundTrip.Statement (.vext et d a n) :=
  ⟨by
    intro wd hw h
    replace hw : (decide (n.toNat < et.nelem)) = true := hw
    obtain rfl := Option.some.inj h
    rw [decode_encR]
    try simp at hw
    simp [decodeFields, decodeCustom3, EngineQ.code, CountClass.code, IdItem.code, CmpCond.code, hw],
   no_command rfl⟩

theorem RoundTrip.vsel (et : ElemTy) (d : Reg) (a : Reg) (b : Reg) (k : BitVec 3) : RoundTrip.Statement (.vsel et d a b k) :=
  ⟨by
    intro wd hw h
    replace hw : (k != 0#3) = true := hw
    obtain rfl := Option.some.inj h
    rw [decode_encR]
    try simp at hw
    simp [decodeFields, decodeCustom3, EngineQ.code, CountClass.code, IdItem.code, CmpCond.code, hw],
   no_command rfl⟩

theorem RoundTrip.vdot (et : ElemTy) (d : Reg) (a : Reg) (b : Reg) (k : BitVec 3) : RoundTrip.Statement (.vdot et d a b k) :=
  ⟨by
    intro wd hw h
    replace hw : (et == .bf16 || et == .f16 || et == .i16 || et == .i8) = true := hw
    obtain rfl := Option.some.inj h
    rw [decode_encR]
    try simp at hw
    simp [decodeFields, decodeCustom3, EngineQ.code, CountClass.code, IdItem.code, CmpCond.code, hw],
   no_command rfl⟩

theorem RoundTrip.vmma64 (d : Reg) (a : Reg) (b : Reg) : RoundTrip.Statement (.vmma64 d a b) :=
  ⟨by
    intro wd hw h
    replace hw : (d.toNat % 4 == 0) = true := hw
    obtain rfl := Option.some.inj h
    rw [decode_encR]
    try simp at hw
    simp [decodeFields, decodeCustom3, EngineQ.code, CountClass.code, IdItem.code, CmpCond.code, hw],
   no_command rfl⟩

theorem RoundTrip.kand (kd : BitVec 3) (ka : BitVec 3) (kb : BitVec 3) : RoundTrip.Statement (.kand kd ka kb) :=
  ⟨by
    intro wd hw h
    replace hw : (kd != 0#3) = true := hw
    obtain rfl := Option.some.inj h
    rw [decode_encR]
    try simp at hw
    simp [decodeFields, decodeCustom3, EngineQ.code, CountClass.code, IdItem.code, CmpCond.code, hw],
   no_command rfl⟩

theorem RoundTrip.kor (kd : BitVec 3) (ka : BitVec 3) (kb : BitVec 3) : RoundTrip.Statement (.kor kd ka kb) :=
  ⟨by
    intro wd hw h
    replace hw : (kd != 0#3) = true := hw
    obtain rfl := Option.some.inj h
    rw [decode_encR]
    try simp at hw
    simp [decodeFields, decodeCustom3, EngineQ.code, CountClass.code, IdItem.code, CmpCond.code, hw],
   no_command rfl⟩

theorem RoundTrip.kxor (kd : BitVec 3) (ka : BitVec 3) (kb : BitVec 3) : RoundTrip.Statement (.kxor kd ka kb) :=
  ⟨by
    intro wd hw h
    replace hw : (kd != 0#3) = true := hw
    obtain rfl := Option.some.inj h
    rw [decode_encR]
    try simp at hw
    simp [decodeFields, decodeCustom3, EngineQ.code, CountClass.code, IdItem.code, CmpCond.code, hw],
   no_command rfl⟩

theorem RoundTrip.knot (kd : BitVec 3) (ka : BitVec 3) : RoundTrip.Statement (.knot kd ka) :=
  ⟨by
    intro wd hw h
    replace hw : (kd != 0#3) = true := hw
    obtain rfl := Option.some.inj h
    rw [decode_encR]
    try simp at hw
    simp [decodeFields, decodeCustom3, EngineQ.code, CountClass.code, IdItem.code, CmpCond.code, hw],
   no_command rfl⟩

theorem RoundTrip.kmovKK (kd : BitVec 3) (ka : BitVec 3) : RoundTrip.Statement (.kmovKK kd ka) :=
  ⟨by
    intro wd hw h
    replace hw : (kd != 0#3) = true := hw
    obtain rfl := Option.some.inj h
    rw [decode_encR]
    try simp at hw
    simp [decodeFields, decodeCustom3, EngineQ.code, CountClass.code, IdItem.code, CmpCond.code, hw],
   no_command rfl⟩

theorem RoundTrip.kmovKX (kd : BitVec 3) (a : Reg) : RoundTrip.Statement (.kmovKX kd a) :=
  ⟨by
    intro wd hw h
    replace hw : (kd != 0#3) = true := hw
    obtain rfl := Option.some.inj h
    rw [decode_encR]
    try simp at hw
    simp [decodeFields, decodeCustom3, EngineQ.code, CountClass.code, IdItem.code, CmpCond.code, hw],
   no_command rfl⟩

theorem RoundTrip.kmovXK (d : Reg) (ka : BitVec 3) : RoundTrip.Statement (.kmovXK d ka) :=
  ⟨by
    intro wd hw h
    obtain rfl := Option.some.inj h
    rw [decode_encR]
    simp [decodeFields, decodeCustom3, EngineQ.code, CountClass.code, IdItem.code, CmpCond.code],
   no_command rfl⟩

theorem RoundTrip.qnop : RoundTrip.Statement (.qnop) :=
  ⟨no_word rfl,
   by
    intro wd q hw h hq
    obtain rfl := Option.some.inj h
    rw [ofWord_toWord] at hq
    refine decodeCommand_toWord q _ _ 0#4 rfl rfl hq ?_ rfl
    simp_all [commandOf, baseFields, OutTy.code]⟩

theorem RoundTrip.qfence (mask : BitVec 3) : RoundTrip.Statement (.qfence mask) :=
  ⟨no_word rfl,
   by
    intro wd q hw h hq
    obtain rfl := Option.some.inj h
    rw [ofWord_toWord] at hq
    refine decodeCommand_toWord q _ _ 0#4 rfl rfl hq ?_ rfl
    simp_all [commandOf, baseFields, OutTy.code]⟩

theorem RoundTrip.qsignalAdd (addr : VAddr) (v : BitVec 28) : RoundTrip.Statement (.qsignalAdd addr v) :=
  ⟨no_word rfl,
   by
    intro wd q hw h hq
    obtain rfl := Option.some.inj h
    rw [ofWord_toWord] at hq
    refine decodeCommand_toWord q _ _ 0#4 rfl rfl hq ?_ rfl
    simp_all [commandOf, baseFields, OutTy.code]⟩

theorem RoundTrip.qsignalDecz (addr : VAddr) : RoundTrip.Statement (.qsignalDecz addr) :=
  ⟨no_word rfl,
   by
    intro wd q hw h hq
    obtain rfl := Option.some.inj h
    rw [ofWord_toWord] at hq
    refine decodeCommand_toWord q _ _ 0#4 rfl rfl hq ?_ rfl
    simp_all [commandOf, baseFields, OutTy.code]⟩

theorem RoundTrip.qsignalBararr (addr : VAddr) : RoundTrip.Statement (.qsignalBararr addr) :=
  ⟨no_word rfl,
   by
    intro wd q hw h hq
    obtain rfl := Option.some.inj h
    rw [ofWord_toWord] at hq
    refine decodeCommand_toWord q _ _ 0#4 rfl rfl hq ?_ rfl
    simp_all [commandOf, baseFields, OutTy.code]⟩

theorem RoundTrip.qwait (eq : Bool) (addr : VAddr) (v : BitVec 32) : RoundTrip.Statement (.qwait eq addr v) :=
  ⟨no_word rfl,
   by
    intro wd q hw h hq
    obtain rfl := Option.some.inj h
    rw [ofWord_toWord] at hq
    refine decodeCommand_toWord q _ _ 0#4 rfl rfl hq ?_ rfl
    cases eq <;> simp_all [commandOf, baseFields, OutTy.code]⟩

theorem RoundTrip.qwaitPoll (core : Nat) (q : EngineQ) : RoundTrip.Statement (.qwaitPoll core q) :=
  ⟨no_word rfl,
   no_command rfl⟩

theorem RoundTrip.mxloadb (m : Bool) (sel : BitVec 2) (loop : BitVec 8) (a : VAddr) (sc : VAddr) : RoundTrip.Statement (.mxloadb m sel loop a sc) :=
  ⟨no_word rfl,
   by
    intro wd q hw h hq
    replace hw : (sel.getLsbD 1 || sc == 0#48) = true := hw
    simp at hw
    obtain rfl := Option.some.inj h
    rw [ofWord_toWord] at hq
    refine decodeCommand_toWord q _ _ 1#4 rfl rfl hq ?_ rfl
    cases m <;> simp_all [commandOf, baseFields, OutTy.code]⟩

theorem RoundTrip.mxloada (sel : BitVec 2) (loop : BitVec 8) (a : VAddr) (sc : VAddr) : RoundTrip.Statement (.mxloada sel loop a sc) :=
  ⟨no_word rfl,
   by
    intro wd q hw h hq
    replace hw : (sel.getLsbD 1 || sc == 0#48) = true := hw
    simp at hw
    obtain rfl := Option.some.inj h
    rw [ofWord_toWord] at hq
    refine decodeCommand_toWord q _ _ 1#4 rfl rfl hq ?_ rfl
    simp_all [commandOf, baseFields, OutTy.code]⟩

theorem RoundTrip.mxrun (bank : Bool) (two : Bool) (sparse : Bool) (sel : BitVec 2) (pat : VAddr) : RoundTrip.Statement (.mxrun bank two sparse sel pat) :=
  ⟨no_word rfl,
   by
    intro wd q hw h hq
    replace hw : (sparse || pat == 0#48) = true := hw
    simp at hw
    obtain rfl := Option.some.inj h
    rw [ofWord_toWord] at hq
    refine decodeCommand_toWord q _ _ 1#4 rfl rfl hq ?_ rfl
    cases bank <;> cases two <;> cases sparse <;> simp_all [commandOf, baseFields, OutTy.code]⟩

theorem RoundTrip.mxout (bank : Bool) (ty : OutTy) (loop : BitVec 8) (a : VAddr) : RoundTrip.Statement (.mxout bank ty loop a) :=
  ⟨no_word rfl,
   by
    intro wd q hw h hq
    obtain rfl := Option.some.inj h
    rw [ofWord_toWord] at hq
    refine decodeCommand_toWord q _ _ 1#4 rfl rfl hq ?_ rfl
    cases bank <;> cases ty <;> simp_all [commandOf, baseFields, OutTy.code]⟩

theorem RoundTrip.mxzero (bank : Bool) (w : BitVec 8) : RoundTrip.Statement (.mxzero bank w) :=
  ⟨no_word rfl,
   by
    intro wd q hw h hq
    obtain rfl := Option.some.inj h
    rw [ofWord_toWord] at hq
    refine decodeCommand_toWord q _ _ 1#4 rfl rfl hq ?_ rfl
    cases bank <;> simp_all [commandOf, baseFields, OutTy.code]⟩

theorem RoundTrip.mxcfg (op1 : BitVec 48) (op2 : BitVec 48) : RoundTrip.Statement (.mxcfg op1 op2) :=
  ⟨no_word rfl,
   by
    intro wd q hw h hq
    replace hw : (op2.extractLsb' 8 16 == 0#16 && op2.extractLsb' 32 16 == 0#16) = true := hw
    simp at hw
    obtain rfl := Option.some.inj h
    rw [ofWord_toWord] at hq
    refine decodeCommand_toWord q _ _ 1#4 rfl rfl hq ?_ rfl
    simp_all [commandOf, baseFields, OutTy.code]⟩

theorem RoundTrip.mxswap : RoundTrip.Statement (.mxswap) :=
  ⟨no_word rfl,
   by
    intro wd q hw h hq
    obtain rfl := Option.some.inj h
    rw [ofWord_toWord] at hq
    refine decodeCommand_toWord q _ _ 1#4 rfl rfl hq ?_ rfl
    simp_all [commandOf, baseFields, OutTy.code]⟩

theorem RoundTrip.cpy (loop : BitVec 8) (src : VAddr) (dst : VAddr) (count : BitVec 48) : RoundTrip.Statement (.cpy loop src dst count) :=
  ⟨no_word rfl,
   by
    intro wd q hw h hq
    replace hw : (1 <= count.toNat && count.toNat <= 0x1000000) = true := hw
    simp at hw
    obtain rfl := Option.some.inj h
    rw [ofWord_toWord] at hq
    refine decodeCommand_toWord q _ _ 2#4 rfl rfl hq ?_ rfl
    simp_all [commandOf, baseFields, OutTy.code]⟩

theorem RoundTrip.cpyg (src : VAddr) (dst : VAddr) (idx : VAddr) : RoundTrip.Statement (.cpyg src dst idx) :=
  ⟨no_word rfl,
   by
    intro wd q hw h hq
    obtain rfl := Option.some.inj h
    rw [ofWord_toWord] at hq
    refine decodeCommand_toWord q _ _ 2#4 rfl rfl hq ?_ rfl
    simp_all [commandOf, baseFields, OutTy.code]⟩

theorem RoundTrip.cpys (src : VAddr) (dst : VAddr) (idx : VAddr) : RoundTrip.Statement (.cpys src dst idx) :=
  ⟨no_word rfl,
   by
    intro wd q hw h hq
    obtain rfl := Option.some.inj h
    rw [ofWord_toWord] at hq
    refine decodeCommand_toWord q _ _ 2#4 rfl rfl hq ?_ rfl
    simp_all [commandOf, baseFields, OutTy.code]⟩

theorem RoundTrip.cpyfill (loop : BitVec 8) (dst : VAddr) (count : BitVec 48) (pat : BitVec 32) : RoundTrip.Statement (.cpyfill loop dst count pat) :=
  ⟨no_word rfl,
   by
    intro wd q hw h hq
    replace hw : (1 <= count.toNat && count.toNat <= 0x1000000) = true := hw
    simp at hw
    obtain rfl := Option.some.inj h
    rw [ofWord_toWord] at hq
    refine decodeCommand_toWord q _ _ 2#4 rfl rfl hq ?_ rfl
    simp_all [commandOf, baseFields, OutTy.code]⟩

theorem RoundTrip.commandPerformed (core : Nat) (q : EngineQ) : RoundTrip.Statement (.commandPerformed core q) :=
  ⟨no_word rfl,
   no_command rfl⟩

theorem RoundTrip.activationStart (core : Nat) (queue : Nat) : RoundTrip.Statement (.activationStart core queue) :=
  ⟨no_word rfl,
   no_command rfl⟩

theorem RoundTrip.pendingStart (core : Nat) (tag : Nat) : RoundTrip.Statement (.pendingStart core tag) :=
  ⟨no_word rfl,
   no_command rfl⟩

theorem RoundTrip.codeletStart (core : Nat) : RoundTrip.Statement (.codeletStart core) :=
  ⟨no_word rfl,
   no_command rfl⟩

theorem RoundTrip.closeStart (core : Nat) (tag : Nat) : RoundTrip.Statement (.closeStart core tag) :=
  ⟨no_word rfl,
   no_command rfl⟩

theorem RoundTrip.managementStart (core : Nat) : RoundTrip.Statement (.managementStart core) :=
  ⟨no_word rfl,
   no_command rfl⟩

theorem RoundTrip.routeFaultReport (core : Nat) (frame : Option ReportFrame) : RoundTrip.Statement (.routeFaultReport core frame) :=
  ⟨no_word rfl,
   no_command rfl⟩

theorem RoundTrip.movedNotice (core : Nat) (frame : Option ReportFrame) : RoundTrip.Statement (.movedNotice core frame) :=
  ⟨no_word rfl,
   no_command rfl⟩

theorem RoundTrip.acttime (core : Nat) (ctx : Nat) : RoundTrip.Statement (.acttime core ctx) :=
  ⟨no_word rfl,
   no_command rfl⟩

theorem RoundTrip.messageInjection (core : Nat) : RoundTrip.Statement (.messageInjection core) :=
  ⟨no_word rfl,
   no_command rfl⟩

theorem RoundTrip.messageArrival (core : Nat) (flight : Nat) : RoundTrip.Statement (.messageArrival core flight) :=
  ⟨no_word rfl,
   no_command rfl⟩

theorem RoundTrip.heldMessageAccept (core : Nat) (flight : Nat) : RoundTrip.Statement (.heldMessageAccept core flight) :=
  ⟨no_word rfl,
   no_command rfl⟩

theorem RoundTrip.subringRefill (core : Nat) (queue : Nat) : RoundTrip.Statement (.subringRefill core queue) :=
  ⟨no_word rfl,
   no_command rfl⟩

theorem RoundTrip.roundMarkerArrival (core : Nat) (flight : Nat) : RoundTrip.Statement (.roundMarkerArrival core flight) :=
  ⟨no_word rfl,
   no_command rfl⟩

theorem RoundTrip.fenceMarkerArrival (core : Nat) (flight : Nat) : RoundTrip.Statement (.fenceMarkerArrival core flight) :=
  ⟨no_word rfl,
   no_command rfl⟩

theorem RoundTrip.argumentUpdateEffect (core : Nat) (tag : Nat) : RoundTrip.Statement (.argumentUpdateEffect core tag) :=
  ⟨no_word rfl,
   no_command rfl⟩

theorem RoundTrip.routerHeaderStep (flight : Nat) : RoundTrip.Statement (.routerHeaderStep flight) :=
  ⟨no_word rfl,
   no_command rfl⟩

theorem RoundTrip.creditReturn (site : Nat) (dir : Dir) (lane : Nat) : RoundTrip.Statement (.creditReturn site dir lane) :=
  ⟨no_word rfl,
   no_command rfl⟩

theorem RoundTrip.flitCrcError (site : Nat) (dir : Dir) : RoundTrip.Statement (.flitCrcError site dir) :=
  ⟨no_word rfl,
   no_command rfl⟩

theorem RoundTrip.linkReplay (site : Nat) (dir : Dir) : RoundTrip.Statement (.linkReplay site dir) :=
  ⟨no_word rfl,
   no_command rfl⟩

theorem RoundTrip.linkDown (site : Nat) (dir : Dir) : RoundTrip.Statement (.linkDown site dir) :=
  ⟨no_word rfl,
   no_command rfl⟩

theorem RoundTrip.memoryRequestArrival (at' : Arrival) : RoundTrip.Statement (.memoryRequestArrival at') :=
  ⟨no_word rfl,
   no_command rfl⟩

theorem RoundTrip.deczHome (at' : Arrival) : RoundTrip.Statement (.deczHome at') :=
  ⟨no_word rfl,
   no_command rfl⟩

theorem RoundTrip.loadReply (at' : Arrival) : RoundTrip.Statement (.loadReply at') :=
  ⟨no_word rfl,
   no_command rfl⟩

theorem RoundTrip.storeAck (at' : Arrival) : RoundTrip.Statement (.storeAck at') :=
  ⟨no_word rfl,
   no_command rfl⟩

theorem RoundTrip.syReply (at' : Arrival) : RoundTrip.Statement (.syReply at') :=
  ⟨no_word rfl,
   no_command rfl⟩

theorem RoundTrip.syncOperation (die : Nat) : RoundTrip.Statement (.syncOperation die) :=
  ⟨no_word rfl,
   no_command rfl⟩

theorem RoundTrip.dieArrival (die : Nat) (g : Nat) : RoundTrip.Statement (.dieArrival die g) :=
  ⟨no_word rfl,
   no_command rfl⟩

theorem RoundTrip.phaseReleaseArrival (die : Nat) (g : Nat) : RoundTrip.Statement (.phaseReleaseArrival die g) :=
  ⟨no_word rfl,
   no_command rfl⟩

theorem RoundTrip.pairingArrival (flight : Nat) : RoundTrip.Statement (.pairingArrival flight) :=
  ⟨no_word rfl,
   no_command rfl⟩

theorem RoundTrip.parkedDeparture (site : Nat) : RoundTrip.Statement (.parkedDeparture site) :=
  ⟨no_word rfl,
   no_command rfl⟩

theorem RoundTrip.strelInject (id : Nat) : RoundTrip.Statement (.strelInject id) :=
  ⟨no_word rfl,
   no_command rfl⟩

theorem RoundTrip.streamElementAccess (core : Nat) (q : Nat) : RoundTrip.Statement (.streamElementAccess core q) :=
  ⟨no_word rfl,
   no_command rfl⟩

theorem RoundTrip.walkComplete (die : Nat) (page : Nat) : RoundTrip.Statement (.walkComplete die page) :=
  ⟨no_word rfl,
   no_command rfl⟩

theorem RoundTrip.missRetry (die : Nat) (r : Requester) (page : Nat) : RoundTrip.Statement (.missRetry die r page) :=
  ⟨no_word rfl,
   no_command rfl⟩

theorem RoundTrip.busyRetry (die : Nat) (r : Requester) (page : Nat) : RoundTrip.Statement (.busyRetry die r page) :=
  ⟨no_word rfl,
   no_command rfl⟩

theorem RoundTrip.pageUpdate (va : VAddr) (leaf : Word) (move : Bool) : RoundTrip.Statement (.pageUpdate va leaf move) :=
  ⟨no_word rfl,
   no_command rfl⟩

theorem RoundTrip.twinCompare (core : Nat) (mismatch : Bool) : RoundTrip.Statement (.twinCompare core mismatch) :=
  ⟨no_word rfl,
   no_command rfl⟩

theorem RoundTrip.twinTimeout (core : Nat) : RoundTrip.Statement (.twinTimeout core) :=
  ⟨no_word rfl,
   no_command rfl⟩

theorem RoundTrip.migrationDrainTimeout (core : Nat) : RoundTrip.Statement (.migrationDrainTimeout core) :=
  ⟨no_word rfl,
   no_command rfl⟩

theorem RoundTrip.migrationAbandon (core : Nat) (targetError : Bool) : RoundTrip.Statement (.migrationAbandon core targetError) :=
  ⟨no_word rfl,
   no_command rfl⟩

theorem RoundTrip.migrationTransfer (core : Nat) (crcOk : Bool) (badUnits : List Nat) (badMsgs : List Nat) : RoundTrip.Statement (.migrationTransfer core crcOk badUnits badMsgs) :=
  ⟨no_word rfl,
   no_command rfl⟩

theorem RoundTrip.forwardPacket (site : Nat) (flight : Nat) : RoundTrip.Statement (.forwardPacket site flight) :=
  ⟨no_word rfl,
   no_command rfl⟩

theorem RoundTrip.regPhase (cluster : Nat) : RoundTrip.Statement (.regPhase cluster) :=
  ⟨no_word rfl,
   no_command rfl⟩

theorem RoundTrip.regDark (cluster : Nat) : RoundTrip.Statement (.regDark cluster) :=
  ⟨no_word rfl,
   no_command rfl⟩

theorem RoundTrip.holdupEnd (cluster : Nat) : RoundTrip.Statement (.holdupEnd cluster) :=
  ⟨no_word rfl,
   no_command rfl⟩

theorem RoundTrip.powerStageStart (cluster : Nat) : RoundTrip.Statement (.powerStageStart cluster) :=
  ⟨no_word rfl,
   no_command rfl⟩

theorem RoundTrip.powerStageEnd (cluster : Nat) : RoundTrip.Statement (.powerStageEnd cluster) :=
  ⟨no_word rfl,
   no_command rfl⟩

theorem RoundTrip.powerWait (cluster : Nat) : RoundTrip.Statement (.powerWait cluster) :=
  ⟨no_word rfl,
   no_command rfl⟩

theorem RoundTrip.convFail (die : Nat) : RoundTrip.Statement (.convFail die) :=
  ⟨no_word rfl,
   no_command rfl⟩

theorem RoundTrip.thermalSample (cluster : Nat) (junction : Nat) (dram : Nat) : RoundTrip.Statement (.thermalSample cluster junction dram) :=
  ⟨no_word rfl,
   no_command rfl⟩

theorem RoundTrip.trayUndervoltage (volts : Nat) (us : Nat) : RoundTrip.Statement (.trayUndervoltage volts us) :=
  ⟨no_word rfl,
   no_command rfl⟩

theorem RoundTrip.coolantLowFlow (mlPerMin : Nat) (us : Nat) : RoundTrip.Statement (.coolantLowFlow mlPerMin us) :=
  ⟨no_word rfl,
   no_command rfl⟩

theorem RoundTrip.softErr (die : Nat) : RoundTrip.Statement (.softErr die) :=
  ⟨no_word rfl,
   no_command rfl⟩

theorem RoundTrip.dramScrub (site : Nat) : RoundTrip.Statement (.dramScrub site) :=
  ⟨no_word rfl,
   no_command rfl⟩

theorem RoundTrip.coldReset : RoundTrip.Statement (.coldReset) :=
  ⟨no_word rfl,
   no_command rfl⟩

theorem RoundTrip.stagePower (firmwareOk : Bool) (version : Nat) (manifestOk : Bool) (supplyOk : Bool) : RoundTrip.Statement (.stagePower firmwareOk version manifestOk supplyOk) :=
  ⟨no_word rfl,
   no_command rfl⟩

theorem RoundTrip.stageDramTraining (badBanks : List (Nat × Nat)) (ok : Bool) : RoundTrip.Statement (.stageDramTraining badBanks ok) :=
  ⟨no_word rfl,
   no_command rfl⟩

theorem RoundTrip.stageLinkTest (failing : List (Nat × Dir)) (ok : Bool) : RoundTrip.Statement (.stageLinkTest failing ok) :=
  ⟨no_word rfl,
   no_command rfl⟩

theorem RoundTrip.stageGraft : RoundTrip.Statement (.stageGraft) :=
  ⟨no_word rfl,
   no_command rfl⟩

theorem RoundTrip.qclaim (q : Nat) : RoundTrip.Statement (.qclaim q) :=
  ⟨no_word rfl,
   no_command rfl⟩

theorem RoundTrip.qpublish (q : Nat) (slot : BitVec 7) (port : Nat) : RoundTrip.Statement (.qpublish q slot port) :=
  ⟨no_word rfl,
   no_command rfl⟩

theorem RoundTrip.queueTake : RoundTrip.Statement (.queueTake) :=
  ⟨no_word rfl,
   no_command rfl⟩

theorem RoundTrip.load : RoundTrip.Statement (.load) :=
  ⟨no_word rfl,
   no_command rfl⟩

theorem RoundTrip.launch : RoundTrip.Statement (.launch) :=
  ⟨no_word rfl,
   no_command rfl⟩

theorem RoundTrip.roundStart : RoundTrip.Statement (.roundStart) :=
  ⟨no_word rfl,
   no_command rfl⟩

theorem RoundTrip.logReplay (core : Nat) : RoundTrip.Statement (.logReplay core) :=
  ⟨no_word rfl,
   no_command rfl⟩

theorem RoundTrip.quiescenceSweep : RoundTrip.Statement (.quiescenceSweep) :=
  ⟨no_word rfl,
   no_command rfl⟩

theorem RoundTrip.labort (v : Word) : RoundTrip.Statement (.labort v) :=
  ⟨no_word rfl,
   no_command rfl⟩

theorem RoundTrip.launchTimeout : RoundTrip.Statement (.launchTimeout) :=
  ⟨no_word rfl,
   no_command rfl⟩

theorem RoundTrip.hostRead (port : Nat) (off : Nat) (n : Nat) : RoundTrip.Statement (.hostRead port off n) :=
  ⟨no_word rfl,
   no_command rfl⟩

theorem RoundTrip.hostWrite (port : Nat) (off : Nat) (data : List Byte) : RoundTrip.Statement (.hostWrite port off data) :=
  ⟨no_word rfl,
   no_command rfl⟩

theorem RoundTrip.registerWrite (port : Nat) (off : Nat) (v : Word) : RoundTrip.Statement (.registerWrite port off v) :=
  ⟨no_word rfl,
   no_command rfl⟩

theorem RoundTrip.spdmGetVersion (port : Nat) : RoundTrip.Statement (.spdmGetVersion port) :=
  ⟨no_word rfl,
   no_command rfl⟩

theorem RoundTrip.spdmGetCapabilities (port : Nat) : RoundTrip.Statement (.spdmGetCapabilities port) :=
  ⟨no_word rfl,
   no_command rfl⟩

theorem RoundTrip.spdmNegotiateAlgorithms (port : Nat) : RoundTrip.Statement (.spdmNegotiateAlgorithms port) :=
  ⟨no_word rfl,
   no_command rfl⟩

theorem RoundTrip.spdmGetDigests (port : Nat) : RoundTrip.Statement (.spdmGetDigests port) :=
  ⟨no_word rfl,
   no_command rfl⟩

theorem RoundTrip.spdmGetCertificate (port : Nat) : RoundTrip.Statement (.spdmGetCertificate port) :=
  ⟨no_word rfl,
   no_command rfl⟩

theorem RoundTrip.spdmChallenge (port : Nat) : RoundTrip.Statement (.spdmChallenge port) :=
  ⟨no_word rfl,
   no_command rfl⟩

theorem RoundTrip.spdmGetMeasurements (port : Nat) : RoundTrip.Statement (.spdmGetMeasurements port) :=
  ⟨no_word rfl,
   no_command rfl⟩

theorem RoundTrip.spdmUnsupported (port : Nat) (code : Nat) : RoundTrip.Statement (.spdmUnsupported port code) :=
  ⟨no_word rfl,
   no_command rfl⟩

theorem RoundTrip.portTrain (p : Nat) : RoundTrip.Statement (.portTrain p) :=
  ⟨no_word rfl,
   no_command rfl⟩

theorem RoundTrip.portDisable (p : Nat) : RoundTrip.Statement (.portDisable p) :=
  ⟨no_word rfl,
   no_command rfl⟩

theorem RoundTrip.portTrained (p : Nat) (lanes : BitVec 16) : RoundTrip.Statement (.portTrained p lanes) :=
  ⟨no_word rfl,
   no_command rfl⟩

theorem RoundTrip.keyStage (p : Nat) (v : Word) : RoundTrip.Statement (.keyStage p v) :=
  ⟨no_word rfl,
   no_command rfl⟩

theorem RoundTrip.groupSend (p : Nat) (c : Nat) : RoundTrip.Statement (.groupSend p c) :=
  ⟨no_word rfl,
   no_command rfl⟩

theorem RoundTrip.groupReceive (p : Nat) (g : Group) (crcGood : Bool) (flitsGood : Bool) (uncorr : Nat) : RoundTrip.Statement (.groupReceive p g crcGood flitsGood uncorr) :=
  ⟨no_word rfl,
   no_command rfl⟩

theorem RoundTrip.ackFrame (p : Nat) (c : Nat) (key : Nat) (upto : Nat) : RoundTrip.Statement (.ackFrame p c key upto) :=
  ⟨no_word rfl,
   no_command rfl⟩

theorem RoundTrip.nakFrame (p : Nat) (c : Nat) (key : Nat) (counter : Nat) : RoundTrip.Statement (.nakFrame p c key counter) :=
  ⟨no_word rfl,
   no_command rfl⟩

theorem RoundTrip.fabricCreditFrame (p : Nat) (lane : Nat) (n : Nat) : RoundTrip.Statement (.fabricCreditFrame p lane n) :=
  ⟨no_word rfl,
   no_command rfl⟩

theorem RoundTrip.keySwitch (p : Nat) (c : Nat) (idx : Nat) (count : Option Nat) : RoundTrip.Statement (.keySwitch p c idx count) :=
  ⟨no_word rfl,
   no_command rfl⟩

theorem RoundTrip.los (p : Nat) (lanes : BitVec 16) : RoundTrip.Statement (.los p lanes) :=
  ⟨no_word rfl,
   no_command rfl⟩

theorem RoundTrip.restripe (p : Nat) (rx : Bool) (lanes : BitVec 16) : RoundTrip.Statement (.restripe p rx lanes) :=
  ⟨no_word rfl,
   no_command rfl⟩

theorem RoundTrip.laneRejoin (p : Nat) (lane : Nat) : RoundTrip.Statement (.laneRejoin p lane) :=
  ⟨no_word rfl,
   no_command rfl⟩

theorem RoundTrip.replayLog (p : Nat) : RoundTrip.Statement (.replayLog p) :=
  ⟨no_word rfl,
   no_command rfl⟩

theorem RoundTrip.laserFailureDetect (p : Nat) (l : Nat) : RoundTrip.Statement (.laserFailureDetect p l) :=
  ⟨no_word rfl,
   no_command rfl⟩

theorem RoundTrip.laserMonitorUpdate (p : Nat) (l : Nat) (bias : Word) (power : Word) (temp : Word) (hours : Word) (trend : Word) (drift : Word) : RoundTrip.Statement (.laserMonitorUpdate p l bias power temp hours trend drift) :=
  ⟨no_word rfl,
   no_command rfl⟩

theorem RoundTrip.ptpSync (offset : Int) (time : Nat) : RoundTrip.Statement (.ptpSync offset time) :=
  ⟨no_word rfl,
   no_command rfl⟩

theorem RoundTrip.ptpLost : RoundTrip.Statement (.ptpLost) :=
  ⟨no_word rfl,
   no_command rfl⟩

theorem RoundTrip.ptpResume : RoundTrip.Statement (.ptpResume) :=
  ⟨no_word rfl,
   no_command rfl⟩

theorem RoundTrip.rotationStart : RoundTrip.Statement (.rotationStart) :=
  ⟨no_word rfl,
   no_command rfl⟩

theorem RoundTrip.slotStart (p : Nat) (slot : Nat) : RoundTrip.Statement (.slotStart p slot) :=
  ⟨no_word rfl,
   no_command rfl⟩

theorem RoundTrip.illegalEncoding (w : Word32) : RoundTrip.Statement (.illegalEncoding w) :=
  ⟨no_word rfl,
   no_command rfl⟩

theorem RoundTrip.rejectedCommand (w : Vec) : RoundTrip.Statement (.rejectedCommand w) :=
  ⟨no_word rfl,
   no_command rfl⟩

theorem RoundTrip.hostRingWrite (q : Nat) (off : Nat) (data : List Byte) : RoundTrip.Statement (.hostRingWrite q off data) :=
  ⟨no_word rfl,
   no_command rfl⟩

theorem RoundTrip.streamElementArrival (core : Nat) (q : Nat) (poisoned : Bool) : RoundTrip.Statement (.streamElementArrival core q poisoned) :=
  ⟨no_word rfl,
   no_command rfl⟩

theorem RoundTrip.engineReadReturn (core : Nat) (q : EngineQ) (poisoned : Bool) : RoundTrip.Statement (.engineReadReturn core q poisoned) :=
  ⟨no_word rfl,
   no_command rfl⟩

theorem RoundTrip.fetchBlockReturn (core : Nat) (ctx : Nat) (poisoned : Bool) : RoundTrip.Statement (.fetchBlockReturn core ctx poisoned) :=
  ⟨no_word rfl,
   no_command rfl⟩

theorem RoundTrip.graftRewrite (rows : List (Nat × Nat)) (remaps : List (Nat × Nat × Nat × Nat)) : RoundTrip.Statement (.graftRewrite rows remaps) :=
  ⟨no_word rfl,
   no_command rfl⟩

theorem RoundTrip.forwardingEntryRetire (site : Nat) : RoundTrip.Statement (.forwardingEntryRetire site) :=
  ⟨no_word rfl,
   no_command rfl⟩

end Sys2Proof.Laws
end

