-- ==== Sys2Proof/Tests/Slice0.lean ====
section
/-! SUPPORT. Tests: terms that are no instruction, words written out from the spec's encodings, a witness for the
hypotheses of each claim, and single steps whose results the spec gives. -/

namespace Sys2Proof.Tests

open Sys2Proof Sys2Proof.Machine Sys2Proof.Safety

set_option maxRecDepth 8000

/-- The fields of R36 and R39 in one word: funct7, b, a, funct3, d, opcode. -/
def fields (f7 b a f3 d op : Nat) : BitVec 32 :=
  BitVec.ofNat 32 (f7 * 2 ^ 25 + b * 2 ^ 20 + a * 2 ^ 15 + f3 * 2 ^ 12 + d * 2 ^ 7 + op)

/-- Format I of R36, with a 12-bit immediate. -/
def fieldsI (imm a f3 d op : Nat) : BitVec 32 :=
  BitVec.ofNat 32 (imm * 2 ^ 20 + a * 2 ^ 15 + f3 * 2 ^ 12 + d * 2 ^ 7 + op)

/-- The framing of R45: function, mask, vb, va, et, vd, opcode. -/
def fieldsV (fn mask b a et d op : Nat) : BitVec 32 :=
  BitVec.ofNat 32 (fn * 2 ^ 28 + mask * 2 ^ 25 + b * 2 ^ 20 + a * 2 ^ 15 + et * 2 ^ 12 + d * 2 ^ 7 + op)

/-- The word of R49: extra, the three operands, sel, loop, flags, class, command. -/
def fieldsC (extra op3 op2 op1 sel loop flags cls cmd : Nat) : Vec :=
  BitVec.ofNat 256 (extra * 2 ^ 224 + op3 * 2 ^ 160 + op2 * 2 ^ 96 + op1 * 2 ^ 32 + sel * 2 ^ 24 + loop * 2 ^ 16
    + flags * 2 ^ 12 + cls * 2 ^ 8 + cmd)

/-! ## Terms that are no instruction -/

/-- R41, R46–R48: reserved payloads, element types, masks, codes and elements. -/
theorem test_ill_formed_words :
    Instr.wf (.send 0 0 1) = false ∧ Instr.wf (.sendi 0 0 15) = false ∧ Instr.wf (.vfma .i32 0 0 0 0) = false ∧
    Instr.wf (.vfms .i8 0 0 0 0) = false ∧ Instr.wf (.vfnma .i64 0 0 0 0) = false ∧ Instr.wf (.vand .f32 0 0 0 0) = false ∧
    Instr.wf (.vor .f16 0 0 0 0) = false ∧ Instr.wf (.vxor .f64 0 0 0 0) = false ∧ Instr.wf (.vshl .bf16 0 0 0 0) = false ∧
    Instr.wf (.vshr .f32 0 0 0 0) = false ∧ Instr.wf (.vsra .f32 0 0 0 0) = false ∧ Instr.wf (.vcmp .eq .f32 0 0 0 0) = false ∧
    Instr.wf (.vrcp .i32 0 0 0) = false ∧ Instr.wf (.vsqrt .i16 0 0 0) = false ∧ Instr.wf (.vrsq .f64 0 0 0) = false ∧
    Instr.wf (.vexp2 .f64 0 0 0) = false ∧ Instr.wf (.vclz .f64 0 0 0) = false ∧ Instr.wf (.vpopc .bf16 0 0 0) = false := by
  decide

theorem test_ill_formed_memory_and_moves :
    Instr.wf (.vldx .bf16 0 0 0 0) = false ∧ Instr.wf (.vstx .i8 0 0 0 0) = false ∧ Instr.wf (.vcvtTo .f16 0 0 2 0) = false ∧
    Instr.wf (.vcvtTo .f16 0 0 13 0) = false ∧ Instr.wf (.vcvtFrom .f16 0 0 7 0) = false ∧
    Instr.wf (.vcvtFrom .f16 0 0 13 0) = false ∧ Instr.wf (.vpack .i8 0 0 0 0) = false ∧ Instr.wf (.vunpk .i64 0 0 true 0) = false ∧
    Instr.wf (.vins .f32 0 0 8) = false ∧ Instr.wf (.vext .f64 0 0 4) = false ∧ Instr.wf (.vsel .f32 0 0 0 0) = false ∧
    Instr.wf (.vdot .f32 0 0 0 0) = false ∧ Instr.wf (.vmma64 2 0 0) = false ∧ Instr.wf (.kand 0 1 1) = false ∧
    Instr.wf (.kor 0 1 1) = false ∧ Instr.wf (.kxor 0 1 1) = false ∧ Instr.wf (.knot 0 1) = false ∧
    Instr.wf (.kmovKK 0 1) = false ∧ Instr.wf (.kmovKX 0 1) = false := by
  decide

/-- R49–R51, R172, R174: operands a command does not use, and counts. -/
theorem test_ill_formed_commands :
    Instr.wf (.mxloadb false 1 0 0 1) = false ∧ Instr.wf (.mxloada 0 0 0 1) = false ∧
    Instr.wf (.mxrun false false false 0 1) = false ∧ Instr.wf (.mxcfg 0 0x100) = false ∧
    Instr.wf (.mxcfg 0 0x100000000) = false ∧ Instr.wf (.cpy 0 0 0 0) = false ∧ Instr.wf (.cpy 0 0 0 0x1000001) = false ∧
    Instr.wf (.cpyfill 0 0 0 0) = false ∧ Instr.wf (.cpyfill 0 0 0x1000001 0) = false ∧
    Instr.wf (.qwaitPoll 524288 .mxq) = false := by
  decide

/-- R2, R3, R13, R190, R323: parties the module does not have. -/
theorem test_ill_formed_parties :
    Instr.wf (.commandPerformed 524288 .mxq) = false ∧ Instr.wf (.activationStart 0 8) = false ∧
    Instr.wf (.pendingStart 0 64) = false ∧ Instr.wf (.closeStart 524288 0) = false ∧ Instr.wf (.acttime 0 4) = false ∧
    Instr.wf (.messageInjection 524288) = false ∧ Instr.wf (.subringRefill 0 8) = false ∧
    Instr.wf (.creditReturn 0 .n 8) = false ∧ Instr.wf (.linkReplay 2097152 .n) = false ∧ Instr.wf (.syncOperation 64) = false ∧
    Instr.wf (.dieArrival 0 256) = false ∧ Instr.wf (.streamElementAccess 0 8) = false ∧
    Instr.wf (.walkComplete 64 0) = false ∧ Instr.wf (.regPhase 4096) = false ∧ Instr.wf (.qclaim 64) = false ∧
    Instr.wf (.qpublish 0 0 4) = false ∧ Instr.wf (.hostRead 4 0 1) = false ∧ Instr.wf (.hostRead 0 (2 ^ 36) 1) = false := by
  decide

theorem test_ill_formed_ports :
    Instr.wf (.registerWrite 0 4 0) = false ∧ Instr.wf (.spdmChallenge 4) = false ∧ Instr.wf (.portTrain 96) = false ∧
    Instr.wf (.fabricCreditFrame 0 8 1) = false ∧ Instr.wf (.laneRejoin 0 16) = false ∧
    Instr.wf (.laserFailureDetect 0 4) = false ∧ Instr.wf (.hostRingWrite 64 0 []) = false ∧
    Instr.wf (.fetchBlockReturn 0 4 false) = false ∧ Instr.wf (.forwardingEntryRetire 2097152) = false := by
  decide

/-- A core, a site, a die, a cluster or a port past the last. -/
theorem test_ill_formed_numbers :
    [Instr.codeletStart 524288, .managementStart 524288, .routeFaultReport 524288 none, .movedNotice 524288 none,
      .messageArrival 524288 0, .heldMessageAccept 524288 0, .roundMarkerArrival 524288 0, .fenceMarkerArrival 524288 0,
      .argumentUpdateEffect 0 64, .flitCrcError 2097152 .n, .linkDown 2097152 .n, .phaseReleaseArrival 64 0,
      .parkedDeparture 2097152, .missRetry 64 (.context 0 0) 0, .busyRetry 64 (.context 0 0) 0].all (fun i => !i.wf) = true ∧
    [Instr.twinCompare 524288 false, .twinTimeout 524288, .migrationDrainTimeout 524288, .migrationAbandon 524288 false,
      .migrationTransfer 524288 true [] [], .forwardPacket 2097152 0, .regDark 4096, .holdupEnd 4096, .powerStageStart 4096,
      .powerStageEnd 4096, .powerWait 4096, .convFail 64, .thermalSample 4096 0 0, .softErr 64, .dramScrub 2097152].all
        (fun i => !i.wf) = true ∧
    [Instr.logReplay 524288, .hostWrite 4 0 [], .spdmGetVersion 4, .spdmGetCapabilities 4, .spdmNegotiateAlgorithms 4,
      .spdmGetDigests 4, .spdmGetCertificate 4, .spdmGetMeasurements 4, .spdmUnsupported 4 0, .portDisable 96,
      .portTrained 96 0, .keyStage 96 0, .groupSend 96 0, .ackFrame 96 0 0 0, .nakFrame 96 0 0 0].all (fun i => !i.wf) = true ∧
    [Instr.keySwitch 96 0 0 none, .los 96 0, .restripe 96 true 0, .replayLog 96, .laserMonitorUpdate 0 4 0 0 0 0 0 0,
      .slotStart 96 0, .streamElementArrival 0 8 false, .engineReadReturn 524288 .mxq false].all (fun i => !i.wf) = true := by
  decide

/-! ## Words written out from the encodings -/

/-- R36, R37: formats U, J and B; in B, −4 has every bit of imm[12:2] set and imm[1] clear. -/
theorem test_words_upper_and_branches :
    decode32 (BitVec.ofNat 32 (0x80001 * 2 ^ 12 + 5 * 2 ^ 7 + 0x37)) = some (.lui 5 0x80001) ∧
    decode32 (BitVec.ofNat 32 (0x7FFFF * 2 ^ 12 + 5 * 2 ^ 7 + 0x17)) = some (.auipc 5 0x7FFFF) ∧
    decode32 (BitVec.ofNat 32 (0 * 2 ^ 31 + 4 * 2 ^ 21 + 1 * 2 ^ 20 + 3 * 2 ^ 12 + 5 * 2 ^ 7 + 0x6F))
      = some (.jal 5 (BitVec.ofNat 20 ((3 * 2 ^ 12 + 1 * 2 ^ 11 + 4 * 2) / 2))) ∧
    decode32 (fieldsI 0xFFC 6 0 5 0x67) = some (.jalr 5 6 (-4)) ∧
    decode32 (fields 0x7F 7 6 0 0x1D 0x63) = some (.beq 6 7 (-2)) ∧
    decode32 (fields 0x01 7 6 1 0x01 0x63) = some (.bne 6 7 (BitVec.ofNat 12 (2 ^ 10 + 2 ^ 4))) ∧
    decode32 (fields 0x00 7 6 4 0x08 0x63) = some (.blt 6 7 4) ∧ decode32 (fields 0 7 6 5 8 0x63) = some (.bge 6 7 4) ∧
    decode32 (fields 0 7 6 6 8 0x63) = some (.bltu 6 7 4) ∧ decode32 (fields 0 7 6 7 8 0x63) = some (.bgeu 6 7 4) ∧
    decode32 (fields 0 7 6 2 8 0x63) = none ∧ decode32 (fieldsI 0 6 1 5 0x67) = none := by
  decide

theorem test_words_loads_and_stores :
    decode32 (fieldsI 0xFFF 6 0 5 0x03) = some (.lb 5 6 (-1)) ∧ decode32 (fieldsI 0x7FF 6 1 5 0x03) = some (.lh 5 6 0x7FF) ∧
    decode32 (fieldsI 8 6 2 5 0x03) = some (.lw 5 6 8) ∧ decode32 (fieldsI 8 6 3 5 0x03) = some (.ld 5 6 8) ∧
    decode32 (fieldsI 8 6 4 5 0x03) = some (.lbu 5 6 8) ∧ decode32 (fieldsI 8 6 5 5 0x03) = some (.lhu 5 6 8) ∧
    decode32 (fieldsI 8 6 6 5 0x03) = some (.lwu 5 6 8) ∧ decode32 (fieldsI 8 6 7 5 0x03) = none ∧
    decode32 (fields 0x7F 7 6 0 0x1F 0x23) = some (.sb 7 6 (-1)) ∧
    decode32 (fields 0x01 7 6 1 0x02 0x23) = some (.sh 7 6 34) ∧ decode32 (fields 1 7 6 2 2 0x23) = some (.sw 7 6 34) ∧
    decode32 (fields 1 7 6 3 2 0x23) = some (.sd 7 6 34) ∧ decode32 (fields 1 7 6 4 2 0x23) = none := by
  decide

theorem test_words_immediates :
    decode32 (fieldsI 0xFFF 6 0 5 0x13) = some (.addi 5 6 (-1)) ∧ decode32 (fieldsI 9 6 2 5 0x13) = some (.slti 5 6 9) ∧
    decode32 (fieldsI 9 6 3 5 0x13) = some (.sltiu 5 6 9) ∧ decode32 (fieldsI 9 6 4 5 0x13) = some (.xori 5 6 9) ∧
    decode32 (fieldsI 9 6 6 5 0x13) = some (.ori 5 6 9) ∧ decode32 (fieldsI 9 6 7 5 0x13) = some (.andi 5 6 9) ∧
    decode32 (fieldsI 63 6 1 5 0x13) = some (.slli 5 6 63) ∧ decode32 (fieldsI 63 6 5 5 0x13) = some (.srli 5 6 63) ∧
    decode32 (fieldsI (0x400 + 63) 6 5 5 0x13) = some (.srai 5 6 63) ∧ decode32 (fieldsI 0x440 6 1 5 0x13) = none ∧
    decode32 (fieldsI 0xFFF 6 0 5 0x1B) = some (.addiw 5 6 (-1)) ∧ decode32 (fieldsI 31 6 1 5 0x1B) = some (.slliw 5 6 31) ∧
    decode32 (fieldsI 31 6 5 5 0x1B) = some (.srliw 5 6 31) ∧ decode32 (fieldsI (0x400 + 31) 6 5 5 0x1B) = some (.sraiw 5 6 31) ∧
    decode32 (fieldsI 32 6 1 5 0x1B) = none := by
  decide

theorem test_words_register_arithmetic :
    decode32 (fields 0 7 6 0 5 0x33) = some (.add 5 6 7) ∧ decode32 (fields 0 7 6 1 5 0x33) = some (.sll 5 6 7) ∧
    decode32 (fields 0 7 6 2 5 0x33) = some (.slt 5 6 7) ∧ decode32 (fields 0 7 6 3 5 0x33) = some (.sltu 5 6 7) ∧
    decode32 (fields 0 7 6 4 5 0x33) = some (.xor 5 6 7) ∧ decode32 (fields 0 7 6 5 5 0x33) = some (.srl 5 6 7) ∧
    decode32 (fields 0 7 6 6 5 0x33) = some (.or 5 6 7) ∧ decode32 (fields 0 7 6 7 5 0x33) = some (.and 5 6 7) ∧
    decode32 (fields 32 7 6 0 5 0x33) = some (.sub 5 6 7) ∧ decode32 (fields 32 7 6 5 5 0x33) = some (.sra 5 6 7) ∧
    decode32 (fields 1 7 6 0 5 0x33) = some (.mul 5 6 7) ∧ decode32 (fields 1 7 6 1 5 0x33) = some (.mulh 5 6 7) ∧
    decode32 (fields 1 7 6 2 5 0x33) = some (.mulhsu 5 6 7) ∧ decode32 (fields 1 7 6 3 5 0x33) = some (.mulhu 5 6 7) ∧
    decode32 (fields 1 7 6 4 5 0x33) = some (.div 5 6 7) ∧ decode32 (fields 1 7 6 5 5 0x33) = some (.divu 5 6 7) ∧
    decode32 (fields 1 7 6 6 5 0x33) = some (.rem 5 6 7) ∧ decode32 (fields 1 7 6 7 5 0x33) = some (.remu 5 6 7) := by
  decide

theorem test_words_word_arithmetic_and_system :
    decode32 (fields 0 7 6 0 5 0x3B) = some (.addw 5 6 7) ∧ decode32 (fields 0 7 6 1 5 0x3B) = some (.sllw 5 6 7) ∧
    decode32 (fields 0 7 6 5 5 0x3B) = some (.srlw 5 6 7) ∧ decode32 (fields 32 7 6 0 5 0x3B) = some (.subw 5 6 7) ∧
    decode32 (fields 32 7 6 5 5 0x3B) = some (.sraw 5 6 7) ∧ decode32 (fields 1 7 6 0 5 0x3B) = some (.mulw 5 6 7) ∧
    decode32 (fields 1 7 6 4 5 0x3B) = some (.divw 5 6 7) ∧ decode32 (fields 1 7 6 5 5 0x3B) = some (.divuw 5 6 7) ∧
    decode32 (fields 1 7 6 6 5 0x3B) = some (.remw 5 6 7) ∧ decode32 (fields 1 7 6 7 5 0x3B) = some (.remuw 5 6 7) ∧
    decode32 (fieldsI 0x8C3 0 0 0 0x0F) = some (.fence 8 0xC 3) ∧ decode32 (fieldsI 0 0 1 0 0x0F) = some .fenceI ∧
    decode32 (fieldsI 0 0 0 1 0x0F) = none ∧ decode32 0x00000073 = some .ecall ∧ decode32 0x00100073 = some .ebreak ∧
    decode32 0x30200073 = none := by
  decide

theorem test_words_csr :
    decode32 (fieldsI 0x7C0 6 1 5 0x73) = some (.csrrw 5 6 0x7C0) ∧ decode32 (fieldsI 0x7C0 6 2 5 0x73) = some (.csrrs 5 6 0x7C0) ∧
    decode32 (fieldsI 0x7C0 6 3 5 0x73) = some (.csrrc 5 6 0x7C0) ∧ decode32 (fieldsI 0x7C0 31 5 5 0x73) = some (.csrrwi 5 31 0x7C0) ∧
    decode32 (fieldsI 0x7C0 31 6 5 0x73) = some (.csrrsi 5 31 0x7C0) ∧
    decode32 (fieldsI 0x7C0 31 7 5 0x73) = some (.csrrci 5 31 0x7C0) ∧ decode32 (fieldsI 0x7C0 6 4 5 0x73) = none := by
  decide

/-- R40–R43: custom-0. The offset of WCALL is bits [31:15] and [11:7]; the words of R41, R42 and R360 are the spec's. -/
theorem test_words_custom0 :
    decode32 (BitVec.ofNat 32 (0x1FFFF * 2 ^ 15 + 0x1E * 2 ^ 7 + 0x0B)) = some (.wcall (-2)) ∧
    decode32 (fields 0 0 6 1 0 0x0B) = some (.wcallr 6) ∧ decode32 (fields 1 0 0 1 0 0x0B) = some .wret ∧
    decode32 (fields 2 0 0 1 0 0x0B) = some .done ∧ decode32 (fields 3 0 0 1 0 0x0B) = some .tretReplay ∧
    decode32 (fields 3 1 0 1 0 0x0B) = some .tretDiscard ∧ decode32 (fields 3 2 0 1 0 0x0B) = none ∧
    decode32 0x0914200B = some (.send 9 5 0) ∧ decode32 0x4914290B = some (.sendi 9 5 18) ∧
    decode32 (BitVec.ofNat 32 (2 * 2 ^ 30 + 5 * 2 ^ 18 + 2 * 2 ^ 12 + 0x0B)) = some (.sendm 5) ∧
    decode32 (BitVec.ofNat 32 (3 * 2 ^ 30 + 5 * 2 ^ 18 + 2 * 2 ^ 12 + 0x0B)) = none ∧
    decode32 0xFFF04F0B = some (.waitc 15 15 15 0 15) := by
  decide

theorem test_words_tagop :
    let w := fun (tag op a d : Nat) => BitVec.ofNat 32 (tag * 2 ^ 26 + op * 2 ^ 22 + a * 2 ^ 15 + 3 * 2 ^ 12 + d * 2 ^ 7 + 0x0B)
    decode32 (w 9 0 0 5) = some (.tagopEnSet 5 9) ∧ decode32 (w 9 1 0 5) = some (.tagopEnClr 5 9) ∧
    decode32 (w 9 2 0 5) = some (.tagopPdSet 5 9) ∧ decode32 (w 9 3 0 5) = some (.tagopPdClr 5 9) ∧
    decode32 (w 0 4 6 5) = some (.tagopEnSetMask 5 6) ∧ decode32 (w 0 5 6 5) = some (.tagopEnClrMask 5 6) ∧
    decode32 (w 0 6 6 5) = some (.tagopPdSetMask 5 6) ∧ decode32 (w 0 7 6 5) = some (.tagopPdClrMask 5 6) ∧
    decode32 (w 0 8 6 5) = none ∧ decode32 (w 9 4 6 5) = none ∧ decode32 (w 9 0 6 5) = none := by
  decide

theorem test_words_queues_and_queries :
    decode32 (fields 0 2 6 5 0 0x0B) = some (.enq 6 .cpq1) ∧ decode32 0x0219500B = some (.enqm 18 .cpq0) ∧
    decode32 (fields 2 0 6 5 3 0x0B) = some (.sbind 3 6) ∧ decode32 (fields 3 0 0 5 3 0x0B) = some (.sunbind 3) ∧
    decode32 0x0800580B = some (.trctlStatus 16) ∧ decode32 0x0818D00B = some (.trctlMarkr 17) ∧
    decode32 0x0828D00B = some (.trctlMarkw 17) ∧ decode32 0x0830500B = some .trctlSat ∧
    decode32 0x0840500B = some .trctlFlush ∧ decode32 0x0A10500B = some (.pair true) ∧ decode32 0x0C00500B = some .unpair ∧
    decode32 (fields 7 0 6 5 0 0x0B) = some (.migrateCtx 6) ∧ decode32 (fields 7 1 6 5 0 0x0B) = some (.migrateFull 6) ∧
    decode32 (fields 8 2 0 5 5 0x0B) = some (.rdcnt 5 .cp) ∧ decode32 (fields 9 1 0 5 5 0x0B) = some (.rdqf 5 .cpq0) ∧
    decode32 (fields 10 7 0 5 5 0x0B) = some (.rdstrm 5 7) ∧ decode32 (fields 11 3 0 5 5 0x0B) = some (.rdid 5 .context) ∧
    decode32 (fields 12 0 0 5 0 0x0B) = none := by
  decide

/-- R44: custom-1. -/
theorem test_words_peer_group_and_atomics :
    decode32 (fields 0x3F 7 6 0 5 0x2B) = some (.ldp 5 6 7 (-1)) ∧ decode32 (fields 0x41 7 6 0 5 0x2B) = some (.stp 5 6 7 1) ∧
    decode32 (BitVec.ofNat 32 (3 * 2 ^ 24 + 1 * 2 ^ 22 + 6 * 2 ^ 15 + 1 * 2 ^ 12 + 5 * 2 ^ 7 + 0x2B)) = some (.ldacq 5 6 true 3) ∧
    decode32 (BitVec.ofNat 32 (3 * 2 ^ 24 + 1 * 2 ^ 23 + 6 * 2 ^ 15 + 1 * 2 ^ 12 + 5 * 2 ^ 7 + 0x2B)) = some (.strel 5 6 false 3) ∧
    decode32 0x08B6252B = some (.amoAdd 10 12 11 false true false) ∧
    decode32 (fields (8 * 1 + 2) 7 6 2 5 0x2B) = some (.amoAnd 5 6 7 false false true) ∧
    decode32 (fields (8 * 2 + 1) 7 6 2 5 0x2B) = some (.amoOr 5 6 7 true false false) ∧
    decode32 (fields (8 * 3) 7 6 2 5 0x2B) = some (.amoXor 5 6 7 false false false) ∧
    decode32 (fields (8 * 4) 7 6 2 5 0x2B) = some (.amoMin 5 6 7 false false false) ∧
    decode32 (fields (8 * 5) 7 6 2 5 0x2B) = some (.amoMax 5 6 7 false false false) ∧
    decode32 (fields (8 * 6) 7 6 2 5 0x2B) = some (.amoMinu 5 6 7 false false false) ∧
    decode32 (fields (8 * 7) 7 6 2 5 0x2B) = some (.amoMaxu 5 6 7 false false false) ∧
    decode32 (fields (8 * 8) 7 6 2 5 0x2B) = some (.amoSwap 5 6 7 false false false) ∧
    decode32 (fields (8 * 9 + 1) 7 6 2 5 0x2B) = some (.amoFadd 5 6 7 false false) ∧
    decode32 (fields (8 * 9) 7 6 2 5 0x2B) = none ∧ decode32 (fields (8 * 10) 7 6 2 5 0x2B) = none ∧
    decode32 (fields (4 + 1) 7 6 4 5 0x2B) = some (.cas 5 6 7 true true false) := by
  decide

theorem test_words_peer_atomics :
    decode32 (fields (8 * 0 + 4) 7 6 3 5 0x2B) = some (.amoAddPeer 5 6 7 false true false) ∧
    decode32 (fields (8 * 1) 7 6 3 5 0x2B) = some (.amoAndPeer 5 6 7 false false false) ∧
    decode32 (fields (8 * 2) 7 6 3 5 0x2B) = some (.amoOrPeer 5 6 7 false false false) ∧
    decode32 (fields (8 * 3) 7 6 3 5 0x2B) = some (.amoXorPeer 5 6 7 false false false) ∧
    decode32 (fields (8 * 4) 7 6 3 5 0x2B) = some (.amoMinPeer 5 6 7 false false false) ∧
    decode32 (fields (8 * 5) 7 6 3 5 0x2B) = some (.amoMaxPeer 5 6 7 false false false) ∧
    decode32 (fields (8 * 6) 7 6 3 5 0x2B) = some (.amoMinuPeer 5 6 7 false false false) ∧
    decode32 (fields (8 * 7) 7 6 3 5 0x2B) = some (.amoMaxuPeer 5 6 7 false false false) ∧
    decode32 (fields (8 * 8 + 1) 7 6 3 5 0x2B) = some (.amoSwapPeer 5 6 7 true false false) ∧
    decode32 (fields (8 * 9 + 1) 7 6 3 5 0x2B) = some (.amoFaddPeer 5 6 7 false false) := by
  decide

theorem test_words_synchronisation_and_routes :
    decode32 0x080858AB = some (.push 17 16 false 32) ∧
    decode32 (BitVec.ofNat 32 (1 * 2 ^ 30 + 255 * 2 ^ 22 + 1 * 2 ^ 21 + 6 * 2 ^ 15 + 5 * 2 ^ 12 + 5 * 2 ^ 7 + 0x2B))
      = some (.pop 5 6 true 255) ∧
    decode32 (BitVec.ofNat 32 (2 * 2 ^ 30 + 32 * 2 ^ 22 + 6 * 2 ^ 15 + 5 * 2 ^ 12 + 5 * 2 ^ 7 + 0x2B)) = some (.popw 5 6 false 32) ∧
    decode32 (fields 0 7 6 6 0 0x2B) = some (.objinit 6 7) ∧ decode32 (fields 1 7 6 6 0 0x2B) = some (.barinit 6 7) ∧
    decode32 (fields 2 0 6 6 0 0x2B) = some (.bararr 6) ∧ decode32 (fields 3 0 6 6 5 0x2B) = some (.barwait 5 6) ∧
    decode32 (fields 4 7 6 6 0 0x2B) = some (.decz 6 7) ∧ decode32 0x1A01E02B = some (.phase 5 3) ∧
    decode32 0x0118702B = some (.rtset 16 17) ∧ decode32 (fields 1 0 6 7 0 0x2B) = some (.rtinv 6) ∧
    decode32 (fields 1 1 0 7 0 0x2B) = some .rtinvAll ∧ decode32 (fields 1 1 6 7 0 0x2B) = none ∧
    decode32 (fields 2 7 6 7 0 0x2B) = some (.rtbind 6 7) := by
  decide

/-- R45, R46: custom-2. -/
theorem test_words_vector_arithmetic :
    decode32 (fieldsV 0 3 7 6 0 5 0x5B) = some (.vadd .f32 5 6 7 3) ∧ decode32 (fieldsV 1 0 7 6 1 5 0x5B) = some (.vsub .bf16 5 6 7 0) ∧
    decode32 (fieldsV 2 0 7 6 2 5 0x5B) = some (.vmul .f16 5 6 7 0) ∧ decode32 (fieldsV 3 0 7 6 3 5 0x5B) = some (.vfma .f64 5 6 7 0) ∧
    decode32 (fieldsV 4 0 7 6 0 5 0x5B) = some (.vfms .f32 5 6 7 0) ∧ decode32 (fieldsV 5 0 7 6 0 5 0x5B) = some (.vfnma .f32 5 6 7 0) ∧
    decode32 (fieldsV 6 0 7 6 4 5 0x5B) = some (.vmin .i32 5 6 7 0) ∧ decode32 (fieldsV 7 0 7 6 5 5 0x5B) = some (.vmax .i16 5 6 7 0) ∧
    decode32 (fieldsV 8 0 7 6 6 5 0x5B) = some (.vand .i8 5 6 7 0) ∧ decode32 (fieldsV 9 0 7 6 7 5 0x5B) = some (.vor .i64 5 6 7 0) ∧
    decode32 (fieldsV 10 0 7 6 4 5 0x5B) = some (.vxor .i32 5 6 7 0) ∧ decode32 (fieldsV 11 0 7 6 4 5 0x5B) = some (.vshl .i32 5 6 7 0) ∧
    decode32 (fieldsV 12 0 7 6 4 5 0x5B) = some (.vshr .i32 5 6 7 0) ∧ decode32 (fieldsV 13 0 7 6 4 5 0x5B) = some (.vsra .i32 5 6 7 0) ∧
    decode32 (fieldsV 14 1 7 6 0 (8 * 2 + 4) 0x5B) = some (.vcmp .lt .f32 4 6 7 1) ∧
    decode32 (fieldsV 14 1 7 6 0 (8 * 2) 0x5B) = none ∧ decode32 (fieldsV 8 0 7 6 0 5 0x5B) = none := by
  decide

theorem test_words_vector_unary :
    decode32 (fieldsV 15 1 0 6 0 5 0x5B) = some (.vabs .f32 5 6 1) ∧ decode32 (fieldsV 15 1 1 6 7 5 0x5B) = some (.vneg .i64 5 6 1) ∧
    decode32 (fieldsV 15 1 2 6 0 5 0x5B) = some (.vrcp .f32 5 6 1) ∧ decode32 (fieldsV 15 1 3 6 0 5 0x5B) = some (.vsqrt .f32 5 6 1) ∧
    decode32 (fieldsV 15 1 4 6 0 5 0x5B) = some (.vrsq .f32 5 6 1) ∧ decode32 (fieldsV 15 1 5 6 0 5 0x5B) = some (.vexp2 .f32 5 6 1) ∧
    decode32 (fieldsV 15 1 4 6 3 5 0x5B) = none ∧ decode32 (fieldsV 15 1 6 6 4 5 0x5B) = some (.vclz .i32 5 6 1) ∧
    decode32 (fieldsV 15 1 7 6 4 5 0x5B) = some (.vpopc .i32 5 6 1) ∧ decode32 (fieldsV 15 1 8 6 4 5 0x5B) = some (.vredAdd .i32 5 6 1) ∧
    decode32 (fieldsV 15 1 9 6 4 5 0x5B) = some (.vredMin .i32 5 6 1) ∧
    decode32 (fieldsV 15 1 10 6 4 5 0x5B) = some (.vredMax .i32 5 6 1) ∧ decode32 (fieldsV 15 1 11 6 4 5 0x5B) = none := by
  decide

/-- R47, R48: custom-3. -/
theorem test_words_vector_memory_and_moves :
    decode32 (fieldsV 0 1 31 6 0 5 0x7B) = some (.vld .f32 5 6 (-1) 1) ∧ decode32 (fieldsV 1 1 1 6 0 5 0x7B) = some (.vst .f32 5 6 1 1) ∧
    decode32 (fieldsV 2 1 7 6 0 5 0x7B) = some (.vlds .f32 5 6 7 1) ∧ decode32 (fieldsV 3 1 7 6 0 5 0x7B) = some (.vsts .f32 5 6 7 1) ∧
    decode32 (fieldsV 4 1 7 6 7 5 0x7B) = some (.vldx .i64 5 6 7 1) ∧ decode32 (fieldsV 5 1 7 6 0 5 0x7B) = some (.vstx .f32 5 6 7 1) ∧
    decode32 (fieldsV 4 1 7 6 1 5 0x7B) = none ∧ decode32 (fieldsV 6 1 8 6 2 5 0x7B) = some (.vcvtTo .f16 5 6 8 1) ∧
    decode32 (fieldsV 6 1 (16 + 12) 6 0 5 0x7B) = some (.vcvtFrom .f32 5 6 12 1) ∧ decode32 (fieldsV 6 1 2 6 2 5 0x7B) = none ∧
    decode32 (fieldsV 7 1 7 6 4 5 0x7B) = some (.vpack .i32 5 6 7 1) ∧ decode32 (fieldsV 8 1 1 6 4 5 0x7B) = some (.vunpk .i32 5 6 true 1) ∧
    decode32 (fieldsV 9 1 7 6 0 5 0x7B) = some (.vperm .f32 5 6 7 1) ∧ decode32 (fieldsV 10 1 0 6 0 5 0x7B) = some (.vbcast .f32 5 6 1) ∧
    decode32 (fieldsV 11 0 7 6 0 5 0x7B) = some (.vins .f32 5 6 7) ∧ decode32 (fieldsV 11 0 8 6 0 5 0x7B) = none ∧
    decode32 (fieldsV 12 0 3 6 3 5 0x7B) = some (.vext .f64 5 6 3) := by
  decide

theorem test_words_products_and_masks :
    decode32 (fieldsV 13 2 7 6 0 5 0x7B) = some (.vsel .f32 5 6 7 2) ∧ decode32 (fieldsV 13 0 7 6 0 5 0x7B) = none ∧
    decode32 (fieldsV 14 1 7 6 6 5 0x7B) = some (.vdot .i8 5 6 7 1) ∧ decode32 (fieldsV 14 0 7 6 3 4 0x7B) = some (.vmma64 4 6 7) ∧
    decode32 (fieldsV 14 0 7 6 3 5 0x7B) = none ∧ decode32 (fieldsV 14 0 7 6 0 4 0x7B) = none ∧
    decode32 (fieldsV 15 3 0 2 0 1 0x7B) = some (.kand 1 2 3) ∧ decode32 (fieldsV 15 3 1 2 0 1 0x7B) = some (.kor 1 2 3) ∧
    decode32 (fieldsV 15 3 2 2 0 1 0x7B) = some (.kxor 1 2 3) ∧ decode32 (fieldsV 15 0 3 2 0 1 0x7B) = some (.knot 1 2) ∧
    decode32 (fieldsV 15 0 4 2 0 1 0x7B) = some (.kmovKK 1 2) ∧ decode32 (fieldsV 15 0 5 17 0 1 0x7B) = some (.kmovKX 1 17) ∧
    decode32 (fieldsV 15 0 6 2 0 17 0x7B) = some (.kmovXK 17 2) ∧ decode32 (fieldsV 15 3 0 2 0 0 0x7B) = none ∧
    decode32 (fieldsV 15 3 0 2 1 1 0x7B) = none ∧ decode32 (fieldsV 15 0 7 2 0 1 0x7B) = none := by
  decide

/-- What the decoder reads from a command word on a queue. -/
def reads (q : EngineQ) (w : Vec) : Option Instr :=
  match decodeCommand q w with
  | .ok i => some i
  | .error _ => none

/-- R49–R51: commands of any queue. -/
theorem test_words_commands_of_any_queue :
    reads .mxq (fieldsC 0 0 0 0 0 255 0 0 0x00) = some .qnop ∧
    reads .cpq1 (fieldsC 5 0 0 0 0 255 0 0 0x01) = some (.qfence 5) ∧
    reads .cpq0 (fieldsC 0x0000007 0 0 0x1008 0 255 0 0 0x02) = some (.qsignalAdd 0x1008 7) ∧
    reads .cpq0 (fieldsC 0x10000000 0 0 0x1010 0 255 0 0 0x02) = some (.qsignalDecz 0x1010) ∧
    reads .cpq0 (fieldsC 0x20000000 0 0 0x1020 0 255 0 0 0x02) = some (.qsignalBararr 0x1020) ∧
    reads .mxq (fieldsC 0xFFFFFFFF 0 0 0x1008 0 255 1 0 0x03) = some (.qwait true 0x1008 0xFFFFFFFF) ∧
    reads .mxq (fieldsC 0x30000000 0 0 0x1008 0 255 0 0 0x02) = none ∧ reads .mxq (fieldsC 0 0 0 0 0 254 0 0 0x00) = none ∧
    reads .mxq (fieldsC 0 0 0 (0xF * 2 ^ 60) 0 255 0 0 0x03) = none := by
  decide

/-- R51: the matrix commands, on mxq only. -/
theorem test_words_matrix_commands :
    reads .mxq (fieldsC 0 0 0x2000 0x1000 2 7 1 1 0x10) = some (.mxloadb true 2 7 0x1000 0x2000) ∧
    reads .mxq (fieldsC 0 0 0 0x1000 1 255 0 1 0x11) = some (.mxloada 1 255 0x1000 0) ∧
    reads .mxq (fieldsC 0 0 0 0x3000 0 255 5 1 0x12) = some (.mxrun true false true 0 0x3000) ∧
    reads .mxq (fieldsC 0 0 0 0 0 255 2 1 0x12) = some (.mxrun false true false 0 0) ∧
    reads .mxq (fieldsC 2 0 0 0x4000 0 3 1 1 0x13) = some (.mxout true .int32 3 0x4000) ∧
    reads .mxq (fieldsC 0xF8 0 0 0 0 255 0 1 0x14) = some (.mxzero false (-8)) ∧
    reads .mxq (fieldsC 0 0 (0xF * 2 ^ 60 + 0x20) (0xF * 2 ^ 60 + 0x11816) 0 255 0 1 0x15) = some (.mxcfg 0x11816 0x20) ∧
    reads .mxq (fieldsC 0 0 0 0 0 255 0 1 0x16) = some .mxswap ∧ reads .cpq0 (fieldsC 0 0 0 0 0 255 0 1 0x16) = none ∧
    reads .mxq (fieldsC 3 0 0 0x4000 0 3 1 1 0x13) = none ∧ reads .mxq (fieldsC 0 0 0 0 4 255 0 1 0x11) = none := by
  decide

/-- R51: the copy commands, on cpq0 and cpq1. -/
theorem test_words_copy_commands :
    reads .cpq0 (fieldsC 0 (0xF * 2 ^ 60 + 64) 0x2000 0x1000 0 9 0 2 0x20) = some (.cpy 9 0x1000 0x2000 64) ∧
    reads .cpq1 (fieldsC 0 0x3000 0x2000 0x1000 0 255 0 2 0x21) = some (.cpyg 0x1000 0x2000 0x3000) ∧
    reads .cpq1 (fieldsC 0 0x3000 0x2000 0x1000 0 255 0 2 0x22) = some (.cpys 0x1000 0x2000 0x3000) ∧
    reads .cpq0 (fieldsC 0xDEADBEEF 0 (0xF * 2 ^ 60 + 64) 0x1000 0 9 0 2 0x23) = some (.cpyfill 9 0x1000 64 0xDEADBEEF) ∧
    reads .mxq (fieldsC 0 0x3000 0x2000 0x1000 0 255 0 2 0x21) = none ∧
    reads .cpq0 (fieldsC 0 0x3000 0x2000 0x1000 0 9 0 2 0x21) = none ∧
    reads .cpq0 (fieldsC 0 (0xF * 2 ^ 60) 0x2000 0x1000 0 9 0 2 0x20) = none := by
  decide

/-! ## Small states -/

/-- A running activation of tag 1, and a trap or management context. -/
def appAct : Activation := ⟨.app, some 1, .pending, 0, 0, false⟩
def sysAct : Activation := ⟨.system, none, .system, 0, 0, false⟩

/-- A context that runs in app mode at pc 0x100, and one in system mode. -/
def app : Ctx := { Ctx.blank with act := some appAct, pc := 0x100 }
def sys : Ctx := { app with act := some sysAct }

/-- The reset state with the attach site of die 0's engine that section 13's module has (R325). -/
def base : State := State.reset.setDie 0 { Die.blank with attach := [(16, 65604)] }

/-- That state with that context as context 0 of core 0, and core 0 as given. -/
def run (x : Ctx) : State := base.setCtx 0 0 x
def runOn (x : Ctx) (c : Core) : State := (run x).setCore 0 c

/-- Core 0 at reset, and its context in focus. -/
def core0 : Core := Core.blank 0

/-- A word in core 0's scratchpad at an offset. -/
def State.withWord (s : State) (off : Nat) (w : Word32) : State := s.writePlace ⟨.scratch, (s.core 0).site, off⟩ (natLE 4 w.toNat)

/-- An outstanding access of context 0 of core 0, on its way. -/
def req0 : Req := { Req.blank with owner := .ctx 0 0 0, cls := some .ld, pc := 0x100, stage := .going }

/-- A waiting QNOP and a started command. -/
def qnopWord : Vec := fieldsC 0 0 0 0 0 255 0 0 0
def waitingQnop : QCmd := ⟨qnopWord, .app, 0⟩
def jobOf (i : Instr) : Job := { cmd := waitingQnop, instr := i, cfg := .blank, loop := none, cursor := 0, pos := 0, buf := [],
                                 hdr := none, idx := none, done := false, polled := none }

/-- Core 0 with translations of the scratchpad slot of core 1 in the logical-core window and of a page of sync space, and
routes to core 1's site and to the engine of die 0 (R307, R309, R231). -/
def slotPage : Page := ⟨0x400_0080_0000, 0x1_0000, 0x2_4000_0700⟩
def syncPage : Page := ⟨0x10_0000_0000, 0x1_0000, 0x1_0000_0700⟩
def eastRoute : Route := ⟨[⟨.e, false, false, 0⟩], 1, 0⟩
def westRoute : Route := ⟨[⟨.w, false, false, 0⟩], 0, 0⟩
def wired : Core :=
  { core0 with utlb := [slotPage, syncPage]
               rcache := [⟨1, eastRoute, some westRoute⟩, ⟨65604, ⟨[⟨.e, false, false, 67⟩, ⟨.n, false, false, 31⟩], 65604, 0⟩, some westRoute⟩] }

/-- Where an access goes that passes its checks: its place, and whether it takes a route. -/
def reachesAt (s : State) (a : Acc) (va n : Nat) (needReply : Bool) : Option (Place × Bool) :=
  match s.translate s.meWho s.me.mode a va with
  | .ok t l near own =>
    match (t.record t.focus.core l n a.r a.w).reach (t.record t.focus.core l n a.r a.w).focus.core l near own needReply with
    | .own => some (l.place, false)
    | .routed _ _ _ => some (l.place, true)
    | .miss _ => none
  | .wait _ => none
  | .fault _ _ => none

theorem reaches_of {s : State} {a : Acc} {va n : Nat} {needReply : Bool} {p : Place} {b : Bool}
    (h : reachesAt s a va n needReply = some (p, b)) :
    ∃ t u l route, Reaches s a va n needReply t u l route ∧ l.place = p ∧ route.isSome = b := by
  unfold reachesAt at h
  split at h
  case h_1 t l near own ht =>
    split at h
    case h_1 hr =>
      simp only [Option.some.injEq, Prod.mk.injEq] at h
      exact ⟨t, _, l, none, ⟨near, own, ht, .inl ⟨hr, rfl, rfl⟩⟩, h.1, h.2⟩
    case h_2 f r u hr =>
      simp only [Option.some.injEq, Prod.mk.injEq] at h
      exact ⟨t, u, l, some (f, r), ⟨near, own, ht, .inr ⟨f, r, hr, rfl⟩⟩, h.1, h.2⟩
    case h_3 => cases h
  case h_2 => cases h
  case h_3 => cases h

/-- A packet at a place of the mesh. -/
def flightAt (site : Nat) (spot : Spot) (h : Header) (b : Body) : Flight :=
  ⟨0, 0, ⟨h, b⟩, site, 0, none, 0, 0, false, false, spot, false, []⟩
def withFlight (s : State) (f : Flight) : State := { s with net := [f] }

def outMsg (n : Nat) (sendi : Bool) : OutMsg := ⟨0, 0, n, hdrBlank, [], sendi, sendi, none⟩

/-- A launch in a round, on a module that has been brought up; and core 0 there with no context in use. -/
def cmd0 : LaunchCmd := ⟨1, 0, false, false, 1, 0, 0, 0, 0, 0, 0, 0, false⟩
def inRound : Running := ⟨0, 0, cmd0, 0, 2, [], none, 1, [], [], none, 0, 0, 0, [], 0, 0, 0, 0, 0, []⟩
def up : State := { base with running := some inRound, bringup := { State.reset.bringup with stage := 5 } }
def idle (c : Core) : State := up.setCore 0 c

def releasing : Req :=
  { req0 with cls := some .st, stage := .release, target := .mem .store ⟨.scratch, 0, 0x1000⟩ 8 (natLE 8 0) 0xFFFFFFFF }
def bound0 : Stream := { Stream.blank with bound := true, ctx := 0, epoch := 0, count := 4 }
def streaming (st : Stream) : Core := { core0 with streams := [(2, st)] }
def entry1 : TagEntry := { TagEntry.blank with valid := true, queue := 2, handler := 0x200 }
def headMsg (round : Nat) : Msg := ⟨{ hdrBlank with tag := 1, round }, [], 0, false, false, 2, none, none⟩
def inbox (e : TagEntry) : Core := { core0 with tagen := 2, table := [(1, e)], bound := 1 }

def ownReq (t : Target) : Req := { req0 with target := t }

/-- The next state an outcome gives. -/
def went (o : Host.Outcome State Fault Refusal) : State := match o with
  | .next s => s
  | .fault _ | .refused _ => base
/-! ## Witnesses: encodings, the step -/

/-- EncodedWordDecodesBack, DecodedWordEncodesBack, EncodedCommandDecodesBack. -/
theorem witness_encodings :
    (Instr.addi 8 8 1).wf = true ∧ encode (.addi 8 8 1) = some 0x00140413 ∧ decode32 0x00140413 = some (.addi 8 8 1) ∧
    (Instr.qfence 5).wf = true ∧ encodeCommand (.qfence 5) = some (fieldsC 5 0 0 0 0 255 0 0 1) ∧
    classFits (CmdFields.ofWord (fieldsC 5 0 0 0 0 255 0 0 1)).cls .cpq1 = true ∧
    decodeCommand .cpq1 (fieldsC 5 0 0 0 0 255 0 0 1) = .ok (.qfence 5) := by
  refine ⟨by decide, by decide, by decide, by decide, by decide, by decide, rfl⟩

/-- The state in which the chosen context of core 0 fetches, as StepRunsDecodedInstruction says it. -/
def fetching (s : State) (ready : Nat) : Option State :=
  let o : State := { s.observe with now := s.now + 1, agenda := [] }
  if s.observe.due (s.now + 1) = none then
    let p := (((List.range 4).filter fun c => bit ready c).foldl (fun t c => t.fetchOn 0 c) o).choose 0 ready false
    if (o.core 0).issuedAt = some o.now then none
    else p.1.map fun ctx => { p.2 with focus := { p.2.focus with core := 0, ctx, merge := false } }
  else none

/-- Context 0 of core 0 is to issue next. -/
def toIssue (s : State) : State := { s with agenda := [(1, .issue 0 1 false)] }

/-- StepRunsDecodedInstruction: a core that has issued in the cycle; and a word that decodes and may issue, one that decodes to nothing, a fetch that traps; and no
context chosen: a word that waits for an operand, a fetch that waits, a context held. -/
def fetchCase (s : State) : Option (Bool × Nat) :=
  (fetching s 1).map fun f => (f.held 0 0, match f.fetch 0 0 with
    | .word v w => (match decode32 w with
      | some i => if v.hazard 0 0 i then 1 else 0
      | none => 2)
    | .trap _ _ _ => 3
    | .wait _ => 4)

theorem witness_step_cases :
    ({ runOn app { core0 with issuedAt := some 0 } with now := 0 }.core 0).issuedAt = some 0 ∧
    fetchCase (toIssue (State.withWord (run app) 0x100 0x00140413)) = some (false, 0) ∧
    fetchCase (toIssue (State.withWord { run app with reqs := [{ req0 with dest := (app).dest 8 8 true }] } 0x100 0x00140413))
      = none ∧
    fetchCase (toIssue (run app)) = some (false, 2) ∧
    fetchCase (toIssue (run { app with pc := 0xA00000 })) = some (false, 3) ∧
    fetchCase (toIssue (run { app with pc := 0x40000000 })) = none ∧
    fetchCase (toIssue (State.withWord { run app with reqs := [{ req0 with holds := true }] } 0x100 0x00140413)) = none := by decide

/-- StepRunsCommandsAndEvents: a started command, a head word that decodes, one that does not, a step of the table. -/
def queued0 (s : State) : Option (Bool × Bool × Bool) :=
  if s.observe.due (s.now + 1) = none then
    let c := s.observe.core 0
    some ((c.job .mxq).isSome, c.cmds.at (queueNo .mxq) [] != [], match c.cmds.at (queueNo .mxq) [] with
      | [] => false
      | h :: _ => (match decodeCommand .mxq h.word with
        | .ok _ => true
        | .error _ => false))
  else none

theorem witness_step_commands :
    queued0 (runOn app { core0 with jobs := [(0, jobOf .qnop)] }) = some (true, false, false) ∧
    queued0 (runOn app { core0 with cmds := [(0, [waitingQnop])] }) = some (false, true, true) ∧
    queued0 (runOn app { core0 with cmds := [(0, [⟨0xFF, .app, 0⟩])] }) = some (false, true, false) ∧
    isStep .ptpLost = true ∧ Instr.wf .ptpLost = true ∧ queued0 (run app) = some (false, false, false) := by decide

/-- StepEndsLateActivations. -/
theorem witness_late_activation :
    let running : Ctx := { app with act := some { appAct with issued := true } }
    (runOn running { core0 with actlim := 5 }).observe.due 7 = some (5, .activation 0 0) ∧
    ({ base with cores := [(0, { core0 with mig := some ⟨64, false, 0, 0, 0, 0, false, []⟩ })] } : State).observe.due 70000
      = some (65536, .drain 0) ∧
    ({ base with cores := [(0, { core0 with mig := some ⟨64, false, 1, 0, 0, 0, false, []⟩ })] } : State).observe.due 70000
      = some (65537, .move 0) ∧
    ({ base with cores := [(0, { core0 with pair := some ⟨1, [⟨⟨hdrBlank, .empty⟩, 7, none⟩], [], [], [], none⟩ })] } : State).observe.due 90
      = some (72, .twin 0) ∧
    (withFlight base (flightAt 5 (.parked 3 40 0) hdrBlank .empty)).observe.due 90 = some (41, .parked 5) ∧
    ({ base with running := some { inRound with sweepAt := 2048 } } : State).observe.due 3000 = some (2048, .sweep) ∧
    ({ base with running := some { inRound with phase := 1, cmd := { cmd0 with kind := 2, limit := 1 } } } : State).observe.due 3000
      = some (1200, .launch) ∧
    ({ base with hostHeld := [.claim 0] } : State).observe.due 1 = some (0, .host) := by decide

/-- FetchReadsTheScratchpad: the last word of the scratchpad, whole and poisoned. -/
theorem witness_scratchpad_fetch :
    (run { app with pc := 0x7FFC }).poisoned ⟨.scratch, 0, 0x7FFC⟩ 4 = false ∧
    ({ run { app with pc := 0x7FFC } with poison := [((⟨.scratch, 0, 0x7FE0⟩ : Place).phys / 32, 1)] } : State).poisoned
      ⟨.scratch, (core0).site, 0x7FFC⟩ 4 = true ∧ ((run { app with pc := 0x7FFC }).core 0).site = 0 ∧
    ((run { app with pc := 0x7FFC }).ctx 0 0).blocks = [] := by decide

/-- StepsKeepMemoryCanonical: from the reset state, whose memory has the form, a step goes on. -/
theorem witness_step_keeps_memory :
    (run app).mem.wf = true ∧ (run app).hostMem.wf = true ∧
    ∃ t, step { run app with agenda := [(1, .event .ptpLost)] } = .next t := ⟨by decide, by decide, _, rfl⟩

/-- RegistersReadBack, VectorRegistersReadBack: registers other than x0 and k0. -/
theorem witness_registers : (5 : Reg) ≠ 0 ∧ (31 : Reg) ≠ 5 := by decide

/-! ## Witnesses: scalar instructions, CSRs, traps -/

/-- BranchesAndJumps: taken to a multiple of 4, taken elsewhere, not taken; JAL and JALR both ways. -/
theorem witness_branches :
    let s := run (app.writeX 8 5)
    decide (s.x 0 = s.x 0) = true ∧ (s.me.pc + BitVec.ofInt 64 (2 * (2 : BitVec 12).toInt)).toNat % 4 = 0 ∧
    (s.me.pc + BitVec.ofInt 64 (2 * (1 : BitVec 12).toInt)).toNat % 4 ≠ 0 ∧ decide (s.x 0 = s.x 8) = false ∧
    decide ((s.x 0).toInt < (s.x 8).toInt) = true ∧ decide ((s.x 8).toInt ≤ (s.x 0).toInt) = false ∧
    decide ((s.x 0).toNat < (s.x 8).toNat) = true ∧ decide ((s.x 8).toNat ≤ (s.x 0).toNat) = false ∧
    (BitVec.ofInt 64 (((s.x 8).toNat + (2 ^ 64 : Int) + (0 : BitVec 12).toInt) -
      ((s.x 8).toNat + (2 ^ 64 : Int) + (0 : BitVec 12).toInt) % 2) : Word).toNat % 4 = 0 ∧
    (BitVec.ofInt 64 (((s.x 8).toNat + (2 ^ 64 : Int) + (2 : BitVec 12).toInt) -
      ((s.x 8).toNat + (2 ^ 64 : Int) + (2 : BitVec 12).toInt) % 2) : Word).toNat % 4 ≠ 0 := by decide

/-- CsrInstructionResults: app mode on VRM, system mode on a CSR of 0x7C0 and above, a read of a read-only CSR.
CsrIllegalUseTraps: no CSR, the wrong mode, a write of a read-only CSR. -/
theorem witness_csrs :
    csrOf 0x800 = some .vrm ∧ csrOf 0x7C0 = some .trapcause ∧ (run sys).me.mode = .system ∧ csrOf 0xCC0 = some .actmsg ∧
    csrOf 0x300 = none ∧ (run app).me.mode = .app ∧ (0x7C0 ≤ 0x7C0 ∧ 0x7C0 ≤ 0x7FF) ∧ (0xCC0 ≤ 0xCC0 ∧ 0xCC0 ≤ 0xCFF) := by
  decide

/-- TrapEntryInAppMode, TrapInSystemModeIsCoreFault, ServiceAndIllegalTraps. -/
theorem witness_traps :
    ((run app).ctx 0 0).act = some appAct ∧ appAct.mode = .app ∧ ((run sys).ctx 0 0).act = some sysAct ∧
    sysAct.mode = .system ∧ (run app).me.act = some appAct := by decide

/-! ## Witnesses: windows, ends, messages -/

/-- Context 0 in app mode at a window depth, with l7 as given. -/
def appAt (depth : Nat) (l7 : Word) : Ctx := ({ app with depth }).writeX 23 l7

/-- WindowCallResults, LoadsHoldCallsAndEnds. -/
theorem witness_calls :
    ((run app).me.pc + BitVec.ofInt 64 (4 * (1 : BitVec 22).toInt)).toNat % 4 = 0 ∧ (run app).me.ld = 0 ∧
    (run (appAt 4 0)).me.depth < 5 ∧ (run { appAt 8 0 with st := 31 }).me.depth < 9 ∧ (run { appAt 8 0 with st := 31 }).me.st < 32 ∧
    (run (appAt 9 0)).me.depth = 9 ∧ ((run (app.writeX 8 2)).x 8).toNat % 4 ≠ 0 ∧ (run { app with ld := 1 }).me.ld ≠ 0 ∧
    (run { app with ld := 1 }).me.mode = .app := by decide

/-- WindowReturnResult: no caller; a return address that is no multiple of 4; a caller in the file; a caller spilled. -/
theorem witness_returns :
    (run (appAt 0 0)).me.depth = 0 ∧ ((run (appAt 1 2)).me.readX (reg 23)).toNat % 4 ≠ 0 ∧ 0 < (run (appAt 1 2)).me.depth ∧
    (run (appAt 5 0x200)).me.depth ≤ 5 ∧ ((run (appAt 5 0x200)).me.readX (reg 23)).toNat % 4 = 0 ∧
    5 < (run (appAt 6 0x200)).me.depth ∧ ((run (appAt 6 0x200)).me.readX (reg 23)).toNat % 4 = 0 ∧
    (run (appAt 6 0x200)).reqs = [] ∧ (run (appAt 6 0x200)).me.ld = 0 := by decide

/-- CallThenReturnRestoresWindow. -/
theorem witness_call_then_return :
    let s := run (app.writeX 8 0x200)
    s.me.depth < 5 ∧ s.me.pc.toNat % 4 = 0 ∧ (s.x 8).toNat % 4 = 0 ∧ s.me.ld = 0 ∧
    ∃ t u, exec (.wcallr 8) s = .next t ∧ exec .wret t = .next u :=
  ⟨by decide, by decide, by decide, by decide, _, _, rfl, rfl⟩

/-- Core 0 with a route on channel slot 5, one hop east. -/
def sender : Core := { core0 with slots := [(5, { Slot.blank with route := some eastRoute, rch := 3 })] }

/-- SendFillsTheSendBuffer, SendiCommitsAtOnce: with room, and SENDI in its own place. -/
theorem witness_sends :
    let s := runOn app sender
    s.me.mode = .app ∧ (s.myCore.slot 5).route = some eastRoute ∧ s.me.send.length + s.myCore.unsent s.focus.ctx false < 16 ∧
    ((0 : BitVec 5) = 0#5 ∧ 16 ≤ (18 : BitVec 5).toNat) ∧ (s.myCore.slot 5).logged = false ∧
    (runOn app { sender with outq := List.replicate 16 (outMsg 5 false) }).myCore.unsent 0 true = 0 := by decide

/-- SendTrapsAndWaits. -/
theorem witness_send_traps :
    (run sys).me.mode = .system ∧ ((run app).myCore.slot 5).route = none ∧
    (runOn { app with send := List.replicate 16 (outMsg 5 false) } sender).me.send.length = 16 ∧
    ((runOn app sender).myCore.slot 5).route ≠ none ∧
    (runOn app { sender with outq := List.replicate 16 (outMsg 5 false) }).me.send.length < 16 ∧
    16 ≤ (runOn app { sender with outq := List.replicate 16 (outMsg 5 false) }).me.send.length +
      (runOn app { sender with outq := List.replicate 16 (outMsg 5 false) }).myCore.unsent 0 false := by decide

/-- DoneEndsTheActivation: with a message in the send buffer. -/
theorem witness_done :
    let s := run { app with send := [outMsg 5 false] }
    s.me.act = some appAct ∧ appAct.mode = .app ∧ s.me.ld = 0 ∧ s.me.send ≠ [] ∧ (∀ m ∈ s.me.send, m.core = s.focus.core) := by
  decide

/-- R22, R79: the context that DONE frees starts nothing in DONE's own cycle. -/
theorem test_done_frees :
    let t := went (execDone (run app))
    t.me.act = none ∧ t.freeCtx 0 ≠ some 0 ∧ ({ t with now := t.now + 1 } : State).freeCtx 0 = some 0 := by decide

/-- R74: the scheduler sees a TAGOP on the next cycle. -/
theorem test_tag_later :
    let t := went (execTagopEnSet 5 3 (run app))
    t.myCore.tagen = 8 ∧ t.myCore.tagenSeen t.now = 0 ∧ t.myCore.tagenSeen (t.now + 1) = 8 := by decide

/-- A message in an inbox queue, and a trap context that holds it. -/
def msg0 : Msg := ⟨hdrBlank, [], 0, false, false, 2, none, some 0⟩

/-- TrapReturnResults: for a trap context of a message, of a pending start and of a close, and in app mode. -/
theorem witness_trap_return :
    (run { sys with act := some { sysAct with origin := .message msg0 } }).me.act = some { sysAct with origin := .message msg0 } ∧
    (run { sys with act := some { sysAct with origin := .pending, tag := some 3 } }).me.act
      = some { sysAct with origin := .pending, tag := some 3 } ∧
    (run { sys with act := some { sysAct with origin := .close 9, tag := some 63 } }).me.act
      = some { sysAct with origin := .close 9, tag := some 63 } ∧
    (run sys).myCore.pair = none ∧ sysAct.mode = .system ∧ (run app).me.act = some appAct ∧ appAct.mode = .app := by decide

/-! ## Witnesses: waits, commands, streams, trace -/

/-- FencesAndWaits, QueryResults: counts within limits and not, no write of a faulted command outstanding. -/
theorem witness_waits :
    (run app).reqs = [] ∧ (run app).classCount .mx ≤ (0 : BitVec 4).toNat ∧
    (runOn app { core0 with mx := 1 }).classCount .mx > (0 : BitVec 4).toNat ∧
    ((run app).me.ld = 0 ∧ (run app).me.st = 0) ∧ (run { app with ld := 1 }).me.ld ≠ 0 ∧
    ((15 : BitVec 4) = 15#4 ∧ (run app).me.st ≤ (0 : BitVec 4).toNat) ∧
    ¬ (run { app with st := 1 }).me.st ≤ (0 : BitVec 4).toNat := by decide

/-- A context whose reads of four dwords from 0x1000 have returned. -/
def gathered (w0 w1 w2 w3 : Word) : Ctx :=
  { app.writeX 8 0x1000 with gather := some ⟨0x100, [0, 1, 2, 3], [(0, w0), (1, w1), (2, w2), (3, w3)]⟩ }

/-- CommandAcceptance: ENQ and ENQM; a poisoned queue; a full one. -/
theorem witness_acceptance :
    let s := run (gathered 1 2 3 4)
    (s.bringup.sapling = true → EngineQ.mxq ≠ .mxq) ∧ (s.x 8).toNat % 32 = 0 ∧ (s.x 8).toNat < 2 ^ 48 ∧
    s.me.gather = some ⟨0x100, [0, 1, 2, 3], [(0, 1), (1, 2), (2, 3), (3, 4)]⟩ ∧ (0x100 : Word) = s.me.pc ∧
    (∀ j, j < 4 → j ∈ [0, 1, 2, 3]) ∧ s.myCore.isPoisoned .mxq = false ∧ s.myCore.queued .mxq < 16 ∧
    (runOn app { core0 with qstat := 1 }).myCore.isPoisoned .mxq = true ∧
    16 ≤ (runOn app { core0 with cmds := [(0, List.replicate 16 waitingQnop)] }).myCore.queued .mxq ∧
    (runOn app { core0 with cmds := [(0, List.replicate 16 waitingQnop)] }).myCore.isPoisoned .mxq = false := by decide

/-- GatherReadsAreIssued: the last 32 bytes of the scratchpad with room for four reads and with room for three; an access and a
PUSH of the context still to be performed; ENQM after its first read has returned, and while its last is awaited. -/
theorem witness_gather :
    (let s := run { app.writeX 8 0x7FE0 with ld := 12 }
     (s.x 8).toNat % 32 = 0 ∧ (s.x 8).toNat < 0x8000 ∧ s.me.gather = none ∧ s.me.checks = none ∧ s.me.ld ≤ 12 ∧ s.reqs = [] ∧ s.me.pushes = [] ∧
       (s.bringup.sapling = true → EngineQ.cpq0 ≠ .mxq)) ∧
    12 < (run { app with ld := 13 }).me.ld ∧
    (let r := { req0 with owner := (run app).meOwner, target := .mem .load ⟨.scratch, 0, 0⟩ 8 [] 0 }
     r.pending = true ∧ r.cls ≠ none ∧ r.owner = .ctx (run app).focus.core (run app).focus.ctx 0) ∧
    (let s := withFlight (run { app with pushes := [9] }) (flightAt 0 .queued hdrBlank
       (.pairReq 9 .push 0 ⟨.sync, 0, 64⟩ false false 0 [] 0))
     s.me.pushes.contains 9 = true ∧ s.pushOut 9 = true) ∧
    (let g : Gather := ⟨0x100, [0], [(0, 7)]⟩
     g.pc = app.pc ∧ 0 < g.got.length ∧ g.got.length < 4 ∧ g.asked = List.range g.got.length) ∧
    (let g : Gather := ⟨0x100, [0, 1, 2, 3], [(0, 7), (1, 7), (2, 7)]⟩
     g.got.length < 4 ∧ g.asked = List.range (g.got.length + 1) ∧ g.got.look g.got.length = none) := by decide

/-- StreamBinding: without a loop record, its element count 4; bound already; an impossible element size. With loop record 0:
valid, with a bound of 0, and with a store to it still to be performed. -/
def looped (record : List Byte) : State :=
  (runOn (gathered 0x1000 0 4 0) { core0 with loopsBase := 0x2000, loopsN := 1 }).writePlace ⟨.scratch, 0, 0x2000⟩ record
theorem witness_binding :
    let s := run (gathered 0x1000 0xFF 4 0)
    (s.x 8).toNat % 32 = 0 ∧ (s.x 8).toNat < 2 ^ 48 ∧ (s.me.gather.map fun g => g.got.look 0) = some (some 0x1000) ∧
    (s.myCore.stream 2).bound = false ∧ bits (0xFF : Word).toNat 7 0 = 255 ∧
    (bits (0x1000 : Word).toNat 59 58 < 2 ∧ bits (0x1000 : Word).toNat 57 56 < 2 ∧ bits (0x1000 : Word).toNat 47 0 % 8 = 0 ∧
      bits (4 : Word).toNat 31 0 ≠ 0) ∧
    ¬ bits (0xC00000000000000 : Word).toNat 59 58 < 2 ∧
    ((runOn (gathered 0x1000 0xFF 4 0) (streaming bound0)).myCore.stream 2).bound = true ∧
    bits (0 : Word).toNat 7 0 ≠ 255 ∧
    (looped (natLE 8 1 ++ natLE 8 3 ++ natLE 16 8)).readLoop 0 0 = some ⟨0, [3], [8]⟩ ∧
    (looped (natLE 8 1)).readLoop 0 0 = none ∧
    (looped []).storePending 0 ⟨.scratch, 0, 0x2000⟩ 32 9 = false ∧
    ({ looped [] with reqs := [{ req0 with target := .mem .store ⟨.scratch, 0, 0x2008⟩ 8 (natLE 8 1) 0xFFFFFFFF }] } : State).storePending
      0 ⟨.scratch, 0, 0x2000⟩ 32 9 = true := by decide

/-- StreamUnbinding and StreamPortAccesses: inbound with an element and without, outbound with and without pushed elements, another's;
with a fault, and with elements still on their way; all elements used, the wrong size; the first and the last port, of LD and SD
and of VLD and VST, with and without a predicate. -/
theorem witness_streams :
    (let st := (runOn app (streaming { bound0 with arrived := [[1, 2, 3, 4, 5, 6, 7, 8]] })).myCore.stream 2
     st.bound = true ∧ st.ctx = 0 ∧ st.epoch = (run app).me.epoch ∧ st.fault = none ∧ st.outb = false ∧ st.esize = 8 ∧
       st.used < st.count ∧ st.arrived = [[1, 2, 3, 4, 5, 6, 7, 8]]) ∧
    (let st := (runOn app (streaming { bound0 with outb := true })).myCore.stream 2
     st.outb = true ∧ st.fault = none ∧ st.pushed = [] ∧ st.inflight = [] ∧ st.pushed.length < 8) ∧
    ((runOn app (streaming { bound0 with outb := true, pushed := [[1]] })).myCore.stream 2).pushed ≠ [] ∧
    ((runOn app (streaming { bound0 with outb := true, inflight := [9] })).myCore.stream 2).inflight ≠ [] ∧
    ((runOn app (streaming { bound0 with fault := some (5, 0x1000, 0) })).myCore.stream 2).fault = some (5, 0x1000, 0) ∧
    (0 ≤ bound0.used ∧ bound0.used < 1 ∧ bound0.arrived = [] ∧ bound0.esize = 8 ∧ bound0.esize ≠ 32 ∧ bound0.esize ≠ 4) ∧
    (let st := (runOn app (streaming { bound0 with esize := 32, used := 4, arrived := [natLE 32 7] })).myCore.stream 2
     st.bound = true ∧ st.ctx = 0 ∧ st.esize = 32 ∧ st.count ≤ st.used ∧ st.arrived = [natLE 32 7]) ∧
    (let st := (runOn app (streaming { bound0 with esize := 32, outb := true, pushed := List.replicate 8 (natLE 32 7) })).myCore.stream 2
     st.bound = true ∧ st.esize = 32 ∧ st.outb = true ∧ st.used < st.count ∧ 8 ≤ st.pushed.length) ∧
    ((run (app.writeX 8 0x8000)).x 8 + blockOff (0 : BitVec 5)).toNat = 0x8000 + 32 * 0 ∧
    ((run (app.writeX 8 0x8000)).x 8 + blockOff (7 : BitVec 5)).toNat = 0x8000 + 32 * 7 ∧
    ((run app).me.active .f64 0#3 ≠ [] ∧ (0 : BitVec 3) = 0#3) ∧
    ((run { app with k := [(1, 1)] }).me.active .f64 1#3 ≠ [] ∧ ¬ (1 : BitVec 3) = 0#3) ∧
    ¬ ((run app).myCore.stream 2).bound = true ∧
    ((run (app.writeX 8 0x8000)).x 8 + BitVec.ofInt 64 (0 : BitVec 12).toInt).toNat = 0x8000 + 32 * 0 ∧
    ((run (app.writeX 8 0x8000)).x 8 + BitVec.ofInt 64 (224 : BitVec 12).toInt).toNat = 0x8000 + 32 * 7 := by decide

/-- TraceControlResults: marks of a recording block, of another, and past the address space; saturation both ways. -/
def recorder : Core := { core0 with trace := { Trace.blank with recording := true } }
def farPage : Page := ⟨0x10_0001_0000, 0x1_0000, 0x40_0002_4000_0700⟩
def far : State := runOn (app.writeX 8 0x10_0001_0000) { recorder with utlb := [farPage] }
theorem witness_trace_control :
    (∃ t l near own, (run (app.writeX 8 0x1000)).translate (run (app.writeX 8 0x1000)).meWho .app accLoad 0x1000 = .ok t l near own ∧
      l.place.space ≠ .sync) ∧
    (∃ t l near own, (run (app.writeX 8 0x1000)).translate (run (app.writeX 8 0x1000)).meWho .app accStore 0x1000 = .ok t l near own) ∧
    ((run (app.writeX 8 0x1000)).x 8).toNat = 0x1000 ∧ (run app).me.mode = .app ∧
    (run app).myCore.trace.recording = false ∧ (runOn app recorder).myCore.trace.recording = true ∧
    (runOn app recorder).myCore.trace.sat = false ∧ (runOn app recorder).myCore.trace.buf = [] ∧
    2 ^ 48 ≤ ((run (app.writeX 8 0x1000000000000)).x 8).toNat ∧ (runOn app recorder).myCore.trace.ties = [] ∧
    ∃ t l near own, far.translate far.meWho .app accLoad 0x10_0001_0000 = .ok t l near own ∧ l.mod ≠ far.moduleId ∧
      l.place.space ≠ .sync :=
  ⟨⟨_, _, _, _, rfl, by decide⟩, ⟨_, _, _, _, rfl⟩, by decide, by decide, by decide, by decide, by decide, by decide, by decide, by decide,
   _, _, _, _, rfl, by decide, by decide⟩

/-! ## Witnesses: memory accesses at issue -/

/-- ScalarLoadsIssue, ScalarStoresIssue, AtomicsIssue: misaligned addresses, an address past the space, a full class; the
last doubleword before the stream ports and the first past them. -/
theorem witness_access_checks :
    let s := run (app.writeX 8 0x1001)
    (s.x 8 + BitVec.ofInt 64 (0 : BitVec 12).toInt).toNat % 2 ≠ 0 ∧ (s.x 8 + BitVec.ofInt 64 (0 : BitVec 12).toInt).toNat % 4 ≠ 0 ∧
    (s.x 8 + BitVec.ofInt 64 (0 : BitVec 12).toInt).toNat % 8 ≠ 0 ∧
    (let t := run (app.writeX 8 0x1000000000000)
     (t.x 8 + BitVec.ofInt 64 (0 : BitVec 12).toInt).toNat % 8 = 0 ∧ 2 ^ 48 ≤ (t.x 8 + BitVec.ofInt 64 (0 : BitVec 12).toInt).toNat) ∧
    (let t := run (app.writeX 8 0x8000)
     ¬ (0x8000 ≤ (t.x 8 + BitVec.ofInt 64 (-8 : BitVec 12).toInt).toNat ∧
        (t.x 8 + BitVec.ofInt 64 (-8 : BitVec 12).toInt).toNat < 0x8100) ∧
     ¬ (t.x 8 + BitVec.ofInt 64 (0x100 : BitVec 12).toInt).toNat < 0x8100) ∧
    16 ≤ (run { app with ld := 16 }).me.ld ∧ 32 ≤ (run { app with st := 32 }).me.st ∧ 16 ≤ (run { app with sy := 16 }).me.sy ∧
    (run { app with ld := 15 }).me.ld < 16 ∧ (run { app with st := 31 }).me.st < 32 ∧ (run { app with sy := 15 }).me.sy < 16 := by
  decide

/-- An access of each kind reaches the last doubleword of the own scratchpad, and the scratchpad of core 1 through the
cluster window. -/
theorem witness_reaches :
    reachesAt (run app) accLoad 0x7FF8 8 true = some (⟨.scratch, 0, 0x7FF8⟩, false) ∧
    reachesAt (run app) accStore 0x7FF8 8 false = some (⟨.scratch, 0, 0x7FF8⟩, false) ∧
    reachesAt (run app) accAmo 0x7FF8 8 true = some (⟨.scratch, 0, 0x7FF8⟩, false) ∧
    reachesAt (run app) accLoad 0x40_8000 8 true = some (⟨.scratch, 1, 0⟩, true) ∧
    reachesAt (run app) accStore 0x40_8000 8 false = some (⟨.scratch, 1, 0⟩, true) := by decide

/-- ScalarStoresIssue: a store that a waiting STREL may absorb. -/
theorem witness_merge :
    let s := { run app with reqs := [releasing], focus := ⟨0, 0, .mxq, true⟩ }
    s.focus.merge = true ∧ s.mergeTarget s.moduleId ⟨.scratch, 0, 0x1000⟩ 8 = some releasing ∧ s.mergeTarget s.moduleId ⟨.scratch, 0, 0x1008⟩ 8 = none ∧
    (run app).focus.merge = false ∧ reachesAt s accStore 0x1000 8 false = some (⟨.scratch, 0, 0x1000⟩, false) := by decide

/-- PeerAndOrderedAccessesIssue, PeerAtomicsIssue: offsets that are misaligned, that name nothing, and that name core 1. -/
theorem witness_peer :
    let s := runOn ((app.writeX 8 0x1000).writeX 9 1) wired
    (s.x 8 + BitVec.ofInt 64 (8 * (0 : BitVec 6).toInt)).toNat % 8 = 0 ∧
    ((run (app.writeX 8 1)).x 8 + BitVec.ofInt 64 (8 * (0 : BitVec 6).toInt)).toNat % 8 ≠ 0 ∧
    ((run (app.writeX 8 1)).x 8).toNat % 4 ≠ 0 ∧
    peerAddress s 0x1000 (s.x 9).toNat = some 0x400_0080_1000 ∧ peerAddress s 0x7FF8 1 = some 0x400_0080_7FF8 ∧
    peerAddress s 0x4000_0000 1 = some 0x400_00C0_0000 ∧ peerAddress s 0x8000 1 = none ∧ peerAddress s 0x4040_0000 1 = none ∧
    peerAddress s 0x1000 524288 = none ∧ s.focus.merge = false ∧
    reachesAt s accLoad 0x400_0080_1000 8 true = some (⟨.scratch, 1, 0x1000⟩, true) ∧
    reachesAt s accStore 0x400_0080_1000 8 false = some (⟨.scratch, 1, 0x1000⟩, true) ∧
    reachesAt s accAmo 0x400_0080_1000 8 true = some (⟨.scratch, 1, 0x1000⟩, true) := by decide

/-- PeerAndOrderedAccessesIssue, BarriersAndPhasesIssue: a group in the last slot of GRP, group 0, and one not held. -/
theorem witness_groups :
    holdsGroup (runOn app { core0 with grp := 0x8_0500_0000 }) 5 ∧ holdsGroup (run app) 0 ∧ ¬ holdsGroup (run app) 5 := by
  refine ⟨.inr ⟨3, by decide, by decide, by decide⟩, .inl rfl, ?_⟩
  rintro (h | ⟨j, hj, hb, -⟩)
  · exact absurd h (by decide)
  · have e : (run app).myCore.grp = 0 := rfl
    rw [e] at hb; simp at hb

/-- AtomicsIssue, PeerAtomicsIssue: a release with counts of 0, and one that waits. -/
theorem witness_release :
    ((run app).me.ld = 0 ∧ (run app).me.st = 0 ∧ (run app).me.sy = 0) ∧ (run { app with st := 1 }).me.st ≠ 0 ∧
    ((run (app.writeX 8 0x1000)).x 8).toNat % 8 = 0 := by decide

/-- SynchronisationObjectsIssue: a page of sync space; a FIFO in a sync page that is none, and an object of kind 0. -/
def syncState : State := runOn ((app.writeX 8 0x10_0000_0020).writeX 9 0x100) wired
def objects (v : Nat) : Option Bool :=
  match syncState.translate syncState.meWho .app accSync 0x10_0000_0020 with
  | .ok t l _ _ => some (t.objOk 0x10_0000_0020 l v)
  | .wait _ => none
  | .fault _ _ => none
theorem witness_objects :
    (syncState.x 8).toNat % 32 = 0 ∧ (syncState.x 8).toNat < 2 ^ 48 ∧ syncState.me.sy < 16 ∧
    reachesAt syncState accSync 0x10_0000_0020 32 true = some (⟨.sync, 0, 0x20⟩, true) ∧
    reachesAt syncState accSync 0x10_0000_0020 32 false = some (⟨.sync, 0, 0x20⟩, true) ∧
    objects 0x100 = some true ∧ objects 0x102 = some false ∧ ((run (app.writeX 8 8)).x 8).toNat % 32 ≠ 0 := by decide

/-- BarriersAndPhasesIssue: counts at both ends of the range and past them, no BARARR outstanding and one noted, DECZ of
core 1; a phase without and with queues joined, one that has stalled before, one behind an earlier one of another context, one
still in progress, and one that waits for a command. -/
theorem witness_barriers :
    (1 ≤ (1 : Nat) ∧ 1048575 ≤ 1048575 ∧ ¬ 1 ≤ (0 : Nat) ∧ 1048575 < 1048576) ∧ syncState.reqs = [] ∧
    (∀ k, syncState.me.barrier ≠ some ((syncState.x 8).toNat, k)) ∧
    (run { app with barrier := some (0x20, 3) }).me.barrier = some (0x20, 3) ∧
    (0x7FF0 % 16 = 0 ∧ 0x7FF0 ≤ 0x7FF0) ∧
    (let s := runOn ((app.writeX 8 0x7FF0).writeX 9 1) wired
     peerAddress s (s.x 8).toNat (s.x 9).toNat = some 0x400_0080_7FF0 ∧
     reachesAt s accDecz 0x400_0080_7FF0 16 true = some (⟨.scratch, 1, 0x7FF0⟩, true)) ∧
    (run app).me.phaseNow = none ∧ (run { app with phaseAt := some (0x100, 7, 0, 7) }).me.phaseNow = some (7, 0, 7) ∧
    ((base.setCtx 0 1 { app with phaseAt := some (0x100, 2, 5, 0) }).ctx 0 1).phaseNow = some (2, 5, 0) ∧
    2 < ({ base with fresh := 3 } : State).phaseStamp ∧ 5 ∈ { core0 with phases := [5] }.phases ∧
    (runOn { app with phaseAt := some (0x100, 7, 0, 7) } { core0 with cmds := [(0, [waitingQnop])] }).myCore.before .mxq 7 = true ∧
    0 ∉ (run app).myCore.phases ∧ (run app).myCore.before .mxq (run app).phaseStamp = false ∧ (7 : BitVec 3).getLsbD 2 = true ∧
    ∃ f r t, (run app).reach (run app).focus.core ((run app).nearLoc (phasePlace (coreDie (run app).focus.core) 0)) true false true
      = .routed f r t :=
  ⟨by decide, rfl, (by intro k h; cases h), by decide, by decide,
   by decide, by decide, by decide, by decide, by decide, by decide, by decide, by decide, by decide, by decide, _, _, _, rfl⟩

/-- RouteCacheInstructions: two records that have returned, the one that goes and the one that comes back, and the key of
another site. -/
def routeWords (back : Word) : Ctx :=
  { (app.writeX 9 0x1000).writeX 8 1 with
    gather := some ⟨0x100, [0, 12], [(0, 0x4000), (1, 0), (2, 0x80000000001), (3, 0), (12, 0xC000), (13, 0), (14, back), (15, 0)]⟩ }
theorem witness_route_cache :
    (let s := run (routeWords 0x80000000000)
     (s.x 9).toNat % 32 = 0 ∧ ∃ fwd ret f, s.readRecords (s.x 9) 2 = .got [fwd, ret] s ∧ fwd.route = some f ∧
       (s.x 8).toNat < 2 ^ 31 ∧ fwd.malformed = false ∧ ret.malformed = false ∧ (s.x 8).toNat = fwd.dmod * 2 ^ 21 + fwd.dsite ∧
       (ret.route ≠ none → ret.dsite = s.myCore.site)) ∧
    (let s := run (routeWords 0x80000000002)
     ∃ fwd ret f, s.readRecords (s.x 9) 2 = .got [fwd, ret] s ∧ fwd.route = some f ∧
       ¬ (ret.route ≠ none → ret.dsite = s.myCore.site)) :=
  ⟨⟨by decide, _, _, _, rfl, rfl, by decide, by decide, by decide, by decide, by decide⟩, _, _, _, rfl, rfl, by decide⟩

/-- RouteBinding: a record for slot 63, with and without a fence, a malformed one, a slot bound before, nothing waiting. -/
def bindWords (d2 : Word) : Ctx :=
  { (app.writeX 9 0x1000).writeX 8 63 with gather := some ⟨0x100, [0], [(0, 0x4000), (1, 0), (2, d2), (3, 0)]⟩ }
theorem witness_route_binding :
    (let s := run (bindWords 0x80000000001)
     (s.x 9).toNat % 32 = 0 ∧ (s.x 8).toNat ≤ 63 ∧ (∃ r, s.readRecords (s.x 9) 1 = .got [r] s ∧ r.malformed = false ∧ r.fence = false) ∧
       s.me.send = [] ∧ s.myCore.outq = [] ∧ (∀ k, k < 4 → k ≠ s.focus.ctx → (s.ctx s.focus.core k).send = [])) ∧
    (let s := runOn (bindWords 0x2080000000001) { core0 with slots := [(63, { Slot.blank with route := some eastRoute })] }
     (∃ r, s.readRecords (s.x 9) 1 = .got [r] s ∧ r.malformed = false ∧ r.fence = true) ∧
       (s.myCore.slot 63).route = some eastRoute ∧ s.myCore.pair = none) ∧
    (let s := run (bindWords 0x80080000001)
     ∃ r, s.readRecords (s.x 9) 1 = .got [r] s ∧ r.malformed = true) :=
  ⟨⟨by decide, by decide, ⟨_, rfl, by decide, by decide⟩, by decide, by decide, by decide⟩,
   ⟨⟨_, rfl, by decide, by decide⟩, by decide, by decide⟩, _, rfl, by decide⟩

/-! ## Witnesses: vector instructions -/

/-- The arithmetic, unary, product, conversion, pack and move claims: element types, codes and elements on both sides of
each condition. -/
theorem witness_element_types :
    (ElemTy.f32.isFp = true ∧ ElemTy.i32.isFp = false) ∧ (ElemTy.f16.isFp && ElemTy.f16 != .f64) = true ∧
    (ElemTy.f64.isFp && ElemTy.f64 != .f64) = false ∧ etFmt .i32 = none ∧ (∃ f, etFmt .f32 = some f) ∧
    ((4 : Reg).toNat % 4 = 0 ∧ (5 : Reg).toNat % 4 ≠ 0) ∧
    ((12 : BitVec 4).toNat < 13 ∧ (12 : BitVec 4).toNat ≠ ElemTy.f32.code.toNat ∧ 13 ≤ (13 : BitVec 4).toNat ∧
      (2 : BitVec 4).toNat = ElemTy.f16.code.toNat ∧ 8 ≤ (8 : BitVec 4).toNat ∧ (7 : BitVec 4).toNat < 8) ∧
    ((7 : BitVec 5).toNat < ElemTy.f32.nelem ∧ ElemTy.f32.nelem ≤ (8 : BitVec 5).toNat) ∧ ((1 : BitVec 3) ≠ 0#3 ∧ (0 : BitVec 3) = 0#3) :=
  ⟨by decide, by decide, by decide, rfl, ⟨_, rfl⟩, by decide, by decide, by decide, by decide⟩

/-- IntegerReductionIsTheSum. -/
theorem witness_integer_reduction : ElemTy.i32.isFp = false ∧ ∃ t, exec (.vredAdd .i32 5 6 1) (run app) = .next t :=
  ⟨rfl, _, rfl⟩

/-- MaskInstructionResults: the value KMOV of k0 gives. -/
theorem witness_mask_value : ∀ j, j < 64 → (0xFFFFFFFF : Word).getLsbD j = (decide (j < 32) && active (run app) 0 j) := by
  decide

/-- RoundingKeepsRepresentableValues: the least value of each format. -/
theorem witness_representable :
    (∃ m e, fmtF64.value 1 = .fin false m e) ∧ (∃ m e, fmtF32.value 1 = .fin false m e) ∧ (∃ m e, fmtF16.value 1 = .fin false m e) ∧
    (∃ m e, fmtBF16.value 1 = .fin false m e) ∧ (∃ m e, fmtE5M2.value 1 = .fin false m e) ∧
    (∃ m e, fmtE4M3.value 1 = .fin false m e) ∧ (∃ m e, fmtE3M2.value 1 = .fin false m e) ∧
    (∃ m e, fmtE2M3.value 1 = .fin false m e) ∧ (∃ m e, fmtE2M1.value 1 = .fin false m e) ∧ 1 < 2 ^ fmtE2M1.width :=
  ⟨⟨_, _, rfl⟩, ⟨_, _, rfl⟩, ⟨_, _, rfl⟩, ⟨_, _, rfl⟩, ⟨_, _, rfl⟩, ⟨_, _, rfl⟩, ⟨_, _, rfl⟩, ⟨_, _, rfl⟩, ⟨_, _, rfl⟩, by decide⟩

/-- The active elements of a predicate. -/
def actives (s : State) (et : ElemTy) (k : BitVec 3) : List Nat := (List.range et.nelem).filter (active s k)

/-- VectorBlockAccesses: no element active, a misaligned address, the own scratchpad and another's. -/
theorem witness_vector_blocks :
    let s := run (app.writeX 8 0x7FE0)
    actives s .f32 1 = [] ∧ actives s .f32 0 ≠ [] ∧ (s.x 8 + BitVec.ofInt 64 (32 * (0 : BitVec 5).toInt)).toNat % 32 = 0 ∧
    ((run (app.writeX 8 8)).x 8 + BitVec.ofInt 64 (32 * (0 : BitVec 5).toInt)).toNat % 32 ≠ 0 ∧
    ¬ (0x8000 ≤ (s.x 8 + BitVec.ofInt 64 (32 * (0 : BitVec 5).toInt)).toNat) ∧
    reachesAt s accLoad 0x7FE0 32 true = some (⟨.scratch, s.myCore.site, 0x7FE0⟩, false) ∧
    reachesAt s accStore 0x7FE0 32 false = some (⟨.scratch, s.myCore.site, 0x7FE0⟩, false) ∧
    reachesAt s accLoad 0x40_8000 32 true = some (⟨.scratch, 1, 0⟩, true) ∧
    reachesAt s accStore 0x40_8000 32 false = some (⟨.scratch, 1, 0⟩, true) ∧ 1 ≠ s.myCore.site ∧ s.me.ld < 16 ∧ s.me.st < 32 := by
  decide

/-- VectorElementAccesses: strided and indexed, all parts in the own scratchpad; a store with no room. -/
def checks (s : State) (a : Acc) (n : Nat) (r : Bool) (l : List (Nat × Word)) : Bool :=
  match s.checkElems a n r l with
  | .ok _ _ => true
  | .stop _ => false
theorem witness_vector_elements :
    let s := run ((app.writeX 8 0x1000).writeX 9 (-64))
    checks s accLoad 4 true ((actives s .f32 0).map fun i => (i, s.x 8 + BitVec.ofInt 64 (i * (s.x 9).toInt))) = true ∧
    checks s accStore 4 false ((actives s .f32 0).map fun i => (i, s.x 8 + BitVec.ofInt 64 (i * (s.x 9).toInt))) = true ∧
    checks s accLoad 8 true ((actives s .f64 0).map fun i => (i, s.x 8 + BitVec.ofInt 64 (slane (s.me.readV 7) 64 i))) = true ∧
    s.me.st + (actives s .f32 0).length ≤ 32 ∧ 32 < (run { app with st := 25 }).me.st + (actives (run app) .f32 0).length ∧
    32 ≤ ElemTy.f32.width ∧ ElemTy.i16.width < 32 := by decide

/-! ## Witnesses: tile commands -/

/-- Core 0 with a QNOP at the head of mxq, or with a started command there; the queue in focus is mxq. -/
def waiting (s : Core) : State := { runOn app { s with cmds := [(0, [waitingQnop])] } with now := 1 }
def doing (c : Core) (j : Job) : State := runOn app { c with jobs := [(0, j)] }

/-- A command accepted after a store to the own scratchpad that is still to be performed. -/
def storing : State :=
  { runOn app { core0 with cmds := [(0, [⟨qnopWord, .app, 1⟩])] } with
    reqs := [{ req0 with target := .mem .store ⟨.scratch, 0, 0x2000⟩ 8 (natLE 8 7) 0xFFFFFFFF }] }

/-- StateCommandResults, CommandStarts: a command at the head, with nothing before it and with such a store; an address of each alignment, and one short of it. -/
theorem witness_at_head :
    MayStart (waiting core0) waitingQnop [] ∧
    (AtHead storing ⟨qnopWord, .app, 1⟩ [] ∧ storing.ownStoreBefore 0 1 = true ∧ decodeCommand .mxq qnopWord = .ok .qnop) ∧ (0x1020 : VAddr).toNat % 8 = 0 ∧ (0x1020 : VAddr).toNat % 16 = 0 ∧
    (0x1020 : VAddr).toNat % 32 = 0 ∧ (0x1004 : VAddr).toNat % 8 ≠ 0 ∧ (0x1008 : VAddr).toNat % 16 ≠ 0 ∧
    (0x1010 : VAddr).toNat % 32 ≠ 0 :=
  ⟨⟨⟨rfl, rfl⟩, by decide⟩, ⟨⟨rfl, rfl⟩, by decide, rfl⟩, by decide⟩

/-- CommandStarts: a loop record of one dimension, one of dimension 0, one of another format, and a poisoned one. -/
def looping (d0 bound : Nat) : State :=
  (waiting { core0 with loopsN := 1, loopsBase := 0x2000 }).writePlace ⟨.scratch, 0, 0x2000⟩ (natLE 8 d0 ++ natLE 2 bound)
def loopCase (s : State) (fmt : Nat) : Nat :=
  match s.loopAt 0 0 fmt with
  | .none => 0
  | .some _ => 1
  | .bad r _ => r
theorem witness_loop_records :
    loopCase (looping 1 3) 0 = 1 ∧ loopCase (looping 0 3) 0 = 4 ∧ loopCase (looping 0x1601 3) 0x11 = 4 ∧
    loopCase { looping 1 3 with poison := [((⟨.scratch, 0, 0x2000⟩ : Place).phys / 32, 1)] } 0 = 6 := by decide

/-- WaitingCommandResults: QFENCE with the queue it joins poisoned, with an earlier command there, and with none. -/
def fencing : Job := { jobOf (.qfence 2) with cmd := ⟨qnopWord, .app, 5⟩ }
theorem witness_qfence :
    Doing (doing core0 fencing) (.qfence 2) fencing ∧ (2 : BitVec 3).getLsbD (queueNo .cpq0) = true ∧
    EngineQ.cpq0 ≠ (doing core0 fencing).focus.queue ∧
    (doing { core0 with qstat := 2 } fencing).myCore.isPoisoned .cpq0 = true ∧
    (doing { core0 with cmds := [(1, [waitingQnop])] } fencing).myCore.before .cpq0 5 = true ∧
    (doing core0 fencing).myCore.before .cpq0 5 = false ∧ (doing core0 fencing).myCore.isPoisoned .cpq0 = false :=
  ⟨⟨rfl, rfl, rfl⟩, by decide⟩

/-- Where an access of the engine goes. -/
def engAt (s : State) (j : Job) (a : Acc) (dst needReply : Bool) (m : Nat) (va : Int) : Option Place :=
  match s.engLoc j a dst needReply m va with
  | .ok _ l _ => some l.place
  | .wait _ => none
  | .fault _ _ _ => none
theorem engLoc_of {s : State} {j : Job} {a : Acc} {d r : Bool} {m : Nat} {va : Int} {p : Place} (h : engAt s j a d r m va = some p) :
    ∃ u l route, s.engLoc j a d r m va = .ok u l route ∧ l.place = p := by
  unfold engAt at h
  split at h
  case h_1 u l route e => exact ⟨u, l, route, e, by simpa using h⟩
  case h_2 => cases h
  case h_3 => cases h

/-- WaitingCommandResults: QWAIT before its read, with a word that satisfies it, with one that does not, and its poll both
sides of 16 cycles. -/
def qwaiting (buf : List Byte) : Job := { jobOf (.qwait false 0x1008 7) with buf }
theorem witness_qwait :
    Doing (doing core0 (qwaiting [])) (.qwait false 0x1008 7) (qwaiting []) ∧
    (doing core0 (qwaiting [])).reading (qwaiting []) = false ∧
    engAt (doing core0 (qwaiting [])) (qwaiting []) accLoad false true 8 0x1008 = some ⟨.scratch, 0, 0x1008⟩ ∧
    (qwaiting (natLE 8 7)).buf.length = 8 ∧ 7 ≤ leNat (natLE 8 7) ∧ ¬ 7 ≤ leNat (natLE 8 6) ∧
    (let j := { qwaiting [] with polled := some 0 }
     ((doing core0 j).core 0).job .mxq = some j ∧ (doing core0 j).now < 0 + 16 ∧
     0 + 16 ≤ ({ doing core0 j with now := 16 } : State).now ∧
     engAt ((({ doing core0 j with now := 16 } : State).aim 0 .mxq).setMyJob { j with polled := none }) { j with polled := none }
       accLoad false true 8 0x1008 = some ⟨.scratch, 0, 0x1008⟩) :=
  ⟨⟨rfl, rfl, rfl⟩, by decide, by decide, by decide, by decide, by decide, rfl, by decide, by decide, by decide⟩

/-- A read of the engine is outstanding. -/
def readingReq : Req := { req0 with owner := .engine 0 .mxq 0, cls := none, dest := .engine }

/-- CopyCommandSteps, and the runs of IndexedCopyCommandSteps: a read, a read outstanding, a write, the run's end, a fault on
each side, the last tuple's end. -/
def copying : Job := jobOf (.cpy 255 0x1000 0x2000 64)
def copyState (j : Job) : State := doing core0 j
theorem witness_copy :
    Doing (copyState copying) (.cpy 255 0x1000 0x2000 64) copying ∧ copying.cursor < copying.tuples ∧ copying.buf = [] ∧
    copying.pos < 64 ∧ (copyState copying).reading copying = false ∧
    engAt (copyState copying) copying accLoad false true 8 0x1000 = some ⟨.scratch, 0, 0x1000⟩ ∧
    ({ copyState copying with reqs := [readingReq] } : State).reading copying = true ∧
    ({ copying with buf := [1, 2] } : Job).buf ≠ [] ∧
    engAt (copyState { copying with buf := [1, 2] }) { copying with buf := [1, 2] } accStore true false 32 0x2000
      = some ⟨.scratch, 0, 0x2000⟩ ∧
    64 ≤ ({ copying with pos := 64 } : Job).pos ∧ ({ copying with cursor := 1 } : Job).tuples ≤ 1 ∧
    (match (copyState copying).engLoc copying accLoad false true 8 0xA0_0000 with
     | .fault _ r _ => r
     | _ => 0) = 5 ∧
    (match (copyState copying).engLoc copying accStore true false 32 0xA0_0000 with
     | .fault _ r _ => r
     | _ => 0) = 5 ∧
    (let j := jobOf (.cpyfill 255 0x2000 64 7)
     Doing (copyState j) (.cpyfill 255 0x2000 64 7) j ∧ j.cursor < j.tuples ∧ j.pos < 64) :=
  ⟨⟨rfl, rfl, rfl⟩, by decide, by decide, by decide, by decide, by decide, by decide, by decide, by decide, by decide, by decide,
   by decide, by decide, ⟨rfl, rfl, rfl⟩, by decide, by decide⟩

/-- IndexedCopyCommandSteps: the header asked for, good at both ends of its count, bad; an index asked for and read; the
list's end. -/
def indexing : Job := jobOf (.cpyg 0x1000 0x2000 0x3000)
theorem witness_indexed_copy :
    Doing (copyState indexing) (.cpyg 0x1000 0x2000 0x3000) indexing ∧ indexing.hdr = none ∧ indexing.buf = [] ∧
    (copyState indexing).reading indexing = false ∧ (0x3000 : VAddr).toNat % 8 = 0 ∧
    engAt (copyState indexing) indexing accLoad false true 8 0x3000 = some ⟨.scratch, 0, 0x3000⟩ ∧
    (let w := natLE 8 (65536 + 5 * 2 ^ 32)
     w.length = 8 ∧ 1 ≤ leNat w % 2 ^ 32 ∧ leNat w % 2 ^ 32 ≤ 65536 ∧ leNat w / 2 ^ 32 % 8 ≤ 5) ∧
    ¬ 1 ≤ leNat (natLE 8 0) % 2 ^ 32 ∧
    (let j := { indexing with hdr := some (2, 32) }
     j.cursor < 2 ∧ j.idx = none ∧ (natLE 4 3).length = 4 ∧
     engAt (copyState j) j accLoad false true 8 (0x3000 + 8 + 4 * 0 : Nat) = some ⟨.scratch, 0, 0x3008⟩) ∧
    2 ≤ ({ indexing with hdr := some (2, 32), cursor := 2 } : Job).cursor ∧
    ({ indexing with hdr := some (2, 32), idx := some (-1) } : Job).idx = some (-1) :=
  ⟨⟨rfl, rfl, rfl⟩, by decide⟩

/-- MatrixLoadResults: formats that are legal and not, with loop records that are valid, invalid and of another format, and reads
left and all made. -/
def loading (d0 bound : Nat) : State :=
  (waiting { core0 with mxfmta := 0x101816, mxfmtb := 0x1D, loopsN := 1, loopsBase := 0x2000 }).writePlace ⟨.scratch, 0, 0x2000⟩
    (natLE 8 d0 ++ natLE 2 bound)
theorem witness_matrix_loads :
    (MayStart (loading 1 3) waitingQnop [] ∧ (((loading 1 3).sampled 0).fmta % 2 ^ 8 = 0x16 ∧ loopCase (loading 1 3) 0x16 = 1) ∧
      loopCase (loading 0 3) 0x16 = 4 ∧ ((loading 1 3).sampled 0).fmtb % 2 ^ 8 = 0x1D ∧ loopCase (loading 1 3) 0x1D = 1 ∧
      loopCase (loading 0x1601 3) 0x1D = 4) ∧
    (let s := waiting { core0 with mxfmta := 0x101816, mxfmtb := 0x1D }
     MayStart s waitingQnop [] ∧ (s.sampled 0).fmta % 2 ^ 8 ∈ [0x16, 0x18, 0x1A, 0x1B, 0x1C, 0x1D] ∧
     1 ≤ (s.sampled 0).fmta / 2 ^ 8 % 32 ∧ (s.sampled 0).fmta / 2 ^ 8 % 32 ≤ 24 ∧
     1 ≤ (s.sampled 0).fmta / 2 ^ 16 % 32 ∧ (s.sampled 0).fmta / 2 ^ 16 % 32 ≤ 16 ∧
     (s.sampled 0).fmtb % 2 ^ 8 ∈ [0x16, 0x18, 0x1A, 0x1B, 0x1C, 0x1D]) ∧
    ¬ ((waiting core0).sampled 0).fmta % 2 ^ 8 ∈ [0x16, 0x18, 0x1A, 0x1B, 0x1C, 0x1D] ∧
    ¬ ((waiting core0).sampled 0).fmtb % 2 ^ 8 ∈ [0x16, 0x18, 0x1A, 0x1B, 0x1C, 0x1D] ∧
    (let j := { jobOf (.mxloada 0 255 0x1000 0) with cfg := ⟨0x010116, 0x16, 0, 0⟩ }
     let runs := loadaRuns j 0x1000 0 1 32 (tagBits 0x16) false
     Doing (doing core0 j) (.mxloada 0 255 0x1000 0) j ∧ j.buf.length < (runs.map Prod.snd).sum ∧ (doing core0 j).reading j = false ∧
     runAt runs j.buf.length = some (0x1000, (runs.map Prod.snd).sum) ∧
     engAt (doing core0 j) j accLoad false true 8 0x1000 = some ⟨.scratch, 0, 0x1000⟩ ∧
     (List.replicate (runs.map Prod.snd).sum (0 : Byte)).length = (runs.map Prod.snd).sum) ∧
    (let j := { jobOf (.mxloadb true 0 255 0x1000 0) with cfg := ⟨0x010116, 0x16, 0, 0⟩ }
     let runs := loadbRuns j 0x1000 0 (if tagWide 0x16 then 10 else 32) (8 * tagBits 0x16) false
     Doing (doing core0 j) (.mxloadb true 0 255 0x1000 0) j ∧ j.buf.length < (runs.map Prod.snd).sum ∧
     engAt (doing core0 j) j accLoad false true 8 0x1000 = some ⟨.scratch, 0, 0x1000⟩) :=
  ⟨⟨⟨⟨rfl, rfl⟩, by decide⟩, by decide⟩, ⟨⟨⟨rfl, rfl⟩, by decide⟩, by decide⟩, by decide, by decide, ⟨⟨rfl, rfl, rfl⟩, by decide⟩,
    ⟨⟨rfl, rfl, rfl⟩, by decide⟩⟩

/-- A matrix state for a dense run of one macro. -/
def mb : Macro := ⟨true, 0x1D, false, List.replicate 32 (List.replicate 64 1), List.replicate 32 0x20⟩
def ab : ABuf := ⟨true, 0x1D, 64, 2, List.replicate 2 (List.replicate 64 1), List.replicate 2 [0x20]⟩
def matrixCore : Core := { core0 with mb0 := mb, mb1 := mb, abuf := ab }

/-- MatrixRunResults: reserved kept-count, invalid macros, a wrong buffer, a start; equal and unequal scales; a sparse run. -/
theorem witness_matrix_runs :
    (let s := waiting { matrixCore with mxfmtb := 0x31D }
     MayStart s waitingQnop [] ∧ (s.sampled 0).fmtb / 2 ^ 8 % 4 = 3) ∧
    (waiting core0).myCore.mb0.valid = false ∧ (waiting { matrixCore with abuf := .blank }).myCore.abuf.valid = false ∧
    (waiting matrixCore).myCore.mb0.valid = true ∧ (waiting matrixCore).myCore.abuf.valid = true ∧
    (waiting matrixCore).myCore.abuf.len = 1 * 64 ∧
    (let j := jobOf (.mxrun false false false 0 0)
     Doing (doing matrixCore j) (.mxrun false false false 0 0) j ∧ j.buf = []) ∧
    segEqual (ab.scales.getD 0 []) 0 64 = true ∧ segEqual [0x20, 0x21] 0 128 = false ∧
    (let j := jobOf (.mxrun false false true 0 0x1000)
     Doing (doing matrixCore j) (.mxrun false false true 0 0x1000) j ∧ j.buf.length < 1 * 4 * (64 / keptN 0) * 2 ∧
     engAt (doing matrixCore j) j accLoad false true 8 0x1000 = some ⟨.scratch, 0, 0x1000⟩) :=
  ⟨⟨⟨⟨rfl, rfl⟩, by decide⟩, by decide⟩, by decide, by decide, by decide, by decide, by decide, ⟨⟨rfl, rfl, rfl⟩, rfl⟩, by decide, by decide,
   ⟨⟨rfl, rfl, rfl⟩, by decide⟩⟩

/-- DenseRunAccumulatesProducts. -/
theorem witness_dense_run :
    ab.rows ≤ 16 ∧ ab.codes.length = ab.rows ∧ (∀ row ∈ ab.codes, row.length = 64) ∧
    (∀ row ∈ ab.scales, ∀ x ∈ row, scaleFault ab.fmt x = false) ∧ (∀ x ∈ mb.scales, scaleFault mb.fmt x = false) ∧
    1 < ab.rows ∧ 31 < (if mb.wide then 10 else 32) ∧ ab.rows ≤ 64 / 32 := by decide

/-- PassValues, PassEntry, RunEntersPasses: a halfword of two kept elements, a scale byte in fault and one not, the entries of R165's
example, one macro and both. -/
theorem witness_passes :
    maskOk 2 ([0x801].getD 0 0) = true ∧ gatherAt true 2 [0x801] 0 0 1 = 11 ∧ scaleFault 0x18 0x40 = true ∧
    scaleFault ab.fmt 0x20 = false ∧ enterPass 0 3 (-3) (-3) = (3, 0) ∧ enterPass 0 3 (-3) (-1) = (1, 0x10) ∧
    enterPass 1 2 (-3) (-1) = (1, 0x10) ∧ enterPass ((2 : Int) ^ 95 - 1) 1 0 0 = ((2 : Int) ^ 95 - 1, 0x20) ∧
    ab.rows ≤ 16 ∧ mb.wide = mb.wide ∧ 0 < 64 ∧ 1 < ab.rows ∧ 31 < (if mb.wide then 10 else 32) := by decide

/-- MatrixOutputSteps: the end, a misaligned row, a write. -/
theorem witness_matrix_output :
    (let j := { jobOf (.mxout false .fp32 255 0x1000) with cursor := 16 }
     Doing (doing core0 j) (.mxout false .fp32 255 0x1000) j ∧ 16 ≤ j.cursor) ∧
    (((0x1002 + 0 * (32 * 4) : Nat) : Int) % 4 ≠ 0) ∧
    (let j := jobOf (.mxout false .fp32 255 0x1000)
     Doing (doing core0 j) (.mxout false .fp32 255 0x1000) j ∧ j.cursor < 16 ∧ j.pos < 32 * 4 ∧ j.pos % 4 = 0 ∧
     (∀ r, r < 16 → ((0x1000 + r * (32 * 4) : Nat) : Int) % 4 = 0) ∧
     engAt (doing core0 j) j accStore true false 32 0x1000 = some ⟨.scratch, 0, 0x1000⟩) :=
  ⟨⟨⟨rfl, rfl, rfl⟩, by decide⟩, by decide, ⟨rfl, rfl, rfl⟩, by decide⟩

/-- SignalCommandSteps: each of the three operations; DECZ of a word outside the scratchpads; after its access. -/
theorem witness_signals :
    (let j := jobOf (.qsignalAdd 0x1008 7)
     Doing (doing core0 j) (.qsignalAdd 0x1008 7) j ∧ j.cursor = 0 ∧
     engAt (doing core0 j) j accAmo true true 8 0x1008 = some ⟨.scratch, 0, 0x1008⟩) ∧
    (let j := jobOf (.qsignalDecz 0x1010)
     Doing (doing core0 j) (.qsignalDecz 0x1010) j ∧
     engAt (doing core0 j) j accDecz true true 16 0x1010 = some ⟨.scratch, 0, 0x1010⟩ ∧
     engAt (doing core0 j) j accDecz true true 16 0x80_0000 = some ⟨.cluster, 0, 0⟩) ∧
    (let j := jobOf (.qsignalBararr 0x10_0000_0020)
     Doing (doing wired j) (.qsignalBararr 0x10_0000_0020) j ∧
     engAt (doing wired j) j accSync true true 32 0x10_0000_0020 = some ⟨.sync, 0, 0x20⟩) ∧
    ({ jobOf (.qsignalAdd 0x1008 7) with cursor := 1 } : Job).cursor ≠ 0 :=
  ⟨⟨⟨rfl, rfl, rfl⟩, by decide⟩, ⟨⟨rfl, rfl, rfl⟩, by decide⟩, ⟨⟨rfl, rfl, rfl⟩, by decide⟩, by decide⟩

/-- CommandEnds: a finished command with and without an access outstanding, a read that has returned, a rejected word. -/
theorem witness_command_ends :
    (let j := { jobOf .qnop with done := true }
     ((doing core0 j).core 0).job .mxq = some j ∧ ((doing core0 j).aim 0 .mxq).accessing j = false ∧
     (({ doing core0 j with reqs := [readingReq] } : State).aim 0 .mxq).accessing j = true) ∧
    (let r := { readingReq with stage := .performed [1, 2] false true }
     let s := { doing core0 copying with reqs := [r] }
     (s.core 0).job .mxq = some copying ∧ s.reqs = [r] ∧ r.owner = (s.aim 0 .mxq).jobOwner copying ∧
     r.stage = .performed [1, 2] false true ∧ ∃ p n d c, r.target = .mem .load p n d c) ∧
    decodeCommand .mxq 0xFF = .error 1 :=
  ⟨⟨rfl, by decide, by decide⟩, ⟨rfl, rfl, by decide, by decide, _, _, _, _, rfl⟩, rfl⟩


/-- MovesRun: a copy whose turn it is, and one whose engine has a stream to serve first. -/
def sharing (last : Nat) : State :=
  { runOn app { core0 with jobs := [(1, copying)], turns := [(0, last)],
                           streams := [(2, { Stream.blank with bound := true, ctx := 0, count := 4 })] } with
    focus := ⟨0, 0, .cpq0, false⟩ }
theorem witness_turns :
    Doing (sharing 0) (.cpy 255 0x1000 0x2000 64) copying ∧ (sharing 0).myTurn = false ∧ copying.pos < 64 ∧
    (sharing 0).reading copying = false ∧ (sharing 3).myTurn = true := ⟨⟨rfl, rfl, rfl⟩, by decide⟩

/-- CommandEnds: a read of a command that has faulted, whose data no one awaits; and none such. -/
def lostRead : Req := { readingReq with target := .mem .load ⟨.scratch, 0, 0⟩ 8 [] 0, stage := .performed [1, 2] false true }
theorem witness_orphans :
    (∃ u, State.takeOrphan { runOn app core0 with reqs := [lostRead] } 0 (core0.lostReq 0 .mxq) = some u) ∧
    (State.takeOrphan { doing core0 copying with reqs := [lostRead] } 0 ((doing core0 copying).myCore.lostReq 0 .mxq)).isNone = true :=
  ⟨⟨_, rfl⟩, by decide⟩
/-! ## Witnesses: starts, choice and the inbox -/

/-- Tag 1 with its entry, enabled; a message for it at the head of queue 2; a core with them and no context in use. -/
def withMsg (e : TagEntry) (m : Msg) : State := idle { inbox e with queues := [(m.queue, [m])] }

/-- StartChoice, EligibilityRules, MessageStarts: a message, one of a gated tag, and a codelet post. -/
theorem witness_message_starts :
    (withMsg entry1 (headMsg 0)).winner 0 = some 2 ∧ (withMsg entry1 (headMsg 0)).eligible 0 2 = true ∧
    ((withMsg entry1 (headMsg 0)).core 0).queues.at 2 [] = [headMsg 0] ∧ (headMsg 0).lock = none ∧ (headMsg 0).post = none ∧
    (withMsg { entry1 with gated := true } (headMsg 0)).winner 0 = some 2 ∧
    (headMsg 0).hdr.round = (((withMsg { entry1 with gated := true } (headMsg 0)).core 0).rounds.at 1 .blank).cur ∧
    (withMsg { entry1 with queue := 7 } { headMsg 0 with queue := 7, post := some (0x300, 0x40) }).winner 0 = some 7 := by
  decide

/-- IssueChoice: contexts 0 and 1 ready, one of them in system mode; one ready; a context whose DONE waits for a load,
which is not ready. -/
theorem witness_issue_choice :
    (((run app).setCtx 0 1 sys).choose 0 3 false).1 = some 1 ∧ ((run app).choose 0 1 false).1 = some 0 ∧
    ((State.withWord (run { app with ld := 1 }) 0x100 ((encode .done).getD 0)).choose 0 1 false).1 = none ∧
    (run app).unitTakes 0 0 false = true ∧ (run app).atHand 0 0 = true ∧ (run app).held 0 0 = false := by
  decide

/-- EligibilityRules, PendingAndCloseStarts: a pending bit and a completed round. -/
theorem witness_pending_and_close :
    (idle { inbox entry1 with tagpend := 2 }).winner 0 = some (8 + 2 * 1) ∧ (idle { inbox entry1 with tagpend := 2 }).eligible 0 10 = true ∧
    (idle { inbox { entry1 with gated := true, join := 1, close := 0x300 } with rounds := [(1, { RoundState.blank with setCur := 1 })] }).winner 0
      = some (9 + 2 * 1) ∧
    (idle { inbox { entry1 with gated := true, join := 1, close := 0x300 } with rounds := [(1, { RoundState.blank with setCur := 1 })] }).eligible 0 11
      = true ∧
    (idle { inbox { entry1 with gated := true, join := 1, close := 0x300 } with
        rounds := [(1, { RoundState.blank with setCur := 1, again := true })] }).winner 0 = some 11 ∧
    ((idle (inbox entry1)).core 0).reclose = [] ∧
    (idle { inbox { entry1 with gated := true, join := 1, close := 0x300 } with reclose := [(1, 9, 4)], rounds := [(1, RoundState.blank)] }).winner 0 = some 11 := by
  decide

/-- GatedMessagesAreClassified: the next round with room and without, the last later round, the first earlier one. -/
theorem witness_gated_messages :
    let s := fun r => withMsg { entry1 with gated := true } (headMsg r)
    let d := fun r => ((headMsg r).hdr.round + 65536 - (((s r).core 0).rounds.at 1 .blank).cur) % 65536
    (s 1).tagMay 0 1 = true ∧ (((s 1).core 0).table.at 1 .blank).gated = true ∧ 1 ≤ d 1 ∧ d 32767 < 32768 ∧ 32768 ≤ d 32768 ∧
    ((s 1).core 0).hold.length < 32 ∧ 32 ≤ (List.replicate 32 (Held.data (headMsg 1))).length := by decide

/-- SystemStarts: a management message that arrives, one that waits, a MOVED notice, a report, the trap of a broken pair, a frame
that has come home. -/
theorem witness_system_starts :
    let mgmt := flightAt 0 (.eject 0) { hdrBlank with kind := .mgmt } (.mgmt [7])
    (idle { core0 with sysq := [.management [7]] }).winner 0 = some 200 ∧
    (idle { core0 with sysq := [.management [7]] }).mgmtAt 0 = none ∧
    (withFlight State.reset mgmt).mgmtAt 0 = some mgmt ∧ (idle { core0 with sysq := [.moved 7] }).winner 0 = some 200 ∧
    (idle { core0 with sysq := [.report 7] }).winner 0 = some 200 ∧
    (idle { core0 with sysq := [.pairFault appAct] }).winner 0 = some 200 ∧ (idle { core0 with sysq := [.pairFault appAct] }).mgmtAt 0 = none ∧
    firstReport (idle { core0 with sysq := [.report 7] }).reports 0 = none ∧ (⟨7, [], none⟩ : ReportFrame).ingress = [] := by
  decide

/-- A packet for core 0 on receiver channel 0, at its inbox. -/
def arriving (k : PktKind) (gen : Nat) (treated : Bool) : Flight :=
  { flightAt 0 (.eject 0) { hdrBlank with kind := k, tag := 1, gen } (.message [5]) with treated }

/-- MessageArrivals: nothing of the generation hold goes before a message that was refused. -/
theorem witness_held_message :
    (withFlight (idle (inbox entry1)) (arriving .data 0 true)).releaseAll 0 = withFlight (idle (inbox entry1)) (arriving .data 0 true) :=
  rfl

/-- MessageArrivals: unbound, of an invalid tag, with room, with a full queue, with a full sub-ring; refused before. -/
theorem witness_message_arrivals :
    let f := arriving .data 0 false
    (withFlight (idle (inbox entry1)) f).atInbox 0 0 .data = some f ∧ f.treated = false ∧
    (withFlight (idle (inbox entry1)) (arriving .data 0 true)).atInbox 0 0 .data = some (arriving .data 0 true) ∧
    ((withFlight (idle core0) f).core 0).bound.getLsbD 0 = false ∧
    ((idle { inbox entry1 with table := [] }).core 0 |>.table.at 1 .blank).valid = false ∧
    Welcome (withFlight (idle (inbox entry1)) f) 0 f.pkt ∧ (((idle (inbox entry1)).core 0).table.at 1 .blank).valid = true ∧
    ((idle (inbox entry1)).core 0).rings.at 2 [] = [] ∧ (((idle (inbox entry1)).core 0).queues.at 2 []).length < 16 ∧
    16 ≤ (List.replicate 16 (headMsg 0)).length ∧ (idle core0).bringup.sapling = false ∧
    64 ≤ (List.replicate 64 (headMsg 0)).length :=
  ⟨by decide, by decide, by decide, by decide, by decide, ⟨by decide, by decide, by decide, by decide⟩, by decide, by decide,
   by decide, by decide, by decide, by decide⟩

/-- InboxEvents: a marker and a fence that arrive, a sub-ring with a message, an argument update that may take effect. -/
theorem witness_inbox_events :
    let c := inbox { entry1 with gated := true, join := 1 }
    (withFlight (idle c) (arriving .marker 0 false)).atInbox 0 0 .marker = some (arriving .marker 0 false) ∧
    Welcome (withFlight (idle c) (arriving .marker 0 false)) 0 (arriving .marker 0 false).pkt ∧
    (∀ g ∈ ((idle c).core 0).joinsOn 0, ((idle c).core 0).ahead g 0 ≤ 1) ∧ ((idle c).core 0).joinsOn 0 = [1] ∧
    ((idle c).core 0).ahead 1 1 = 1 ∧
    (withFlight (idle c) (arriving .fence 0 false)).atInbox 0 0 .fence = some (arriving .fence 0 false) ∧
    ((idle { core0 with rings := [(2, [headMsg 0])] }).core 0).rings.at 2 [] = [headMsg 0] ∧
    ((idle { inbox entry1 with staged := [(1, 9)] }).core 0).staged.look 1 = some 9 ∧
    (idle { inbox entry1 with staged := [(1, 9)] }).tagRuns 0 1 = false ∧
    (∀ e ∈ ((idle { inbox entry1 with staged := [(1, 9)] }).core 0).table, ¬ (e.2.valid = true ∧ e.2.gated = true)) :=
  ⟨by decide, ⟨by decide, by decide, by decide, by decide⟩, by decide, by decide, by decide, by decide, by decide,
   by decide, by decide, by decide⟩

/-- GenerationsKeepOrder: a message of the next generation, and its fence with it held, at the last generation. -/
theorem witness_generations :
    (let f := arriving .data 1 false
     (withFlight (idle (inbox entry1)) f).atInbox 0 0 .data = some f ∧ f.pkt.hdr.gen ≠ ((idle (inbox entry1)).core 0).gexp.at 0 0 ∧
     ((idle (inbox entry1)).core 0).genHold.length < 16) ∧
    (let p := (arriving .data 0 false).pkt
     let c := { inbox entry1 with genHold := [(p, 4)], gexp := [(0, 3)] }
     (withFlight (idle c) (arriving .fence 3 false)).atInbox 0 0 .fence = some (arriving .fence 3 false) ∧
     (3 = (c.gexp.at 0 0) ∧ c.genHold = [(p, 4)] ∧ p.hdr.kind = .data ∧ p.hdr.gen = (3 + 1) % 4)) := by decide

/-- InjectionAndTimeLimit: a committed message, alone and in a checked pair; a limit reached, one that is not, with an access
that holds the context back; an activation whose first instruction has not issued. -/
def issuedAct : Activation := { appAct with issued := true }
theorem witness_injection_and_limit :
    ((run app).ctx 0 0).act = some appAct ∧ appAct.issued = false ∧ issuedAct.issued = true ∧ issuedAct.mode = .app ∧
    (let s := { runOn { app with act := some issuedAct } { core0 with actlim := 5 } with reqs := [{ req0 with holds := true }] }
     (s.ctx 0 0).act = some issuedAct ∧ (s.core 0).actlim ≠ 0 ∧ ∃ r ∈ s.reqs, r.holds = true ∧ r.owner = .ctx 0 0 (s.ctx 0 0).epoch) ∧
    (({ core0 with pair := some ⟨1, [], [], [], [], none⟩, outq := [outMsg 5 false] } : Core).pair = some ⟨1, [], [], [], [], none⟩) ∧
    ((idle { core0 with outq := [outMsg 5 false] }).core 0).outq = [outMsg 5 false] ∧
    ((runOn app { core0 with actlim := 5 }).ctx 0 0).act = some appAct ∧
    appAct.begun + ((runOn app { core0 with actlim := 5 }).core 0).actlim.toNat ≤ ({ run app with now := 5 } : State).now ∧
    ((runOn app { core0 with actlim := 5 }).core 0).actlimAt = none ∧
    ((runOn app { core0 with actlim := 5, actlimAt := some 5 }).core 0).actlimAt = some 5 ∧
    (runOn app { core0 with actlim := 5 }).now < appAct.begun + ((runOn app { core0 with actlim := 5 }).core 0).actlim.toNat := by
  decide

/-! ## Witnesses: homes, replies and the mesh -/

/-- An access of context 0 of core 0 to its own memory, next to be performed. -/
def withReq (r : Req) : State := { run app with reqs := [r] }
theorem ownTurn_of (t : Target) (h : (withReq (ownReq t)).ownReady (ownReq t) = true) : OwnTurn (withReq (ownReq t)) 0 (ownReq t) :=
  ⟨rfl, rfl, rfl, h, rfl⟩

/-- OwnStoresArePerformed, OwnLoadsArePerformed, OwnAtomicsArePerformed: the last bytes of DRAM and of the scratchpad; a
word in error; nothing queued. -/
theorem witness_own_accesses :
    OwnTurn (withReq (ownReq (.mem .store ⟨.scratch, 0, 0x7FF8⟩ 8 (natLE 8 5) 0xFFFFFFFF))) 0
      (ownReq (.mem .store ⟨.scratch, 0, 0x7FF8⟩ 8 (natLE 8 5) 0xFFFFFFFF)) ∧ (natLE 8 5).length = 8 ∧
    (withReq (ownReq (.mem .store ⟨.scratch, 0, 0x7FF8⟩ 8 (natLE 8 5) 0xFFFFFFFF))).mirrors 0 = [] ∧
    OwnTurn (withReq (ownReq (.mem .load ⟨.dram, 0, 0x3FFFF8⟩ 8 [] 0))) 0 (ownReq (.mem .load ⟨.dram, 0, 0x3FFFF8⟩ 8 [] 0)) ∧
    OwnTurn (withReq (ownReq (.mem .cas ⟨.dram, 0, 0x3FFFFC⟩ 4 (natLE 4 5) 7))) 0 (ownReq (.mem .cas ⟨.dram, 0, 0x3FFFFC⟩ 4 (natLE 4 5) 7)) ∧
    (withReq (ownReq (.mem .cas ⟨.dram, 0, 0x3FFFFC⟩ 4 (natLE 4 5) 7))).poisoned ⟨.dram, 0, 0x3FFFFC⟩ 4 = false ∧
    ({ withReq (ownReq (.mem .cas ⟨.dram, 0, 0x3FFFFC⟩ 4 (natLE 4 5) 7)) with
       poison := [((⟨.dram, 0, 0x3FFFFC⟩ : Place).phys / 32, 1)] } : State).poisoned ⟨.dram, 0, 0x3FFFFC⟩ 4 = true ∧
    MemOp.cas ∉ [.load, .store, .decz] ∧
    NothingQueued (withReq (ownReq (.mem .load ⟨.dram, 0, 0x3FFFF8⟩ 8 [] 0))) :=
  ⟨ownTurn_of _ (by decide), by decide, by decide, ownTurn_of _ (by decide), ownTurn_of _ (by decide), by decide, by decide,
   by decide, by intro q hq; cases hq with | head => decide | tail _ h => cases h⟩

/-- RoutedRequestsArePerformed: a load, a store, a store of another module, a store into a checked pair's scratchpad and an atomic
at their home. -/
def routed (op : MemOp) (p : Place) (n : Nat) (data : List Byte) (smod : Nat) : Flight :=
  flightAt 1 (.eject 0) { hdrBlank with kind := .memReq, smod } (.memReq 9 op p n data 0xFFFFFFFF [] false false)
/-- The running core a cycle after reset. -/
def later : State := { run app with now := 1 }
def mirrored : State :=
  { (later.setCore 1 { Core.blank 1 with pair := some ⟨9, [], [], [], [], none⟩ }) with sites := [(1, { Site.blank with core := some 1 })] }
theorem witness_routed_requests :
    (HomeTurn (withFlight mirrored (routed .store ⟨.scratch, 1, 8⟩ 8 (natLE 8 5) 0)) (routed .store ⟨.scratch, 1, 8⟩ 8 (natLE 8 5) 0) 9
      .store ⟨.scratch, 1, 8⟩ 8 (natLE 8 5) 0xFFFFFFFF [] ∧ mirrored.mirrors 1 ≠ [] ∧ (∀ o ∈ mirrored.mirrors 1, o < 2 ^ 21)) ∧
    (inMap ⟨.dram, 1, 8⟩ 8 = false ∧ MemOp.amoAdd ∉ [.load, .store, .decz]) ∧
    HomeTurn (withFlight later (routed .load ⟨.dram, 1, 8⟩ 8 [] 0)) (routed .load ⟨.dram, 1, 8⟩ 8 [] 0) 9 .load ⟨.dram, 1, 8⟩ 8 []
      0xFFFFFFFF [] ∧
    HomeTurn (withFlight later (routed .store ⟨.dram, 1, 8⟩ 8 (natLE 8 5) 3)) (routed .store ⟨.dram, 1, 8⟩ 8 (natLE 8 5) 3) 9 .store
      ⟨.dram, 1, 8⟩ 8 (natLE 8 5) 0xFFFFFFFF [] ∧ (natLE 8 5).length = 8 ∧ 3 ≠ (run app).moduleId ∧
    HomeTurn (withFlight later (routed .amoAdd ⟨.dram, 1, 8⟩ 8 (natLE 8 5) 0)) (routed .amoAdd ⟨.dram, 1, 8⟩ 8 (natLE 8 5) 0) 9 .amoAdd
      ⟨.dram, 1, 8⟩ 8 (natLE 8 5) 0xFFFFFFFF [] ∧ (run app).poisoned ⟨.dram, 1, 8⟩ 8 = false :=
  ⟨⟨⟨by decide, rfl, ⟨_, _, rfl⟩, by decide, by decide⟩, by decide, by decide⟩, by decide,
   ⟨by decide, rfl, ⟨_, _, rfl⟩, by decide, by decide⟩, ⟨by decide, rfl, ⟨_, _, rfl⟩, by decide, by decide⟩, by decide, by decide,
   ⟨by decide, rfl, ⟨_, _, rfl⟩, by decide, by decide⟩, by decide⟩

/-- ElementsAreOneUnit: the last part of an element across a page to come to its home, with the other part still on its way
and with it there. -/
def part0 (id off : Nat) (stage : Stage) : Req :=
  { req0 with id, group := 4, owner := .stream 0 2 0, cls := none, target := .mem .load ⟨.dram, 0, off⟩ 8 [] 0, stage }
theorem witness_element_parts :
    (let r := part0 5 0 .going
     let q := part0 4 0x3FFFF8 .going
     let s := { run app with reqs := [q, r] }
     s.req 5 = some r ∧ r.route = none ∧ s.ownReady r = true ∧ s.siblings r = [q] ∧ q.isHeld = false) ∧
    (let r := part0 5 0 .going
     let q := part0 4 0x3FFFF8 (.held none)
     let s := { run app with reqs := [q, r] }
     s.req 5 = some r ∧ s.ownReady r = true ∧ s.siblings r = [q] ∧ q ∈ s.reqs ∧ ∀ x ∈ s.reqs, x.stage ≠ .queued) := by decide

/-- LoadReplies, StoreCompletions: performed accesses with a count to return, and a release both ways. -/
theorem witness_replies :
    (let r := { req0 with stage := .performed (natLE 8 5) false true, dest := .glob 5 8 true }
     (withReq r).req 0 = some r ∧ r.cls = some .ld ∧ r.owner = .ctx 0 0 ((withReq r).ctx 0 0).epoch ∧
     (∀ q ∈ (withReq r).reqs, q.group = r.group → q = r)) ∧
    (let r := { req0 with stage := .performed (natLE 8 5) false true, dest := .win 3 8 true }
     (withReq r).req 0 = some r ∧ 3 / 16 = ((withReq r).ctx 0 0).depth) ∧
    (let r := { req0 with stage := .performed (natLE 32 5) false true, dest := .block 5 0xFF }
     (withReq r).req 0 = some r ∧ (natLE 32 5).length = 32) ∧
    ((withReq { req0 with stage := .performed [] true true }).ctx 0 0).act = some appAct ∧
    (let r := { req0 with cls := some .st, stage := .performed [] false true, target := .mem .store ⟨.dram, 0, 0⟩ 8 (natLE 8 5) 0 }
     (withReq r).req 0 = some r ∧ r.dest = .none ∧ isStore r.target = true) ∧
    (let r := { releasing with id := 3 }
     (withReq r).req 3 = some r ∧ r.stage = .release ∧ (withReq r).heldBack r = false ∧ isStore r.target = true ∧
     (∀ q ∈ (withReq r).reqs, q.id < 3 → q.pending = true → ∀ e', q.owner ≠ .ctx 0 0 e')) ∧
    (∃ q ∈ [ownReq (.mem .load ⟨.dram, 0, 0⟩ 8 [] 0), { releasing with id := 3 }], q.id < 3 ∧ q.pending = true ∧
      (∃ e', q.owner = .ctx 0 0 e') ∧ ∀ b, q.dest ≠ .fetch b) :=
  ⟨by decide, by decide, by decide, by decide, by decide,
   ⟨by decide, by decide, by decide, by decide, by
      intro q hq hlt; cases hq with
      | head => exact absurd hlt (by decide)
      | tail _ h => cases h⟩,
   ⟨_, .head _, by decide, by decide, ⟨_, rfl⟩, by intro b h; cases h⟩⟩

/-- CounterRecordSteps: records that count 2, 1 and 0, one with a reserved bit, and a tag whose entry is valid; a core with room for
the codelet and one whose queue 7 and its sub-ring are full; the operation as a packet. -/
def counter (d0 d1 : Nat) : State :=
  ({ (idle (inbox entry1)) with reqs := [ownReq (.mem .decz ⟨.scratch, 0, 0x7FF0⟩ 16 [] 0)] }).writePlace ⟨.scratch, 0, 0x7FF0⟩
    (natLE 8 d0 ++ natLE 8 d1)
def countOf (s : State) : Nat × Nat :=
  (leNat ((s.readPlace ⟨.scratch, 0, 0x7FF0⟩ 16).take 8), leNat ((s.readPlace ⟨.scratch, 0, 0x7FF0⟩ 16).drop 8))
def deczPacket : Flight :=
  flightAt 0 (.eject 0) { hdrBlank with kind := .memReq } (.memReq 9 .decz ⟨.scratch, 0, 0x7FF0⟩ 16 [] 0 [] false false)
theorem witness_counter_records :
    (let s := { withFlight (counter (2 ^ 32 + 1) 0x300) deczPacket with now := 1, reqs := [] }
     s.ejected 0 (homePort ⟨.scratch, 0, 0x7FF0⟩) = some deczPacket ∧ deczPacket.pkt.hdr.kind = .memReq ∧ s.served deczPacket = true ∧
       recordOf s ⟨.scratch, 0, 0x7FF0⟩ = (2 ^ 32 + 1, 0x300)) ∧
    (recordOk (2 ^ 32 + 2, 0x300) ∧ ¬ recordOk (2 ^ 38, 0x300) ∧ 1 < (2 ^ 32 + 2) % 2 ^ 32 ∧ (2 ^ 32 + 1) % 2 ^ 32 = 1 ∧ 2 ^ 32 % 2 ^ 32 = 0) ∧
    TakesCodelet (counter (2 ^ 32 + 1) 0x300) 0 ⟨.scratch, 0, 0x7FF0⟩ ∧
    64 ≤ ((({ inbox entry1 with rings := [(7, List.replicate 64 (headMsg 0))] } : Core)).rings.at 7 []).length ∧
    ({ counter (2 ^ 32 + 1) 0x300 with poison := [((⟨.scratch, 0, 0x7FE0⟩ : Place).phys / 32, 3)] } : State).poisoned
      ⟨.scratch, 0, 0x7FF0⟩ 16 = true ∧
    OwnTurn (counter (2 ^ 32 + 2) 0x300) 0 (ownReq (.mem .decz ⟨.scratch, 0, 0x7FF0⟩ 16 [] 0)) ∧
    countOf (counter (2 ^ 32 + 2) 0x300) = (2 ^ 32 + 2, 0x300) ∧ countOf (counter (2 ^ 32 + 1) 0x300) = (2 ^ 32 + 1, 0x300) ∧
    countOf (counter (2 ^ 32) 0x300) = (2 ^ 32, 0x300) ∧ countOf (counter (2 ^ 38) 0x300) = (2 ^ 38, 0x300) ∧
    (counter (2 ^ 32 + 2) 0x300).mirrors 0 = [] ∧ (counter (2 ^ 32 + 2) 0x300).poisoned ⟨.scratch, 0, 0x7FF0⟩ 16 = false ∧
    ((counter (2 ^ 32 + 1) 0x300).site 0).core = some 0 ∧ (((counter (2 ^ 32 + 1) 0x300).core 0).table.at 1 .blank).valid = true ∧
    0x7FF0 + 16 ≤ 0x8000 :=
  ⟨by decide, ⟨⟨by decide, by decide⟩, (fun h => absurd h.1 (by decide)), by decide, by decide, by decide⟩,
   ⟨by decide, by decide, by decide⟩, by decide, by decide, ⟨rfl, rfl, rfl, by decide, by decide⟩, by decide, by decide, by decide, by decide,
   by decide, by decide, by decide, by decide, by decide⟩

/-- SynchronisationReplies: an answer of each kind at its core. -/
def syReq (t : Target) (d : Dest) : Req := { req0 with id := 9, cls := some .sy, target := t, dest := d, stage := .going }
def syAnswer (k : PktKind) (b : Body) : Flight := flightAt 0 (.eject 0) { hdrBlank with kind := k } b
def syState (r : Req) (f : Flight) : State := { withReq r with net := [f] }
theorem witness_sy_replies :
    (let r := syReq (.sync ⟨.sync, 0, 0⟩ (.amo .amoAdd true 1 0)) (.glob 5 8 true)
     let f := syAnswer .syncRep (.syncRep 9 (.value 7))
     (syState r f).replyAt 0 = some f ∧ (syState r f).req 9 = some r ∧ r.owner = .ctx 0 0 ((syState r f).ctx 0 0).epoch ∧
     f.pkt.body = .syncRep 9 (.value 7)) ∧
    (let r := syReq (.sync ⟨.sync, 0, 0⟩ (.barWait none)) (.glob 5 8 false)
     let f := syAnswer .syncRep (.syncRep 9 (.status 0 3))
     (syState r f).replyAt 0 = some f ∧ (syState r f).req 9 = some r) ∧
    (let r := syReq (.sync ⟨.sync, 0, 0⟩ .barArr) (.barrier 0x10_0000_0020)
     let f := syAnswer .syncRep (.syncRep 9 (.gen 3))
     (syState r f).replyAt 0 = some f ∧ (syState r f).req 9 = some r) ∧
    (let r := syReq (.sync ⟨.sync, 0, 0⟩ (.phase 3)) .none
     let f := syAnswer .syncRep (.syncRep 9 .done)
     (syState r f).replyAt 0 = some f ∧ (syState r f).req 9 = some r) ∧
    (let r := syReq (.pair .pop 0 ⟨.sync, 0, 0⟩ true false 0) (.vec 5 0 32)
     let f := syAnswer .pairRep (.pairRep 9 7 false false 0 true false)
     (syState r f).replyAt 0 = some f ∧ (syState r f).req 9 = some r ∧ ((syState r f).ctx 0 0).act = some appAct) := by decide

/-- EngineOperations: each operation at the engine of die 0, on units with a barrier, an object and neither. -/
def atEngine (b : Body) (d : Die) : State :=
  withFlight (later.setDie 0 { d with attach := [(16, 65604)] }) (flightAt 65604 .intake { hdrBlank with kind := .syncReq } b)
def bar1 : Die := { Die.blank with units := [(1, 2)], bars := [(1, ⟨2, 1, 4, some 3⟩)], barWaits := [⟨1, 7, [], 0⟩] }
theorem witness_engine_operations :
    (∀ b ∈ [Body.syncReq 9 ⟨.sync, 0, 0x20⟩ (.amo .amoAdd true 1 0) [], .syncReq 9 ⟨.sync, 0, 0x20⟩ (.barInit 2) [],
        .syncReq 9 ⟨.sync, 0, 0x20⟩ .barArr [], .syncReq 9 ⟨.sync, 0, 0x20⟩ (.barWait (some 4)) [],
        .syncReq 9 ⟨.sync, 0, 0x20⟩ (.objInit 0x100) []],
      (atEngine b bar1).nextOp 0 = some (flightAt 65604 .intake { hdrBlank with kind := .syncReq } b)) ∧
    bar1.units.at (0x20 / 32) 0 ≠ 0 ∧ Die.blank.units.at (0x20 / 32) 0 = 0 ∧
    (atEngine .empty Die.blank).poisoned ⟨.sync, 0, 0x20⟩ 8 = false ∧ Die.blank.bars.look 1 = none ∧
    bar1.bars.look 1 = some ⟨2, 1, 4, some 3⟩ ∧ 1 + 1 = 2 ∧ 0 + 1 ≠ 2 ∧ bar1.barWaits.length < 1024 ∧
    1024 ≤ (List.replicate 1024 (⟨1, 7, [], 0⟩ : BarWaiter)).length ∧ (some 3 : Option Nat) ≠ some 4 := by decide

/-- ObjectOperations: no object, an object of another width, room, a waiting pop, a full object, elements with and without a
waiting push, an empty object with room in the wait list and without. -/
def atObject (op : PairOp) (d : Die) : State := atEngine (.pairReq 9 op 0 ⟨.sync, 0, 0x20⟩ false false 5 [] 0) d
def objDie (elems : List Vec) (waits : List Waiter) : Die :=
  { Die.blank with units := [(1, 1)], objs := [(1, ⟨0xFFFFFFFF, 2, false, 0, elems⟩)], waits }
def waiter (v : Option Vec) : Waiter := ⟨0x20, v, 4, [], 1, false, false⟩
theorem witness_object_operations :
    (atObject .push Die.blank).nextOp 0 = some (flightAt 65604 .intake { hdrBlank with kind := .syncReq }
      (.pairReq 9 .push 0 ⟨.sync, 0, 0x20⟩ false false 5 [] 0)) ∧
    Die.blank.objs.look 1 = none ∧ (objDie [] []).objs.look 1 = some ⟨0xFFFFFFFF, 2, false, 0, []⟩ ∧
    ((objDie [1] []).objs.look 1).map (fun o => decide (o.elems.length < o.cap)) = some true ∧
    ((objDie [1, 2] []).objs.look 1).map (fun o => decide (o.cap ≤ o.elems.length)) = some true ∧
    (objDie [] [waiter none]).waits.filter (fun w => w.base == 0x20 && (w.push.isSome == false)) = [waiter none] ∧
    (objDie [1] [waiter (some 5)]).waits.filter (fun w => w.base == 0x20 && (w.push.isSome == true)) = [waiter (some 5)] ∧
    (objDie [1] []).waits.length < 256 ∧ 256 ≤ (List.replicate 256 (waiter none)).length := by decide

/-- StoreCompletions: a release behind an injected PUSH that still waits at its engine. -/
theorem test_release_waits :
    let s : State := { (run { app with pushes := [1] }).setDie 0 { Die.blank with waits := [{ waiter (some 5) with id := 1 }] } with
      reqs := [{ releasing with id := 3 }] }
    (∃ n ∈ (s.ctx 0 0).pushes, n < 3 ∧ s.pushOut n = true) ∧ (went (execStrelInject 3 s)).reqs = s.reqs := by decide

/-- PhaseSteps: the last local member's arrival in a die that is not the home; the only die with members reports; another die is
awaited; a release with members to free. -/
def groupCore : Core := { core0 with named := true, grp := 0x1_0000_0005 }
theorem witness_phases :
    (let s := { atEngine (.syncReq 9 (phasePlace 0 5) (.phase 5) []) Die.blank with
                  members := [(0, groupCore.grp)], groups := [(5, { (run app).group 5 with home := 3 })] }
     (s.nextOp 0).isSome = true ∧ 0 ≠ (s.group 5).home ∧ 0 < s.localMembers 0 5 ∧
     ((s.die 0).phases.at 5 ⟨[], false, []⟩).sent = false) ∧
    (let s := { atEngine (.phase 0 5 false) Die.blank with members := [(0, groupCore.grp)] }
     (s.nextOp (s.group 5).home).isSome = true ∧ 0 < s.localMembers 0 5 ∧
     (∀ k, k < 64 → 0 < s.localMembers k 5 → k = 0)) ∧
    (let s := { atEngine (.phase 0 5 false) Die.blank with members := [(0, groupCore.grp), (524287, groupCore.grp)] }
     0 < s.localMembers 63 5 ∧ 63 ∉ (s.die (s.group 5).home).diesDone.at 5 []) ∧
    ((atEngine (.phase 3 5 true) Die.blank).nextOp 0).isSome = true ∧
    (let d := { Die.blank with phases := [(5, ⟨[⟨2, 0, 8, []⟩, ⟨1, 0, 7, []⟩], true, []⟩)] }
     (d.phases.at 5 ⟨[], false, []⟩).releasing = []) ∧
    (let d := { Die.blank with phases := [(5, ⟨[], false, [⟨1, 0, 7, []⟩]⟩)] }
     (d.phases.at 5 ⟨[], false, []⟩).releasing = [⟨1, 0, 7, []⟩]) := by decide

/-- StreamElements: an inbound and an outbound element, and one that returns. -/
def parts1 (s : State) (st : Stream) : Bool :=
  match elementParts (st.addr st.next) st.esize with
  | some [(va, n)] => (match s.streamParts 0 (.stream 0 2 st.serial) st.mode (if st.outb then accStore else accLoad) (!st.outb) [(va, n)] [] with
    | .ok _ [(va', n', _, _)] => va == va' && n == n'
    | _ => false)
  | _ => false
theorem witness_stream_elements :
    (let st := { bound0 with base := 0x1000 }
     let s := runOn app (streaming st)
     (s.core 0).stream 2 = st ∧ st.bound = true ∧ st.fault = none ∧ st.next < st.count ∧ st.next < st.used + 8 ∧ parts1 s st = true) ∧
    (let st := { bound0 with base := 0x1000, outb := true, pushed := [natLE 8 5] }
     let s := runOn app (streaming st)
     st.pushed ≠ [] ∧ s.reqs = [] ∧ parts1 s st = true) ∧
    (let r := { req0 with id := 4, group := 4, owner := .stream 0 2 0, cls := none, stage := .performed (natLE 8 5) false true }
     let s := { runOn app (streaming { bound0 with inflight := [4] }) with reqs := [r] }
     s.reqs.filter (fun x => x.group == 4) = [r] ∧ ((s.core 0).stream 2).inflight = [4] ∧ (∀ x ∈ s.reqs, x.id = 4 → x = r) ∧
       (s.takeOrphan 0 ((s.core 0).strayReq 0 2)).isNone = true) ∧
    (let s := runOn app (streaming { bound0 with base := 0x1000 })
     (s.core 0).turnOf 0 3 (s.ready 0 0) = true) ∧
    (let r := { lostRead with owner := .stream 0 2 5 }
     (streaming bound0).strayReq 0 2 r = true ∧ isStore r.target = false) := by
  decide

/-- FetchBlocks. -/
theorem witness_fetch_blocks :
    let r := { req0 with cls := none, dest := .fetch 0x40000000, stage := .performed (natLE 32 5) false true }
    let s := { run { app with blocks := [⟨0x40000000, .app, [], false⟩] } with reqs := [r] }
    s.reqs = [r] ∧ r.owner = .ctx 0 0 (s.ctx 0 0).epoch ∧ (∃ k ∈ (s.ctx 0 0).blocks, k.base = 0x40000000) :=
  ⟨rfl, by decide, by decide⟩

/-- A packet in the input buffer of site 5's router, on a route of one run. -/
def inRouter (r : Run) (h : Header) (b : Body) : Flight :=
  { flightAt 5 .buffer { h with runs := [r] } b with inDir := some .w, first := true }
def eastRun : Run := ⟨.e, false, true, 1⟩

/-- RouterChecks: each check, at a packet it concerns. -/
theorem witness_router_checks :
    isReservedKind (.reserved 3) = true ∧ isReservedKind .data = false ∧ hdrBlank.dsite ≠ 5 ∧
    (State.reset.site 0).core ≠ none ∧ (inRouter eastRun hdrBlank .empty).ingressed = false ∧
    ({ flightAt 0 .buffer hdrBlank .empty with inDir := some .w } : Flight).ingressed = true ∧
    hop 5 .e = some 6 ∧ State.reset.linkDown 5 .e = false ∧ ({ State.reset with sites := [(5, { Site.blank with down := 4 })] } : State).linkDown 5 .e = true ∧
    hop 0 .n = none ∧ portAt 0 .n = none := by decide

/-- RouterSteps: a drop, a transfer packet at a site with no move, an ejection, a hop with credits and without, in its lane's turn and out of it, a crossing. -/
theorem witness_router_steps :
    (let f := inRouter eastRun { hdrBlank with kind := .migrate, fin := true, dsite := 5 } .empty
     (withFlight State.reset f).hopOf f = .discard ∧
     ({ withFlight State.reset f with sites := [(5, { Site.blank with migTarget := some 0 })] } : State).hopOf f = .eject 0) ∧
    (let f := inRouter eastRun { hdrBlank with kind := .reserved 3 } .empty
     (withFlight State.reset f).flight 0 = some f ∧ (withFlight State.reset f).bufferHead f = true ∧
     (withFlight State.reset f).hopOf f = .drop 6) ∧
    (let f := inRouter eastRun { hdrBlank with fin := true, dsite := 5 } .empty
     (withFlight State.reset f).behindPair f = false ∧ (withFlight State.reset f).laneTurn f ⟨4, f.lane, true⟩ = true ∧
     (withFlight State.reset f).hopOf f = .eject 0 ∧ State.reset.used.at (bufKey 5 4 f.lane) 0 + f.need ≤ 4) ∧
    (let f := inRouter eastRun hdrBlank .empty
     (withFlight State.reset f).hopOf f = .link 6 .e ∧ f.pairingPoint = false ∧ (withFlight State.reset f).behindPair f = false ∧
     (withFlight State.reset f).laneTurn f ⟨Dir.e.code, f.hopped.lane, true⟩ = true ∧
     State.reset.used.at (bufKey 6 (dirOpposite .e).code f.hopped.lane) 0 + f.hopped.need ≤ 4 ∧
     4 < ({ State.reset with used := [(bufKey 6 (dirOpposite .e).code f.hopped.lane, 4)] } : State).used.at
       (bufKey 6 (dirOpposite .e).code f.hopped.lane) 0 + f.hopped.need) ∧
    (let s := State.reset.setPort 0 { Port.blank with state := 2, mode := 1, enable := true }
     let f := { flightAt 26 .buffer { hdrBlank with runs := [⟨.n, true, false, 0⟩], ext := true, dmod := 3 } .empty with first := true }
     s.hopOf f = .cross 0 0 ∧ s.mayCross 0 f.hopped = true ∧
     (withFlight s f).laneTurn f ⟨f.run.dir.code, f.hopped.lane, true⟩ = true) := by decide

/-- LinkSteps: credits owed; a packet whose check on a link may still fail, one whose check is over; 15 and 16 failures. -/
def passed (came : Nat) : Passed := ⟨5, .w, came, 0, ⟨hdrBlank, .empty⟩, 0, false, true, came + 1⟩
theorem witness_links :
    ({ State.reset with owed := [(128 * 5 + 8 * Dir.w.code + 1, 2)] } : State).owed = (128 * 5 + 8 * Dir.w.code + 1, 2) :: [] ∧
    (let f := { inRouter eastRun hdrBlank .empty with trail := [passed 0] }
     InCheck (withFlight { State.reset with now := 1 } f) 5 .e f (passed 0) ∧ (passed 0).tail < 9 ∧
     hop 4 .e = some 5) ∧ State.reset.linkDown 4 .e = false ∧
    ({ State.reset with crcFails := [(4 * 4 + Dir.e.code, 15)] } : State).crcFails.at (4 * 4 + Dir.e.code) 0 < 16 ∧
    16 ≤ ({ State.reset with crcFails := [(4 * 4 + Dir.e.code, 16)] } : State).crcFails.at (4 * 4 + Dir.e.code) 0 ∧
    (∀ f ∈ (withFlight State.reset (inRouter eastRun hdrBlank .empty)).net, f.spot ≠ .replay 4 .e) :=
  ⟨by decide, ⟨rfl, by decide, by decide⟩, by decide, by decide, by decide, by decide⟩

/-- PairingBufferSteps: a push that meets a parked pop, one that parks, one without a window, a parked one whose window is
over. -/
def pairing (id score : Nat) (op : PairOp) (win : Nat) (spot : Spot) : Flight :=
  { inRouter eastRun { hdrBlank with kind := .pairReq, dsite := 7, score }
      (.pairReq id op win ⟨.sync, 0, 0x20⟩ false false 5 [⟨.w, false, false, 1⟩, ⟨.w, false, false, 5⟩] 0) with id, stamp := id, spot }
theorem witness_pairing_buffer :
    (let push := pairing 2 1 .push 8 .buffer
     let pop := pairing 1 2 .pop 8 (.parked 0 8 0)
     let s := { State.reset with net := [pop, push], now := 2 }
     s.flight 2 = some push ∧ s.atPoint push = true ∧ s.departOne 5 = none ∧
     (∀ g ∈ s.net, g.portOrder < push.portOrder → s.atPoint g = false) ∧ s.eligibleHere push = true ∧ s.partner push = some pop ∧ (pairInfo push.pkt).isSome = true ∧ (pairInfo pop.pkt).isSome = true ∧
     (s.replyPath pop.pkt 5).isSome = true) ∧
    (let push := pairing 2 1 .push 255 .buffer
     let s := withFlight State.reset push
     s.partner push = none ∧ s.parkedAhead push = none ∧ (s.parkedAt 5).length < 8 ∧
     (pairInfo push.pkt).map (fun a => decide (0 < a.win)) = some true) ∧
    ((pairInfo (pairing 2 1 .push 0 .buffer).pkt).map fun a => a.win) = some 0 ∧
    (let g := pairing 1 2 .pop 8 (.parked 0 8 0)
     let s := { withFlight State.reset g with now := 9 }
     oldest ((s.parkedAt 5).filter fun x => decide (x.dueAt ≤ s.now) && s.parkedFirst x) = some g) := by
  decide

/-! ## Witnesses: translation -/

/-- LowAddressesTranslate: the boundaries of the core-local map, the last core of the block, and both kinds of access that
may not use it. -/
theorem witness_low_addresses :
    0x7FFF < 0x8000 ∧ accLoad.sync ≠ 2 ∧ accSync.sync = 2 ∧ accLoad.x = false ∧ accFetch.x = true ∧
    (127 < 128 ∧ (0x40_0000 + 0x8000 * 127 + 5) / 0x8000 = 128 + 127 ∧ coreLX 7183 = coreLX 0 / 16 * 16 + 127 % 16 ∧
      coreLY 7183 = coreLY 0 / 8 * 8 + 127 / 16 ∧ (State.reset.siteOf 7183).isSome = true) ∧
    (0x80_0000 ≤ 0x9F_FFFF ∧ 0x9F_FFFF < 0xA0_0000) ∧ (0x8000 ≤ 0x3F_FFFF ∧ 0x3F_FFFF < 0x40_0000) ∧
    (0xA0_0000 ≤ 0x3FFF_FFFF ∧ 0x3FFF_FFFF < 0x4000_0000) ∧ (0x4040_0000 ≤ 0xFFFF_FFFF ∧ 0xFFFF_FFFF < 2 ^ 32) ∧
    2 ^ 48 ≤ 2 ^ 48 := by decide

/-- HighAddressesTranslate: a core that holds a leaf of each target; busy, without rights, of another module, and with its
last byte in and out of bounds; an app page at the system's part of DRAM. -/
def leafState (leaf : Word) : State := runOn app { core0 with utlb := [⟨0x10_0000_0000, 0x1_0000, leaf⟩] }
def leafFields (leaf : Word) : Nat × Nat × Nat × Bool × Bool :=
  (bits leaf.toNat 32 30, bits leaf.toNat 53 33, bits leaf.toNat 63 54, bit leaf.toNat 7, bit leaf.toNat 8)
theorem witness_high_addresses :
    (leafState 0x700).slotBad 0x10_0000_0000 = false ∧
    ((leafState 0x700).core (reqCore (.context 0 0))).held (.context 0 0) 0x10_0000_FFFF = some ⟨0x10_0000_0000, 0x1_0000, 0x700⟩ ∧
    (leafState 0x700).bringup.sapling = false ∧
    -- the own DRAM range: its first and last byte, and the slot of the core they stand for
    (0x4000_0000 ≤ 0x4000_0000 ∧ 0x403F_FFFF < 0x4040_0000 ∧
      0x400_0000_0000 + reqCore (.context 0 0) * 0x80_0000 + 0x40_0000 + (0x4000_0000 - 0x4000_0000) = 0x400_0040_0000) ∧
    (runOn app { core0 with utlb := [⟨0x400_0040_0000, 0x20_0000, 0x700⟩] }).slotBad 0x400_0040_0000 = false ∧
    ((runOn app { core0 with utlb := [⟨0x400_0040_0000, 0x20_0000, 0x700⟩] }).core 0).held (.context 0 0) 0x400_0040_0000 =
      some ⟨0x400_0040_0000, 0x20_0000, 0x700⟩ ∧
    -- a fetch at or above 2^32
    accFetch.x = true ∧ ¬ (0x4000_0000 ≤ 2 ^ 32 ∧ 2 ^ 32 < 0x4040_0000) := by decide

/-- HighAddressesTranslate: leaves of each target, a busy one, one without rights, of another group, of another module. -/
theorem witness_leaves :
    [0x700, 0x4000_0700, 0x8000_0700, 0xC000_0700, 
     0x1_0000_0700, 0x780, 0x600, 0x41_0000_0700, 0x0040_0001_0000_0700, 0x1_4000_0700].map leafFields =
      [(0, 0, 0, false, true), (1, 0, 0, false, true), (2, 0, 0, false, true), (3, 0, 0, false, true), (4, 0, 0, false, true),
       (0, 0, 0, true, true), (0, 0, 0, false, false), (4, 32, 0, false, true), (4, 0, 1, false, true), (5, 0, 0, false, true)] := by decide

/-- HighAddressesTranslate: the rights of accesses, and the bounds. -/
theorem witness_leaf_bounds :
    (bit 0x700 8 = true ∧ bit 0x700 9 = true ∧ bit 0x700 10 = true) ∧ accLoad.sync = 0 ∧ accSync.sync = 2 ∧ accAmo.sync ≠ 0 ∧
    bits 0x700 29 20 * 0x1_0000 + 0xFFFF < Space.size .dram ∧ Space.size .scratch ≤ bits 0x4000_0700 29 20 * 0x1_0000 + 0x8000 ∧
    0x3E_0000 ≤ bits 0x3E0_0700 29 20 * 0x1_0000 + 0 ∧ bits 0x3D0_0700 29 20 * 0x1_0000 + 0xFFFF < 0x3E_0000 := by
  decide

/-- WindowHolesFault: an absent core, and both ends of the hole. -/
theorem witness_window_holes :
    (State.reset.setCore 5 { Core.blank 5 with absent := true }).siteOf 5 = none ∧ 5 < 524288 ∧ (0x8000 ≤ 0x8000 ∧ 0x3F_FFFF < 0x40_0000) := by
  decide

/-- WalkReadsTheTable: a table of one entry on each level, as it stands at the root: nothing, a leaf there, inner entries
down to each level, leaves that are good and not. -/
def table (e0 e1 e2 e3 : Nat) : State :=
  (((State.reset.writePlace ⟨.die, 0, rootTable⟩ (natLE 8 e0)).writePlace ⟨.die, 0, 0x1000⟩ (natLE 8 e1)).writePlace
    ⟨.die, 0, 0x2000⟩ (natLE 8 e2)).writePlace ⟨.die, 0, 0x3000⟩ (natLE 8 e3)
def walkCase (s : State) : Nat :=
  match s.walkTable 0 5 with
  | .none => 0
  | .leaf p => p.size
  | .malformed _ => 1
theorem witness_walks :
    walkCase (table 0 0 0 0) = 0 ∧ walkCase (table 0x1001 0 0 0) = 0 ∧ walkCase (table 0x1001 0x2001 0 0) = 0 ∧
    walkCase (table 0x1001 0x2001 0x3001 0) = 0 ∧ walkCase (table 3 0 0 0) = 1 ∧
    walkCase (table 0x1001 0x1_4001_0703 0 0) = 2 ^ 26 ∧ walkCase (table 0x1001 0x703 0 0) = 1 ∧
    walkCase (table 0x1001 0x2001 0x8703 0) = 2 ^ 21 ∧ walkCase (table 0x1001 0x2001 0x703 0) = 1 ∧
    walkCase (table 0x1001 0x2001 0x3001 0x703) = 2 ^ 16 ∧ walkCase (table 0x1001 0x2001 0x3001 0x8703) = 1 ∧
    walkCase (table 0x1001 0x2001 0x3001 1) = 1 ∧ leafOk (2 * 2 ^ 15 + 5 * 2 ^ 30 + 0x703) 1 = true ∧
    -- a target-5 leaf over an enabled row and over a disabled one (R309)
    walkCase (table 0x1001 0x1_4001_0703 0 0) = 2 ^ 26 ∧
    (let s := { table 0x1001 0x1_4001_0703 0 0 with grafts := [(siteRowKey 0, 31)] }
     bits 0x1_4001_0703 63 54 = s.moduleId ∧ s.skip (bits 0x1_4001_0703 53 33) = 31 ∧ walkCase s = 1) := by decide

/-- LeafSearch: in the holder, in the die cache, failed, waiting, and a miss with walkers, with a queue place, with neither. -/
def busyDie : Die := { Die.blank with walks := (List.range 96).map fun k => ⟨k + 1, []⟩ }
theorem witness_leaf_search :
    let p : Page := ⟨0x10_0000_0000, 0x1_0000, 0x700⟩
    (({ Die.blank with dtc := [(dtcSet 0x10_0000_0000 0x1_0000, [p])] } : Die).probe 0x10_0000_0005 = some p ∧ p.covers 0x10_0000_0005 = true) ∧
    ((run app).core 0).held (.context 0 0) 0x10_0000_0005 = none ∧ ((run app).die 0).probe 0x10_0000_0005 = none ∧
    ({ Die.blank with failed := [(0x10_0000, .context 0 0, 0)] } : Die).failed.contains (0x10_0000, Requester.context 0 0, 0) = true ∧
    (Die.blank.failed.contains (0x10_0000, Requester.context 0 0, 0) = false) ∧
    ({ Die.blank with walks := [⟨0x10_0000, [.context 0 0]⟩] } : Die).waiting 0x10_0000 (.context 0 0) = true ∧
    Die.blank.waiting 0x10_0000 (.context 0 0) = false ∧ (∃ w ∈ [(⟨0x10_0000, []⟩ : Walk)], w.page = 0x10_0000) ∧
    (∃ x ∈ ({ Core.blank 3 with drains := [{ Stream.blank with serial := 6 }] } : Core).drains, x.serial = 6) ∧
    96 ≤ busyDie.walks.length ∧ (¬ ∃ w ∈ busyDie.walks, w.page = 0x10_0000) ∧ busyDie.missq.length < 256 ∧
    256 ≤ (List.replicate 256 (7, Requester.context 0 0)).length := by decide

/-- WalksComplete, MissesAreTriedAgain: a walk with a requester, and each of its results; a refused and a busy requester. -/
theorem witness_walk_results :
    let d : Die := { Die.blank with walks := [⟨0, [.context 0 0]⟩] }
    (((table 0x1001 0x2001 0x3001 0x703).setDie 0 d).die 0).walks.find? (fun w => w.page == 0) = some ⟨0, [.context 0 0]⟩ ∧
    d.missq = [] ∧ walkCase ((table 0x1001 0x2001 0x3001 0x703).setDie 0 d) = 2 ^ 16 ∧ bit 0x703 7 = false ∧
    walkCase ((table 0x1001 0x2001 0x3001 0x783).setDie 0 d) = 2 ^ 16 ∧ bit 0x783 7 = true ∧
    (1048576, Requester.context 0 0) ∈ ({ Die.blank with refusedMiss := [(1048576, .context 0 0)] } : Die).refusedMiss ∧
    (1048576, Requester.context 0 0) ∈ ({ Die.blank with busyWait := [(1048576, .context 0 0)] } : Die).busyWait := by decide

/-- PageUpdateSteps: a new leaf over a leaf and over nothing, and each later step, with and without an access under it. -/
def updating (step : Nat) : State := { table 0x1001 0x2001 0x3001 0x703 with pageMove := some ⟨5, 0x4000_0703, step, 0x703, false⟩ }
theorem witness_page_update :
    leafWritable 0x4000_0703 = true ∧ (table 0x1001 0x2001 0x3001 0x703).leafSlot 5 (leafLevel 0x4000_0703) = some 0x3000 ∧
    (table 0x1001 0x2001 0x3001 0x703).pageMove = none ∧ (table 0x1001 0x2001 0x3001 0x703).ptEntry 0 0x3000 = 0x703 ∧
    (bit 0x703 0 = true ∧ bit 0x703 1 = true ∧ bit 0x703 7 = false) ∧
    bit ((table 0x1001 0x2001 0x3001 0).ptEntry 0 0x3000) 0 = false ∧
    (updating 1).pageMove = some ⟨5, 0x4000_0703, 1, 0x703, false⟩ ∧
    (table 0x1001 0x2001 0x3001 0x703).leafTaken 0x3000 = false ∧ (table 0x1001 0x2001 0x3001 0).leafTaken 0x3000 = false ∧
    ({ table 0x1001 0x2001 0x3001 0x703 with cores := FMap.put ([] : FMap Core) 0 { core0 with
      mig := some ⟨1, false, 2, 0, 0, 0, false, [(0x3000, 0x703)]⟩ } } : State).leafTaken 0x3000 = true ∧
    (∀ r ∈ (updating 2).leafRuns 0x703, (updating 2).runBusyIn 0 r.1 r.2 = false) ∧
    (∃ r ∈ (updating 2).leafRuns 0x703, ({ updating 2 with reqs := [ownReq (.mem .load ⟨.dram, 0, 8⟩ 8 [] 0)] } : State).runBusyIn 0 r.1 r.2 = true) := by
  decide

/-- The data and the error of a page that moves are at the new place. -/
def movedPage : State :=
  { updating 3 with mem := (updating 3).mem.write ((leafPlace 0x703).phys + 5) 7, poison := [((leafPlace 0x703).phys / 32 + 2, 1)] }
theorem test_page_moves :
    (movedPage.movePage 0x703 0x4000_0703).mem.read ((⟨.scratch, 0, 0⟩ : Place).phys + 5) = 7 ∧
    (movedPage.movePage 0x703 0x4000_0703).poison =
      [((leafPlace 0x703).phys / 32 + 2, 1), ((⟨.scratch, 0, 0⟩ : Place).phys / 32 + 2, 1)] := by
  decide +kernel

/-! ## Witnesses: checked pairs and migration -/

/-- System mode on core 7, whose east neighbour is its row's spare site; core 6 has none. -/
def sysOn (n : Nat) : State := { (State.reset.setCtx n 0 sys) with focus := ⟨n, 0, .mxq, false⟩ }
def sysOn' (n : Nat) (c : Core) : State := (sysOn n).setCore n c

/-- PairResults: beside a spare site, not beside one, at the edge, paired, with another context or queue in use. -/
theorem witness_pair :
    (sysOn 7).me.mode = .system ∧ (sysOn 7).me.act ≠ none ∧ (sysOn 7).isSpare ((sysOn 7).myCore.site + 1) = true ∧
    sitePos (sysOn 7).myCore.site ≠ 16 ∧ sitePos (sysOn 8).myCore.site ≠ 0 ∧ (sysOn 8).isSpare ((sysOn 8).myCore.site - 1) = true ∧
    (sysOn 6).isSpare ((sysOn 6).myCore.site + 1) = false ∧ sitePos (sysOn 15).myCore.site = 16 ∧ sitePos (sysOn 0).myCore.site = 0 ∧
    (sysOn' 7 { Core.blank 7 with pair := some ⟨8, [], [], [], [], none⟩ }).myCore.pair ≠ none ∧ (sysOn 7).myCore.pair = none ∧
    (sysOn 7).othersActive = false ∧ ((sysOn 7).setCtx 7 1 app).othersActive = true ∧ (sysOn 7).myCore.queuesDrained = true ∧
    (sysOn' 7 { Core.blank 7 with mx := 1 }).myCore.queuesDrained = false := by decide

/-- UnpairResults, MigrateResults, MovesAreSystemOnly. -/
theorem witness_unpair_and_migrate :
    let s := sysOn' 7 { Core.blank 7 with pair := some ⟨8, [], [], [], [], none⟩ }
    s.myCore.pair = some ⟨8, [], [], [], [], none⟩ ∧ s.othersActive = false ∧ (s.setCtx 7 1 app).othersActive = true ∧
    ((sysOn 7).setMe (sys.writeX 8 8)).isSpare (((sysOn 7).setMe (sys.writeX 8 8)).x 8).toNat = true ∧
    ((sysOn 7).setMe (sys.writeX 8 9)).isSpare (((sysOn 7).setMe (sys.writeX 8 9)).x 8).toNat = false ∧
    (sysOn 7).myCore.mig = none ∧ (run app).me.mode = .app ∧ (run app).me.act ≠ none := by decide

/-- TwinResults: a packet waits for its twin; its activation, before and in its replay, running and ended, of a message and of a
close, and one that a mismatch has ended; its wait below and above 64 cycles. -/
def twin (sender : Option Sender) : Twin := ⟨⟨hdrBlank, .message [5]⟩, 0, sender⟩
def paired (w : Twin) (replays spent : List (Nat × Nat)) : State :=
  runOn app { core0 with pair := some ⟨8, [w], replays, spent, [], none⟩, table := [(1, entry1)] }
theorem witness_twins :
    (let w := twin (some ⟨0, 0, appAct⟩)
     ((paired w [] []).core 0).pair = some ⟨8, [w], [], [], [], none⟩ ∧ packetReq w.pkt = none ∧
     ((paired w [] []).ctx 0 0).act = some appAct ∧ ((paired w [] []).ctx 0 0).epoch = 0 ∧ appAct.mode = .app ∧ appAct.tag = some 1 ∧
     (0, 0) ∉ ([] : List (Nat × Nat)) ∧ (0, 0) ∈ [(0, 0)] ∧
     0 + 64 < ({ paired w [] [] with now := 65 } : State).now ∧ (paired w [] []).now ≤ 0 + 64) ∧
    (twin none).sender = none ∧ (packetReq (twin none).pkt).bind (paired (twin none) [] []).req = none ∧
    (let q : Sender := ⟨0, 7, { appAct with origin := .message msg0 }⟩
     ((paired (twin (some q)) [(0, 7)] []).ctx 0 0).epoch ≠ q.epoch ∧ (0, 7) ∈ [(0, 7)] ∧ q.act.tag ≠ none) ∧
    (let q : Sender := ⟨0, 7, { appAct with origin := .close 3 }⟩
     ((paired (twin (some q)) [] []).ctx 0 0).epoch ≠ q.epoch ∧ q.act.origin = .close 3) ∧
    (let p : Packet := ⟨{ hdrBlank with kind := .memReq }, .memReq 0 .load ⟨.dram, 1, 8⟩ 8 [] 0 [] false false⟩
     let s := { paired (twin none) [] [] with reqs := [req0] }
     (packetReq p).bind s.req = some req0 ∧ req0.owner = .ctx 0 0 0 ∧ ∀ x ∈ s.reqs, x.group = req0.group → x.id = req0.id) := by
  decide

/-- MovesEndActivations, MovesSendTheSave, MovesInstall, MovesAreAbandoned: a move of core 7 to its row's spare site in each
of its phases. -/
def mig (phase : Nat) : Migration := ⟨8, false, phase, 0, 0, 0, false, []⟩
def moving (phase : Nat) : State := idle core0 |>.setCore 7 { Core.blank 7 with mig := some (mig phase) }
def savePacket (part : MigPart) : Flight :=
  flightAt 8 (.eject 0) { hdrBlank with kind := .migrate, score := 7 } (.migrate part 0 true)
theorem witness_moves :
    ((moving 0).core 7).mig = some (mig 0) ∧ (mig 0).phase = 0 ∧ (moving 0).now < (mig 0).since + 65536 ∧
    (mig 0).since + 65536 ≤ ({ moving 0 with now := 65536 } : State).now ∧ (moving 0).quiet 7 = true ∧
    ((moving 0).setCtx 7 0 app).quiet 7 = false ∧ ((moving 0).setCtx 7 0 app |>.ctx 7 0).act = some appAct ∧
    -- an access that its instruction waits for, of another instruction than the pc's, and none
    (let r : Req := { req0 with owner := .ctx 7 0 0, cls := some .sy, pc := 0xFC, target := .mem .store ⟨.scratch, 7, 0⟩ 8 [] 0, holds := true }
     r.holds = true ∧ r.owner = .ctx 7 0 ((moving 0).ctx 7 0).epoch ∧ r.pc ≠ ((moving 0).setCtx 7 0 app |>.ctx 7 0).pc) ∧ (∀ r ∈ (moving 0).reqs, r.holds = true → r.owner ≠ .ctx 7 0 0) ∧
    ((moving 1).core 7).mig = some (mig 1) ∧ (moving 1).moveReady 7 = true ∧ ((moving 1).setCtx 7 0 app).moveReady 7 = false ∧
    (withFlight (moving 2) (savePacket (.part 3))).moveArrived 7 8 = some (savePacket (.part 3)) ∧
    (withFlight (moving 2) (savePacket .endPart)).moveArrived 7 8 = some (savePacket .endPart) ∧
    (∀ g ∈ (withFlight (moving 2) (savePacket .endPart)).net, g.id = (savePacket .endPart).id → g = savePacket .endPart) ∧
    ((moving 2).site 8).state = .spare ∧ (withFlight (moving 2) (savePacket .endPart)).moveStill ((moving 2).core 7) (mig 2) = true ∧
    (8 ≠ ((moving 2).core 7).site ∧ siteExists 8 = true ∧ siteExists ((moving 2).core 7).site = true ∧ ((moving 2).core 7).pair = none) ∧
    (mig 2).phase = 2 ∧ (mig 1).phase = 1 := by decide

/-- VacatedSitesForward: a message and a reply at a site whose core has moved. -/
def vacated (k : PktKind) : State :=
  { State.reset with sites := [(7, { Site.blank with fwd := some 8 })], net := [flightAt 7 (.eject 0) { hdrBlank with kind := k } .empty] }
theorem witness_vacated :
    (vacated .data).ejected 0 0 = some (flightAt 7 (.eject 0) { hdrBlank with kind := .data } .empty) ∧
    ((vacated .data).site 7).fwd = some 8 ∧
    (vacated .mgmt).ejected 0 0 = some (flightAt 7 (.eject 0) { hdrBlank with kind := .mgmt } .empty) ∧
    (vacated .memRep).ejected 0 0 = some (flightAt 7 (.eject 0) { hdrBlank with kind := .memRep } .empty) ∧
    hdrBlank.smod = (vacated .data).moduleId ∧
    -- the release of a PHASE that still has its request
    (let r : Req := { req0 with target := .sync ⟨.sync, 0, 0⟩ (.phase 3) }
     ({ vacated .syncRep with reqs := [r] } : State).req 0 = some r ∧ ownerCore r.owner = some 0) := by decide


/-- MovesSendTheSave, MovesAreAbandoned, MigrateResults: a drain at its limit and past it, rows to split, a part to send, one
sent, all sent; a second MIGRATE. -/
theorem witness_save :
    (mig 1).since + 65536 < ({ moving 1 with now := 65537 } : State).now ∧ ((moving 1).splitRows ((moving 1).core 7).region).isSome = true ∧
    (moving 2).moveArrived 7 8 = none ∧ (mig 2).part ≤ 9 ∧ (mig 2).unit < 1024 ∧ ({ mig 2 with part := 9, unit := 1 } : Migration).unit ≥ 1 ∧
    9 < ({ mig 2 with part := 10 } : Migration).part ∧
    (let s := (sysOn' 7 { Core.blank 7 with mig := some (mig 0) }).setMe (sys.writeX 8 8)
     s.isSpare (s.x 8).toNat = true ∧ s.myCore.mig = some (mig 0) ∧ s.myCore.pair = none) ∧
    (∀ g ∈ (moving 2).net, ¬ Sys2Proof.Claims.MoveFlight 7 8 g) := by
  refine ⟨by decide, by decide, by decide, by decide, by decide, by decide, by decide, by decide, ?_⟩
  intro g h; cases h
/-! ## Witnesses: power, errors, bring-up -/

def withCluster (c : Cluster) : State := State.reset.setCluster 0 c

/-- RegulatorFailures: each state of a regulator, and a cluster with one core and a spare site in its die. -/
def lonely : State :=
  { State.reset with
    grafts := (List.range 7).map fun w => (w + 1, 31)
    sites := (List.range 16).map fun p => (p + 1, { Site.blank with state := .failed }) }
theorem witness_regulators :
    (State.reset.cluster 0).reg = 0 ∧ ((withCluster { Cluster.powered 0 with reg := 1 }).cluster 0).reg = 1 ∧
    ((withCluster { Cluster.powered 0 with reg := 2 }).cluster 0).reg = 2 ∧
    -- a live regulator with all its phases, with one failed and in a power-on; one that is off, one in a hold-up
    (let live := fun c : Cluster => c.rail ≠ 0 ∧ c.holdup = none
     let on : Cluster := { Cluster.blank with rail := 700 }
     live on ∧ on.phases ≠ 5 ∧ live { on with phases := 5, reg := 1 } ∧ live { on with stageAt := some 0, reg := 2 } ∧
       ¬ live Cluster.blank ∧ ¬ live { on with holdup := some 0 }) ∧
    lonely.coresOn (clusterSites 0) = [0] ∧ (lonely.core 0).pair = none ∧ (lonely.core 0).mig = none ∧
    lonely.coresOn (clusterSites 0) = ([] : List Nat) ++ 0 :: [] ∧ [0].Nodup := by decide

/-- RegulatorFailures: the cluster goes dark and its die still has a spare site. -/
theorem witness_spare_after_failure : ((lonely.darken 0).spareIn (0 / 64)).isSome = true := by decide
theorem witness_free_sites :
    (((dieSites (0 / 64)).filter fun x => (lonely.darken 0).isSpare x && ((lonely.darken 0).site x).migTarget.isNone)[
      ([] : List Nat).length]?).isSome = true := by
  rw [List.length_nil, ← List.head?_eq_getElem?, List.head?_filter]
  exact witness_spare_after_failure

/-- HoldupEnds, ConverterFailure: no converter failed, one before and one after the cluster's own regulator, each with nothing
left to rehome. -/
theorem witness_holdup :
    let s := withCluster { Cluster.powered 0 with holdup := some 4 }
    let conv := fun t => s.setDie 0 { Die.blank with convHold := some t }
    (s.cluster 0).holdup = some 4 ∧ s.now < 4 + 120000 ∧ 4 + 120000 ≤ ({ s with now := 120004 } : State).now ∧
    (State.reset.cluster 0).holdup = none ∧ (State.reset.die 0).rehoming = [] ∧ (s.die (0 / 64)).convHold = none ∧
    ((conv 5).die (0 / 64)).convHold = some 5 ∧ ((conv 4).die (0 / 64)).convHold = some 4 ∧
    ((withCluster { Cluster.blank with reg := 2 }).cluster 0).reg = 2 ∧ ((withCluster { Cluster.blank with reg := 2 }).cluster 0).holdup = none ∧
    (State.reset.die 0).convHold = none ∧ ((State.reset.setDie 0 { Die.blank with convHold := some 0 }).die 0).convHold.isSome = true := by
  decide

/-- PowerOnStages: a cluster before its first and its last stage, with and without headroom and an earlier one that waits; a
stage under way; a wait. -/
def drawing : State := { State.reset with clusters := (List.range 63).map fun k => (k + 1, { Cluster.blank with stageAt := some 0 }) }
theorem witness_power_on :
    (State.reset.cluster 0).stages < 4 ∧ (State.reset.cluster 0).stageAt = none ∧ (State.reset.cluster 0).holdup = none ∧
    ((withCluster { Cluster.blank with stages := 3 }).cluster 0).stages < 4 ∧
    State.reset.earlierWaits 0 = false ∧
    (withCluster { Cluster.blank with waitAt := some 0 }).earlierWaits 5 = true ∧
    ((withCluster { Cluster.blank with stageAt := some 0 }).cluster 0).stageAt = some 0 ∧
    ((withCluster { Cluster.blank with waitAt := some 0 }).cluster 0).waitAt = some 0 ∧
    ((withCluster { Cluster.blank with waitAt := some 0 }).cluster 0).waitLogged = false ∧
    (0 < 0 + 4800 ∧ 0 + 4800 ≤ 4800 ∧ 0 < 0 + 1200000 ∧ 0 + 1200000 ≤ 1200000) := by decide
theorem witness_headroom : State.reset.headroomOk 0 = true := by
  have h : ∀ k, State.reset.current k = 0 := fun k => by
    show Config.measuredCurrent _ _ % 1 = 0
    exact Nat.mod_one _
  have hs : ∀ k, (State.reset.cluster k).stageAt = none := fun _ => rfl
  have z : ∀ l : List Nat, (l.map fun _ => 0).sum = 0 := fun l => by
    induction l with
    | nil => rfl
    | cons a l ih => simp only [List.map_cons, List.sum_cons, ih]
  simp only [State.headroomOk, State.drawn, h, hs]
  exact decide_eq_true (by show ((List.range 64).map fun _ => 0).sum + 480 ≤ 8000; rw [z]; decide)
theorem witness_no_headroom : drawing.headroomOk 0 = false := by
  have h : ((List.range 64).map fun k => if (drawing.cluster (64 * 0 + k)).stageAt.isSome then inrush else 0).sum = 63 * 480 := by
    decide
  have add : ∀ (f g : Nat → Nat) (l : List Nat), (l.map g).sum ≤ (l.map fun k => f k + g k).sum := by
    intro f g l
    induction l with
    | nil => exact Nat.le_refl 0
    | cons a l ih => simp only [List.map_cons, List.sum_cons]; omega
  have := add (fun k => drawing.current (64 * 0 + k)) (fun k => if (drawing.cluster (64 * 0 + k)).stageAt.isSome then inrush else 0) (List.range 64)
  rw [h] at this
  refine decide_eq_false (Nat.not_le.2 ?_)
  show 8000 < drawing.drawn 0 + 480
  have e : drawing.drawn 0 = ((List.range 64).map fun k =>
    drawing.current (64 * 0 + k) + (if (drawing.cluster (64 * 0 + k)).stageAt.isSome then inrush else 0)).sum := rfl
  omega

/-- FatalErrors, ThermalThrottling: both sides of each limit. -/
theorem witness_limits :
    (115 ≤ 115 ∨ 95 ≤ 0) ∧ (115 ≤ 0 ∨ 95 ≤ 95) ∧ (719 < 720 ∧ 1000 < 1001) ∧ (39999 < 40000 ∧ 1000000 < 1000001) ∧
    (720 ≤ 720 ∨ 1000 ≤ 1000) ∧ (94 < 95 ∧ 114 < 115 ∧ 100 ≤ 100) ∧ (State.reset.cluster 0).throttled = false ∧
    ((withCluster { Cluster.powered 0 with throttled := true }).cluster 0).throttled = true ∧ (95 ≤ 95 ∧ 99 < 100) := by decide

/-- SoftErrors: nothing wrong with the state of die management itself, and its record area poisoned. -/
theorem witness_own_state :
    State.reset.ownStateBad 0 = false ∧
    ({ State.reset with poison := [((⟨.die, 0, recordBase⟩ : Place).phys / 32, 1)] } : State).ownStateBad 0 = true ∧
    ((Die.blank.logAt = State.reset.now → Die.blank.logged = [])) := by decide

/-- PowerStage: in stage 1 with the clusters off, and with all of them on. -/
def firstStage (cs : FMap Cluster) : State := { State.reset with bringup := { State.reset.bringup with stage := 1 }, clusters := cs }
theorem witness_power_stage :
    (firstStage []).bringup.stage = 1 ∧ 0 < 4096 ∧ ((firstStage []).cluster 0).stages ≠ 4 ∧
    ({ State.reset.bringup with fuseVersion := 2 } : Bringup).fuseVersion > 1 ∧ State.reset.bringup.fuseVersion ≤ 0 := by decide
def poweredOn : Cluster := { Cluster.blank with stages := 4 }
theorem witness_all_on :
    ∀ k, k < 4096 → ((firstStage ((List.range 4096).map fun k => (k, poweredOn))).cluster k).stages = 4 := by
  intro k hk
  have h : ∀ (l : List Nat), k ∈ l → FMap.look (l.map fun k => (k, poweredOn)) k = some poweredOn := by
    intro l
    induction l with
    | nil => intro h; cases h
    | cons a l ih =>
      intro h
      by_cases e : a = k
      · simp [FMap.look, e]
      · have := ih ((List.mem_cons.1 h).resolve_left fun x => e x.symm)
        simpa [FMap.look, e] using this
  have e : (firstStage ((List.range 4096).map fun k => (k, poweredOn))).cluster k = poweredOn := by
    simp only [State.cluster, firstStage, h _ (List.mem_range.2 hk), FMap.at, Option.getD_some]
  rw [e]; rfl

/-- EventRecords: the first event of a cycle, and a second one whose site is lower or is not. -/
def logging : State := State.reset.setDie 0 { Die.blank with seq := 1, logAt := 0, logged := [⟨16, 5, []⟩] }
theorem witness_events :
    (logging.die 0).logAt = logging.now ∧ (logging.die 0).logged = [⟨16, 5, []⟩] ∧ 0 < (logging.die 0).seq ∧
    (15 < 16 ∨ (15 = 16 ∧ 5 < 5)) ∧ (16 < 16 ∨ (16 = 16 ∧ 4 < 5)) ∧ ¬ (16 < 16 ∨ (16 = 16 ∧ 5 < 5)) ∧
    ((State.reset.die 0).logAt = State.reset.now → (State.reset.die 0).logged = []) := by decide

/-- GraftRewrites: a core that moves. -/
theorem witness_unsettled :
    State.reset.unsettled = false ∧ (lonely.setCore 0 { core0 with mig := some ⟨5, false, 0, 0, 0, 0, false, []⟩ }).unsettled = true := by
  decide

/-- GraftRewrites: a core of the row that is written, a core of another row, and a table without target-5 leaves. -/
theorem witness_rewritten_rows :
    (let s := State.reset.setCore 0 core0
     s.cores.look 0 = some core0 ∧ (s.cores.look 1) = none ∧ siteRowKey (siteUnder 0 8) = 0 ∧ siteRowKey core0.site = 0 ∧
       siteRowKey (siteUnder 16 8) ≠ 0 ∧ State.reset.grafts.at 5 8 = 8) ∧
    State.reset.tableLeaves = [] := by decide

/-- R261: core 0 has moved to a site of another row; that row is rewritten, and its home carries it again. -/
def movedAway : State :=
  { State.reset.setCore 0 { core0 with site := siteUnder 16 8 } with
    sites := FMap.put (FMap.put [] core0.site { Site.blank with fwd := some (siteUnder 16 8) }) (siteUnder 16 8) { Site.blank with core := some 0 } }
def rewritten : State := went (execGraftRewrite [(siteRowKey (siteUnder 16 8), 20)] [] movedAway)
theorem test_home_again :
    movedAway.unsettled = false ∧ movedAway.pageMove = none ∧ (movedAway.site core0.site).core = none ∧
    siteRowKey core0.site ≠ siteRowKey (siteUnder 16 8) ∧
    (rewritten.site core0.site).core = some 0 ∧ (rewritten.site core0.site).fwd = none ∧ (rewritten.core 0).site = core0.site ∧
    movedAway.stateGen < rewritten.stateGen ∧ rewritten.graftGen = movedAway.graftGen + 1 := by decide +kernel

/-- SoftErrors, PowerStage, BringUpStages, GraftRewrites, CoresNeverShareASite. -/
theorem witness_bring_up :
    (State.reset.die 0).softAt = none ∧ ((State.reset.setDie 0 { Die.blank with softAt := some 0 }).die 0).softAt = some 0 ∧
    (0 + 1200000 ≤ 1200000 ∧ 1199999 < 0 + 1200000) ∧
    State.reset.bringup.stage = 0 ∧ up.bringup.stage ≠ 0 ∧ ¬ 0 < State.reset.bringup.fuseVersion ∧ 1 < 2 ∧
    (let b := { State.reset.bringup with stage := 2 }
     b.trained = false ∧ ({ b with trained := true } : Bringup).trained = true ∧ ({ b with stage := 4 } : Bringup).stage = 4) ∧
    up.running.isSome = true ∧ State.reset.running = none ∧ 32767 < 32768 ∧ (∀ r, (fun _ : Nat => 16) r ≤ 16) ∧ 63 < 64 :=
  ⟨by decide, by decide, by decide, by decide, by decide, by decide, by decide, by decide, by decide, by decide, by decide,
   fun _ => Nat.le_refl 16, by decide⟩

/-! ## Witnesses: queues, launches, the host -/

/-- An image of one core and group 0, a queue with its first slot published, and a command in state. -/
def coreImg : CoreImage :=
  { core := 0, scratch := [], dram := [], dramEnd := 0, stack := some (0x7000, 0x1000), spill := some (0x6000, 2048), clog := none
    loops := (0, 0), table := [(1, BitVec.ofNat 256 (2 ^ 207 + 2 * 2 ^ 200 + 0x200))], slots := [], bound := 2, rcache := []
    trapvec := 0, grp := 0 }
def draft : Image :=
  { magic := 0x494C_4251, version := 1, id := 7, graftGen := State.reset.graftGen, length := 0, count := 1
    digest := 0, cores := [coreImg], shared := []
    groups := [(0, BitVec.ofNat 128 (2 ^ 63 + 1))], pages := [], dflt := [] }
def img0 : Image := { draft with length := 64 + draft.rest.length, digest := shake256 draft.rest }
def fullQueue : Queue := { Queue.blank with reserve := 128 }
def ready : Queue := { Queue.blank with reserve := 1, pub := [0] }
def performing (c : LaunchCmd) (phase : Nat) : State := { up with running := some { inRound with cmd := c, phase } }
def loadCmd : LaunchCmd := { cmd0 with kind := 1, image := 0x8000_0000_0000_1000, arg := w64 img0.length }
def launchCmd : LaunchCmd := { cmd0 with kind := 2, image := 7, rounds := 1, arglen := 72, arg := 0x8000000000000000 }

/-- ClaimAndPublish, RingWrites: a full ring and one with room; a slot that is claimed and one that is not; the last byte of
the rings. -/
theorem witness_claims :
    fullQueue.reserve - fullQueue.head = 128 ∧ (State.reset.queue 63).reserve - (State.reset.queue 63).head ≠ 128 ∧
    (0 < ready.reserve - ({ ready with pub := [] } : Queue).tail ∧ (({ ready with pub := [] } : Queue).tail + 0) % 128 = 0) ∧
    State.reset.queue 0 = Queue.blank ∧ Queue.blank.reserve - Queue.blank.tail = 0 ∧ 8192 * 63 + 8191 + [(1 : Byte)].length ≤ 0x8_0000 ∧
    8192 * 0 + 0 + ([] : List Byte).length ≤ 0x8_0000 := by decide

/-- QueueTakes: two queues of one priority, and a slot of zeros (reserved) beside a LAUNCH of one round; nothing taken. -/
def queued (bs : List Byte) : State :=
  ({ up with running := none, queues := [(3, ready), (5, { ready with doneAt := 1 })] } : State).writePlace (ringPlace 3) bs
def launchBytes : List Byte := [2, 0, 1, 0, 0, 0, 0, 0, 7] ++ List.replicate 55 0
theorem witness_queue_takes :
    (queued launchBytes).nextQueue = some 3 ∧ (queued launchBytes).running = none ∧ (queued launchBytes).accepting = true ∧
    (LaunchCmd.ofBytes launchBytes).reserved = false ∧ (LaunchCmd.ofBytes (List.replicate 64 0)).reserved = true ∧
    up.running.isSome = true ∧ State.reset.accepting = false ∧ up.finishing = none ∧ (queued launchBytes).finishing = none ∧
    (let r := { inRound with cmd := { cmd0 with kind := 2 }, phase := 4, finish := some (0, 0, 0) }
     ({ up with running := some r } : State).running = some r ∧ r.finish = some (0, 0, 0)) := by decide
/-- R335's example: queue 5 is switched out for a ninth and shows SWAPPED; at reset none does (R333). -/
theorem test_switched_out :
    let s : State := { up with queues := [], cached := [0, 1, 2, 3, 4, 6, 7, 5] }
    (s.switchQueue 9).readQueue 5 0x10 = 0x8000_0000_0000_0000 ∧ (s.switchQueue 9).readQueue 9 0x10 = 0 ∧
    ((s.switchQueue 9).switchQueue 5).readQueue 5 0x10 = 0 ∧ State.reset.readQueue 5 0x10 = 0 := by decide
theorem witness_queue_slot :
    (queued launchBytes).readPlace ⟨.die, 0, (ringPlace 3).off + 64 * 0⟩ 64 = launchBytes := by decide

/-- LoadResults: no image at the address, one that passes every check, one that fails. -/
def loadingImage (i : Option Image) : State :=
  { performing loadCmd 0 with hostImages := match i with | some x => [(0x1000, x)] | none => [] }
theorem witness_loads :
    (loadingImage none).running = some { inRound with cmd := loadCmd, phase := 0 } ∧ loadCmd.kind = 1 ∧
    (loadingImage none).hostImages.look (loadCmd.image.toNat % 2 ^ 48) = none ∧ addrSpace loadCmd.image.toNat = 8 ∧
    addrSpace ({ loadCmd with image := 0x1000 } : LaunchCmd).image.toNat ≠ 8 ∧
    (∀ j ∈ img0.cores, j.core = coreImg.core → j = coreImg) ∧ coreImg ∈ img0.cores ∧ 1 < 64 ∧
    coreImg.table.look 1 = some (BitVec.ofNat 256 (2 ^ 207 + 2 * 2 ^ 200 + 0x200)) :=
  ⟨rfl, by decide, by decide, by decide, by decide, by decide, by decide, by decide, by decide⟩
theorem witness_image_found :
    (loadingImage (some img0)).hostImages.look (loadCmd.image.toNat % 2 ^ 48) = some img0 ∧
    ∃ d, (loadingImage (some img0)).loadCheck { img0 with magic := 0 } loadCmd.arg.toNat = some (0x11, d) := ⟨rfl, _, rfl⟩
theorem length_given : loadCmd.arg.toNat = img0.length := by
  have h : draft.rest.length ≤ 2 ^ 48 - 64 := List.length_take_le _ _
  show (w64 (64 + draft.rest.length)).toNat = 64 + draft.rest.length
  simp only [w64, BitVec.toNat_ofNat]
  omega
theorem good_header : img0.badHdr img0.length = none := by
  show (if img0.length ≠ 64 + draft.rest.length ∨ img0.length ≠ img0.length then some (Config.headerOffset 2)
    else if shake256 draft.rest ≠ shake256 draft.rest then some (Config.headerOffset 3) else none) = none
  rw [if_neg (by rintro (h | h) <;> exact h rfl), if_neg fun h => h rfl]
theorem witness_load_check : (loadingImage (some img0)).loadCheck img0 loadCmd.arg.toNat = none := by
  unfold State.loadCheck
  rw [length_given, good_header]
  decide
/-- A slot whose record names no route. -/
def noRoute : SlotImage := ⟨[], false, false, none⟩
theorem witness_slot_image : FMap.look [(3, noRoute)] 3 = some noRoute := by decide

/-- LoadChecksInOrder: each check failing with those before it passed; BADHDR of each header field. -/
theorem witness_bad_headers :
    ({ img0 with magic := 0 } : Image).badHdr 0 = some (Config.headerOffset 0) ∧
    ({ img0 with version := 2 } : Image).badHdr 0 = some (Config.headerOffset 1) ∧
    ({ img0 with length := 3 } : Image).badHdr 3 = some (Config.headerOffset 2) ∧
    img0.badHdr (img0.length + 1) = some (Config.headerOffset 2) := by
  refine ⟨rfl, rfl, ?_, ?_⟩
  · show (if 3 ≠ 64 + draft.rest.length ∨ 3 ≠ 3 then some (Config.headerOffset 2) else _) = _
    exact if_pos (.inl (by omega))
  · show (if img0.length ≠ 64 + draft.rest.length ∨ img0.length + 1 ≠ img0.length then some (Config.headerOffset 2) else _) = _
    exact if_pos (.inr (by omega))
theorem witness_load_checks :
    let with' := fun (c : CoreImage) => ({ img0 with cores := [c] } : Image)
    State.reset.badSkip = none ∧ ({ State.reset with grafts := [(0, 17)] } : State).badSkip = some 0 ∧
    99 ≠ State.reset.graftGen ∧ img0.graftGen = State.reset.graftGen ∧
    State.reset.absentCore img0 = none ∧ State.reset.absentCore (with' { coreImg with core := 2 ^ 19 }) = some (2 ^ 19) ∧
    State.reset.absentCore (with' { coreImg with slots := [(3, { noRoute with target := some (2 ^ 19) })] }) = some (2 ^ 19) ∧
    State.reset.badRegion img0 = none ∧ State.reset.badRegion (with' { coreImg with stack := some (0x4000, 0x90) }) = some 0 ∧
    State.reset.badRegion (with' { coreImg with spill := none }) = some 0 ∧
    State.reset.badRegion (with' { coreImg with dramEnd := 0x3E_0001 }) = some 0 ∧
    State.reset.badRegion { img0 with shared := [⟨true, 0x1B8_0000, 1, [0]⟩] } = some 0 ∧
    badHandler img0 = none ∧ badHandler (with' { coreImg with table := [(3, BitVec.ofNat 256 (7 * 2 ^ 200))] }) = some 3 ∧
    State.reset.badChannel img0 = none ∧
    State.reset.badChannel (with' { coreImg with slots := [(5, { noRoute with record := [1] })] }) = some 5 ∧
    firstBadGroup img0 = none ∧ firstBadGroup { img0 with groups := [] } = some 0 := by decide
theorem witness_load_page :
    State.reset.firstBadPage img0.pages = none ∧ State.reset.firstBadPage [(rootTable, (3 : Byte))] = some 0 := by decide

/-- LaunchResults: a default that is asked for with fields of its own, sapling mode, no image, no default, another id, another
graft generation, a tile too short, a tile of zeros in host memory, a tile on a page that is being moved. -/
def launching (c : LaunchCmd) (i : Option Image) : State := { performing c 0 with image := i }
def sapling (s : State) : State := { s with bringup := { s.bringup with sapling := true } }
def byDefault : LaunchCmd := { cmd0 with kind := 2, image := 7, dflt := true, rounds := 0 }
def withDefault (mode : Byte) : Image := { img0 with dflt := [2, mode, 1] ++ List.replicate 61 0 }
theorem witness_launches :
    let s := launching launchCmd (some img0)
    (s.running = some { inRound with cmd := launchCmd, phase := 0 }) ∧ launchCmd.kind = 2 ∧ launchCmd.dflt = false ∧
    byDefault.dflt = true ∧ byDefault.mode = 0 ∧ byDefault.rounds = 0 ∧ byDefault.arg = 0 ∧
    (launching launchCmd none).image = none ∧ s.bringup.sapling = false ∧ (sapling s).bringup.sapling = true ∧
    ({ launchCmd with image := 8 } : LaunchCmd).image ≠ w64 img0.id ∧ launchCmd.image = w64 img0.id ∧
    (launching launchCmd (some { img0 with graftGen := 9 })).graftGen ≠ 9 ∧ img0.graftGen = s.graftGen ∧ launchCmd.mode = 0 ∧
    launchCmd.rounds ≠ 0 ∧ ({ launchCmd with mode := 3 } : LaunchCmd).mode = 3 ∧
    resolvedCmd img0 launchCmd = some launchCmd ∧ resolvedCmd img0 byDefault = none ∧
    (resolvedCmd (withDefault 1) byDefault).map (fun k => k.mode) = some 1 ∧
    (resolvedCmd (withDefault 1) byDefault).map (fun k => k.rounds) = some 1 := by decide
theorem witness_busy_tile :
    (({ launching { launchCmd with arg := 0x10_0000_0000 } (some img0) with
        mem := ((((up.writePlace ⟨.die, 0, rootTable + 8⟩ (natLE 8 0x1001)).writePlace ⟨.die, 0, 0x1000⟩ (natLE 8 0x2001)).writePlace
          ⟨.die, 0, 0x2000⟩ (natLE 8 0x3001)).writePlace ⟨.die, 0, 0x3000⟩ (natLE 8 0x783)).mem } : State).readTile
      { launchCmd with arg := 0x10_0000_0000 } matches .busy) = true := by decide
theorem witness_image : (launching launchCmd (some img0)).image = some img0 := rfl
theorem witness_tiles :
    (launching { launchCmd with arglen := 71 } (some img0)).readTile { launchCmd with arglen := 71 } = .refused 0x0200_0000_0000_0000 ∧
    (launching launchCmd (some img0)).readTile launchCmd = .tile (List.replicate 8 0) [] ∧
    (launching launchCmd (some img0)).readTile { launchCmd with arg := 0x10_0000_0000 } = .unread 0 := ⟨by rfl, by rfl, by rfl⟩

/-- RoundsBegin: a core with a valid tag 1 and an update for it. -/
def beginning : State :=
  { (idle (inbox { entry1 with valid := true })) with
      image := some img0
      running := some { inRound with phase := 1, updates := [(0, 1, 1, 5)] } }
theorem witness_rounds_begin :
    beginning.running = some { inRound with phase := 1, updates := [(0, 1, 1, 5)] } ∧ beginning.blocks.Nodup ∧ beginning.coppice.skippedSet = [] ∧
    (0, 1, 1, (5 : BitVec 32)).2.2.1 = inRound.round ∧ beginning.blocks = [0] ∧ beginning.blocks.count 0 = 1 ∧
    ((beginning.core 0).table.at 1 .blank).valid = true ∧ (beginning.core 0).rings.at 2 [] = [] ∧
    ((beginning.core 0).queues.at 2 []).length < 16 := by decide

/-- RoundsBegin: start messages that wait for room, in sapling mode, and one that goes into the sub-ring or finds that full too. -/
def startsIn (queues : FMap (List Msg)) : State :=
  sapling { up.setCore 0 { core0 with table := [(1, entry1)], queues } with running := some { inRound with phase := 2, starts := [0] } }
theorem witness_start_waits :
    (startsIn []).running = some { inRound with phase := 2, starts := [0] } ∧ (startsIn []).bringup.sapling = true ∧
    (let s := startsIn [(2, List.replicate 16 (headMsg 0))]
     16 ≤ ((s.core 0).queues.at ((s.core 0).table.at 1 .blank).queue []).length) ∧ inRound.starts = [] ∧ inRound.phase = 2 ∧
    [0].Nodup ∧ [0] = ([] : List Nat) ++ 0 :: [] := by decide
def ringed (n : Nat) : State := up.setCore 0 { core0 with
  table := [(1, entry1)], queues := [(2, List.replicate 16 (headMsg 0))], rings := [(2, List.replicate n (headMsg 0))] }
theorem test_start_rings :
    ((ringed 0).startMessage 0 1 []).isSome = true ∧ ((ringed 63).startMessage 0 1 []).isSome = true ∧
    (ringed 64).startMessage 0 1 [] = none := by decide

/-- LogsAreReplayed: a logged message on a slot with a route, and on one without; the engine's turn, and a bound stream whose
turn it is. -/
def logged3 : Packet := ⟨{ hdrBlank with sch := 3 }, .message []⟩
def replaying (c : Core) : State := { idle c with coppice := { up.coppice with replays := [(0, [logged3])] } }
def onRoute : Core := { core0 with slots := [(3, { Slot.blank with route := some eastRoute })] }
theorem witness_log_replays :
    (replaying core0).coppice.replays.at 0 [] = [logged3] ∧
    ((replaying core0).core 0).turnOf 0 9 ((replaying core0).ready 0 0) = true ∧
    ((replaying onRoute).core 0).turnOf 0 9 ((replaying onRoute).ready 0 0) = true ∧
    (((replaying onRoute).core 0).slot logged3.hdr.sch).route = some eastRoute ∧ ((replaying onRoute).core 0).pair = none ∧
    (((replaying core0).core 0).slot logged3.hdr.sch).route = none ∧
    (let s := replaying { streaming { bound0 with count := 4 } with turns := [(0, 9)] }
     (s.core 0).turnOf 0 9 (s.ready 0 0) = false) := by decide

/-- QuiescenceEndsRounds, LaunchesAreEnded: a round with one idle block before and at its sweep, with each last sweep, with
rounds to come and without; one that is not idle. -/
def sweeping (rounds : Nat) (sweep : Option (Nat × Nat)) (injected : Nat) : State :=
  { up with image := some img0, injected, running := some { inRound with cmd := { launchCmd with rounds }, sweep } }
theorem witness_quiescence :
    (sweeping 1 none 0).blocks = [0] ∧ ((∀ b ∈ (sweeping 1 none 0).blocks, (sweeping 1 none 0).idle b = true) ∧
      (sweeping 1 none 0).injected = (sweeping 1 none 0).consumed) ∧ (sweeping 1 none 1).injected ≠ (sweeping 1 none 1).consumed ∧
    -- before a point, at one, between two and at the second
    (sweeping 1 none 0).now < 1 ∧ inRound.sweepAt ≤ (sweeping 1 none 0).now ∧ ((sweeping 1 none 0).now - inRound.sweepAt) % 2048 = 0 ∧
    (2047 - 0) % 2048 ≠ 0 ∧ (2048 - 0) % 2048 = 0 ∧ (2048 : Nat) ≠ inRound.sweepAt ∧ (sweeping 1 none 0).now = inRound.sweepAt ∧ inRound.phase = 2 ∧ launchCmd.mode = 0 ∧
    (none : Option (Nat × Nat)) ≠ some ((sweeping 1 none 0).injected, (sweeping 1 none 0).consumed) ∧ inRound.round + 1 < 3 ∧ inRound.starts = [] ∧
    1 ≤ inRound.round + 1 := by decide
theorem witness_no_recording (n : Nat) : ((sweeping 1 none 0).core n).trace.recording = false := rfl
theorem witness_launch_ends :
    (0 ≤ 2 ∧ inRound.phase ≤ 2 ∧ 2 < 3) := by decide
theorem witness_launch_limits :
    (1 : Word).getLsbD 0 = true ∧ (2 : Word).getLsbD 0 = false ∧ (5 : Nat) ≠ 0 ∧ 0 + 1200 * 5 ≤ 6000 ∧ 5999 < 0 + 1200 * 5 ∧
    inRound.took = 0 ∧ (sweeping 1 none 0).netQuiet = true ∧ (sweeping 1 none 1).netQuiet = false := by decide

/-- HostAccesses: a page of DRAM under the host's window; the same without an image, without a page, of another module,
poisoned. -/
def hostPage (leaf : Nat) : State :=
  { (((up.writePlace ⟨.die, 0, rootTable + 8⟩ (natLE 8 0x1001)).writePlace ⟨.die, 0, 0x1000⟩ (natLE 8 0x2001)).writePlace
      ⟨.die, 0, 0x2000⟩ (natLE 8 0x3001)).writePlace ⟨.die, 0, 0x3000⟩ (natLE 8 leaf) with
    image := some img0, hwin := [(2, 1)] }
def hostLoc (s : State) (a : Acc) (off : Nat) : Option (Nat × Nat) :=
  match s.translateDirect .system a (s.hwin.at 2 0 * 2 ^ 36 + off) with
  | .inl l => some (l.place.off, l.mod)
  | .inr _ => none
theorem witness_host_pages :
    hostLoc (hostPage 0x703) accLoad 0x40 = some (0x40, 0) ∧ (hostPage 0x703).moduleId = 0 ∧
    hostLoc (hostPage 0x703) accStore 0xFFF8 = some (0xFFF8, 0) ∧ hostLoc (hostPage 0x0040_0000_0000_0703) accLoad 0x40 = some (0x40, 1) ∧
    hostLoc (hostPage 0) accLoad 0x40 = none ∧ hostLoc (hostPage 0) accStore 0x40 = none ∧ up.image = none ∧
    (hostPage 0x703).image.isSome = true ∧ (hostPage 0x703).busyAt 0x10_0000_0040 = false ∧ (hostPage 0x783).busyAt 0x10_0000_0040 = true ∧
    (hostPage 0).busyAt 0x10_0000_0040 = false ∧ (hostPage 0).badLeafAt 0x10_0000_0040 = none ∧ ((hostPage 0x3).badLeafAt 0x10_0000_0040).isSome = false := by decide
/-- HostAccesses, ClaimAndPublish, RingWrites, LaunchesAreEnded, RegisterWriteResults: nothing waits; a read of port 2 waits, which
keeps back a write of that port and a claim, whose port it cannot tell, and no input of port 1; it is performed when its page is free. -/
def holding (leaf : Nat) : State := { hostPage leaf with hostHeld := [.read 2 0x40 8] }
theorem witness_host_order :
    (∀ h, HostFree up h) ∧ HostFree (holding 0x703) (.read 1 0 8) ∧ ¬ HostFree (holding 0x703) (.write 2 0 [1]) ∧
    ¬ HostFree (holding 0x703) (.claim 3) ∧ (holding 0x703).hostHeld = .read 2 0x40 8 :: [] ∧
    ((holding 0x703).hostAct (.read 2 0x40 8)).isSome = true ∧ ((holding 0x783).hostAct (.read 2 0x40 8)).isSome = false ∧
    Brings (.hostRead 2 0x40 8) (.read 2 0x40 8) := by
  refine ⟨(fun _ _ he => nomatch he), ?_, fun h => ?_, fun h => ?_, rfl, by decide, by decide, rfl⟩
  · intro e he; cases he with
    | head => rfl
    | tail _ h => cases h
  · exact absurd (h _ (.head _)) (by decide)
  · exact absurd (h _ (.head _)) (by decide)
theorem witness_host_bounds :
    (hostPage 0x703).poisoned ⟨.dram, 0, 0x40⟩ 8 = false ∧
    ({ hostPage 0x703 with poison := [((⟨.dram, 0, 0x40⟩ : Place).phys / 32, 1)] } : State).poisoned ⟨.dram, 0, 0x40⟩ 8 = true ∧
    (0 < 64 ∧ (0x10_0000_0000 + 0xFFC0) % 0x8000 + 64 ≤ 0x8000) ∧ (0x8000 < 0x10_0000_7FC0 % 0x8000 + 128) ∧
    (hostPage 0x4000_0703).busyAt 0x10_0000_8000 = false ∧
    (match (hostPage 0x4000_0703).translateDirect .system accLoad 0x10_0000_7FC0 with
     | .inl l => l.place == ⟨.scratch, 0, 0x7FC0⟩
     | .inr _ => false) = true ∧
    (match (hostPage 0x4000_0703).translateDirect .system accLoad 0x10_0000_8000 with
     | .inl _ => false
     | .inr _ => true) = true ∧ (0 < 8 ∧ 0x10_0000_0040 % 8 + 8 ≤ 8) ∧
    (hostPage 0x703).mirrors 0 = [] := by decide

/-- RegisterWriteResults, SpdmAnswers: the slot counts that are taken, and answers in and out of order. -/
theorem witness_register_writes :
    (1 ≤ (1 : Word).toNat % 128 ∧ (1 : Word).toNat % 128 ≤ 64) ∧ (1 ≤ (0x140 : Word).toNat % 128 ∧ (0x140 : Word).toNat % 128 ≤ 64) ∧
    (3 ≤ ({ State.reset with spdm := [(2, 3)] } : State).spdm.at 2 0) ∧ State.reset.spdm.at 2 0 < 1 := by decide
/-! ## Witnesses: optical ports -/

def withPort (q : Port) : State := { up with ports := [(3, q)] }
def upPort : Port := { Port.blank with state := 2, mode := 1, lanes := 0xFFFF, txLanes := 0xFFFF }
def withCtx (q : Port) (x : FabCtx) : State := withPort { q with ctxs := [(0, x)] }
def key5 : Key := ⟨9, 7, 5⟩
def group0 : Group := { ctx := 0, keyIdx := 5, counter := 0, key := 0, salt := 0, sealed := false, flits := [] }

/-- PortTraining: a port that is down with and without a mode, in training with 3 and 4 lanes, up with nothing on its way. -/
theorem witness_training :
    Port.blank.state = 0 ∧ ({ Port.blank with mode := 1 } : Port).mode ≠ 0 ∧ Port.blank.mode = 0 ∧
    ((withPort { Port.blank with state := 1 }).port 3).state = 1 ∧ laneCount (7 : BitVec 16).toNat < 4 ∧
    4 ≤ laneCount (15 : BitVec 16).toNat ∧ 2 ≤ ((withPort upPort).port 3).state ∧ bit upPort.evt 2 = false := by decide
theorem witness_port_quiet :
    (∀ f ∈ (withPort upPort).net, ∀ i, f.spot ≠ .egress 3 i) ∧ (∀ e ∈ upPort.ctxs, e.2.filling = []) :=
  ⟨fun _ h => (nomatch (show _ ∈ ([] : List Flight) from h)), fun _ h => (nomatch (show _ ∈ ([] : FMap FabCtx) from h))⟩

/-- KeyExchange: a pending key of the index on an encrypted port, none, and none in use. -/
theorem witness_keys :
    let s := withCtx { upPort with cryptOn := true } { FabCtx.blank with pending := some key5 }
    (s.fabCtx 3 0).pending = some key5 ∧ key5.idx = 5 ∧ (s.port 3).cryptOn = true ∧ (s.fabCtx 3 0).cur = none ∧
    (s.fabCtx 3 1).pending = none ∧ ((withPort upPort).port 3).cryptOn = false ∧ 1 ≠ (s.fabCtx 3 0).expected ∧
    -- the peer holds a key of the index, of another one, and of none; the port is up, and not yet
    (let t := withCtx { upPort with cryptOn := true } { FabCtx.blank with peerPend := some 5 }
     (t.fabCtx 3 (t.port 3).sel).peerPend = some (bits (0x0500_0000_0000_0000 : Word).toNat 63 56) ∧ (t.port 3).cryptOn = true ∧
     2 ≤ (t.port 3).state ∧ (t.fabCtx 3 0).peerPend ≠ some (bits (0x0600_0000_0000_0000 : Word).toNat 63 56) ∧
     (s.fabCtx 3 0).peerPend = none ∧ ({ upPort with state := 1 } : Port).state < 2) := by decide
/-- PortTraining: both ends staged a key of one index before, and one end only. -/
theorem witness_keys_before_training :
    let q : Port := { Port.blank with state := 1, cryptOn := true, ctxs := [(0, { FabCtx.blank with pending := some key5, peerPend := some 5 })] }
    q.cryptOn = true ∧ q.ctxs.look 0 = some { FabCtx.blank with pending := some key5, peerPend := some 5 } ∧
    (∀ e ∈ ([(0, { FabCtx.blank with pending := some key5 })] : FMap FabCtx), ∀ k, e.2.pending = some k → e.2.peerPend ≠ some k.idx) :=
  ⟨rfl, rfl, fun e he k _ => by cases he with
    | head => exact fun h => nomatch h
    | tail _ h => cases h⟩

/-- GroupsAreSent: a replay; and each thing that keeps a new group back; a started packet's flits before and after 24 cycles. -/
theorem witness_group_sends :
    let s := withCtx upPort { FabCtx.blank with held := [group0], resend := some 0 }
    let f := withCtx upPort { FabCtx.blank with filling := [.null], fillAt := 0 }
    2 ≤ (s.port 3).state ∧ s.window 3 0 = true ∧ s.window 3 1 = false ∧ (s.fabCtx 3 0).resend = some 0 ∧
    (s.fabCtx 3 0).held[0]? = some group0 ∧ s.endsInTime 3 1 = true ∧ (f.fabCtx 3 0).resend = none ∧
    f.mayStart 3 (f.fabCtx 3 0) = true ∧ f.waitingFor 3 0 = [] ∧ (f.fabCtx 3 0).filling ≠ [] ∧ (f.fabCtx 3 0).filling.length < 16 ∧
    f.now < (f.fabCtx 3 0).fillAt + 24 ∧ (f.fabCtx 3 0).fillAt + 24 ≤ 24 ∧
    (f.fabCtx 3 0).ctr + 1 < 2 ^ 39 ∧
    -- a slot that ends too soon, with nothing that waits and with a packet that waits
    (let late := { withCtx { upPort with mode := 2, slot := some (0, 1) } { FabCtx.blank with held := [group0], resend := some 0 } with
       rotation := some (0, [⟨0, 1, [(3, 0x8000)]⟩]) }
     late.window 3 0 = true ∧ late.endsInTime 3 1 = false ∧ late.waitingFor 3 0 = [] ∧
     (late.port 3).overrunRot ≠ late.rotation.map (fun r => r.1) ∧
     ({ late with net := [{ flightAt 26 (.egress 3 0) hdrBlank .empty with first := true }] } : State).waitingFor 3 0 ≠ []) := by decide
/-- A full replay buffer with a packet behind it that can no longer end in its slot, and a packet that makes up the next group. -/
theorem witness_held_past :
    let f := { flightAt 26 (.egress 3 0) hdrBlank .empty with first := true }
    let full := { withCtx { upPort with mode := 2, slot := some (0, 1) } { FabCtx.blank with held := List.replicate 512 group0 } with
      rotation := some (0, [⟨0, 1, [(3, 0x8000)]⟩]), net := [f] }
    let aged : State := { withCtx upPort FabCtx.blank with net := [f], now := 24 }
    (full.window 3 0 = true ∧ (full.fabCtx 3 0).resend = none ∧ 512 ≤ (full.fabCtx 3 0).held.length ∧ full.waitingFor 3 0 ≠ [] ∧
      full.heldPast 3 0 (full.waitingFor 3 0) = true) ∧
    aged.window 3 0 = true ∧ (aged.fabCtx 3 0).resend = none ∧ aged.mayStart 3 (aged.fabCtx 3 0) = true ∧
    fillGroup (fun _ => true) (aged.waitingFor 3 0) [] = (flitsOf 0 f, [f.id]) ∧ flitsOf 0 f ≠ [] := by decide
theorem witness_no_sends :
    ({ Port.blank with state := 3 } : Port).state = 3 ∧ 512 ≤ (List.replicate 512 group0).length ∧
    (({ Port.blank with mode := 2 } : Port).mode = 2 ∧ ({ State.reset.ptp with lost := true } : Ptp).lost = true) ∧
    (({ upPort with cryptOn := true } : Port).cryptOn = true ∧ FabCtx.blank.cur = none) ∧ (2 ^ 40 - 1 : Nat) = 2 ^ 40 - 1 := by
  decide

/-- GroupsAreReceived: the expected group with good checks; another; the 15th and the 16th failure. -/
theorem witness_receptions :
    Group.verifies group0 upPort.cryptOn FabCtx.blank.rxKey = true ∧ group0.counter = FabCtx.blank.expected ∧
    FabCtx.blank.rxSwitch = none ∧ ({ group0 with counter := 1 } : Group).counter ≠ FabCtx.blank.expected ∧
    ({ FabCtx.blank with fails := [(0, 14)] } : FabCtx).fails.at 0 0 < 15 ∧ 15 ≤ ({ FabCtx.blank with fails := [(0, 15)] } : FabCtx).fails.at 0 0 ∧
    FabCtx.blank.ahead { group0 with counter := 1 } = true ∧ FabCtx.blank.nakSent = false ∧ Port.blank.state < 2 ∧ 2 ≤ upPort.state ∧
    upPort.uncorr < 2 ^ 32 := by
  decide
/-- GroupsAreReceived: a bad codeword on a dark lane alone is not counted and no harm where the map has left the lane out; on a lane
with light it is both; a map that holds a dark lane makes no group good. -/
theorem witness_lanes :
    let port : Port := { upPort with lanes := 0xFFFC, lost := 1, unlit := 2 }
    let dark : Nat → Bool := fun i => bit port.lost i || bit port.unlit i
    (∀ i, i < 16 → bit 3 i = true → dark i = true) ∧ (∀ i, i < 16 → bit port.lanes i = true → dark i = false) ∧
    ((List.range 16).filter fun i => bit 3 i && !dark i).length = 0 ∧
    ((List.range 16).filter fun i => bit 7 i && !dark i).length = 1 ∧ port.noLight = 3 ∧ port.dark = 0 ∧
    ¬ (∀ i, i < 16 → bit 0xFFFF i = true → dark i = false) ∧ ¬ (∀ i, i < 16 → bit 7 i = true → dark i = true) := by
  decide

/-- ControlFrames: the second of two held groups acknowledged; a group that is not held; a replay to record, before and
after a millisecond. -/
theorem witness_frames :
    let a : Group := { group0 with counter := 1 }
    ([group0, a] = [group0] ++ a :: [] ∧ a.keyIdx = 5 ∧ a.counter = 1 ∧ (∀ h ∈ [group0], ¬ (h.keyIdx = 5 ∧ h.counter = 1))) ∧
    (∀ g ∈ [group0, a], ¬ (g.keyIdx = 5 ∧ g.counter = 2)) ∧ FabCtx.blank.resend = none ∧
    ({ upPort with replayAt := some 0 } : Port).replayAt = some 0 ∧ up.now < 0 + 1200000 ∧ 0 + 1200000 ≤ 1200000 := by decide

/-- LossOfLight: a lane lost anew, one lost already, maps of 3 and 4 lanes, a lane that is not ready, light that comes back. -/
theorem witness_light :
    lanesLess (1 : BitVec 16).toNat upPort.lost ≠ 0 ∧ lanesLess (1 : BitVec 16).toNat 1 = 0 ∧
    4 ≤ laneCount (0xF000 : BitVec 16).toNat ∧ laneCount (0xE000 : BitVec 16).toNat < 4 ∧
    (∀ i, i < 16 → bit (0xF000 : BitVec 16).toNat i = true → upPort.laneReady 0 i = true) ∧
    (bit ({ upPort with lost := 0x8000 } : Port).lost 15 = true ∧ ({ upPort with lost := 0x8000 } : Port).back.look 15 = none) ∧
    ({ upPort with back := [(15, 7)] } : Port).back.look 15 = some 7 ∧ 120000006 < 7 + 120000000 ∧
    (let q := { upPort with unlit := 0xFFF8 }
     let seen := fun l => lanesLess (lanesLess l q.lost) (lanesLess (lanesLess l q.lost) q.unlit)
     seen 8 ≠ 0 ∧ 4 ≤ laneCount (lanesLess q.lanes (q.lost + seen 8)) ∧
     seen 0xFFF9 ≠ 0 ∧ laneCount (lanesLess q.lanes (q.lost + seen 0xFFF9)) < 4 ∧ bit q.unlit 15 = true ∧ bit q.unlit 0 = false) ∧
    (upPort.back.look 15 = none ∧ bit upPort.lanes 15 = true ∧ bit upPort.lost 15 = false) ∧ 7 + 120000000 ≤ 120000007 := by decide

/-- R398, R399: a port whose lanes 4 to 7 go dark counts no codeword of theirs before LOS or after it, and a new map of the lanes left
sends the held groups again. -/
def litPort : State := withCtx upPort { FabCtx.blank with held := [group0] }
theorem test_dark_lanes :
    let a := went (execLos 3 0xF0 litPort)
    let b := went (execGroupReceive 3 group0 true true 0xF0 a)
    let c := went (execLos 3 0xF0 b)
    (a.port 3).lost = 0 ∧ (a.port 3).evt = 0 ∧ (b.port 3).uncorr = 0 ∧ (b.fabCtx 3 0).expected = 0 ∧ (c.port 3).evt = 1 ∧
    (c.port 3).stat = 0x0000_FFFF_00F0_0002 := by decide +kernel
theorem test_restripe_resends :
    let s := went (execRestripe 3 false 0xFF0F litPort)
    (s.fabCtx 3 0).resend = some 0 ∧ (s.fabCtx 3 1).held = [] ∧ (s.port 3).replays = 1 := by decide +kernel

/-- LaserMonitoring: a source that works and one that failed; no trend, past its limit, and before it; hours that fall. -/
theorem witness_lasers :
    Laser.blank.failed = false ∧ ({ Laser.blank with failed := true } : Laser).failed = true ∧
    (Laser.blank.b0 = none ∧ ({ Laser.blank with b0 := some 7 } : Laser).b0 = some 7 ∧ (1 : Word).toNat % 2 ^ 32 ≤ 1) ∧ sextNat (0 : Word).toNat 32 ≤ 0 ∧ 0 < sextNat (1 : Word).toNat 32 ∧
    3 * 200 ≤ 2 * 300 ∧ 2 * 299 < 3 * 200 ∧ (3 * 200 - 2 * 299) * 1000 / (2 * 1) < 2 ^ 32 ∧
    1000 ≤ ({ Laser.blank with rem := 1000 } : Laser).rem.toNat ∧ Laser.blank.rem.toNat < 1000 := by decide

/-- TimeAndSlots: good and bad offsets at the bounds, time lost and back, a rotation of two slots and its slots' ends. -/
def entry40 : SlotEntry := ⟨10, 40, []⟩
def slotted (time : Nat) : State :=
  { withPort { upPort with mode := 2 } with
    slotRun := true, slotN := 2, slotTable := [(0, entry40), (1, entry40)], ptp := { up.ptp with time } }
theorem witness_time :
    ((-50 : Int) ≤ 50 ∧ ¬ ((50 : Int) < -50 ∨ (50 : Int) < 50)) ∧ ((-51 : Int) < -50 ∨ (50 : Int) < -51) ∧ up.ptp.lost = false ∧
    ({ up.ptp with offset := 51 } : Ptp).offset > 50 ∧ up.ptp.lastSync + 2400000000 < 2400000001 ∧
    ({ up.ptp with lost := true, goodSince := some 0 } : Ptp).goodSince = some 0 ∧ 0 + 1200000000 ≤ 1200000000 ∧
    up.ptp.goodSince = none ∧ up.slotRun = false := by decide
theorem witness_rotation :
    (slotted 80).slotRun = true ∧ (slotted 80).slotEpoch ≤ (slotted 80).ptpNow ∧ (slotted 80).rotationEnd ≤ (slotted 80).ptpNow ∧
    0 < (((List.range (slotted 80).slotN).map fun i => (slotted 80).slotTable.at i .blank).map fun e => e.duration).sum ∧
    ({ slotted 79 with rotation := some (0, [entry40, entry40]) } : State).ptpNow <
      ({ slotted 79 with rotation := some (0, [entry40, entry40]) } : State).rotationEnd := by decide
theorem witness_slots :
    let s : State := { slotted 79 with rotation := some (0, [entry40, entry40]) }
    s.rotation = some (0, [entry40, entry40]) ∧ [entry40, entry40][1]? = some entry40 ∧ (s.port 3).mode = 2 ∧
    (0 + (([entry40, entry40].take 1).map fun e => e.duration).sum ≤ s.ptpNow ∧ s.ptpNow < 40 + 40) ∧
    (s.port 3).slot ≠ some (1, 80) ∧ 40 + entry40.duration ≤ (slotted 80).ptpNow := by decide
/-! ## Witnesses: rules stated whole -/

/-- DivisionRaisesNoTrap: the corners of 64 and of 32 bits. -/
theorem witness_division :
    ((0 : Word).setWidth 32 = 0#32 ∧ (0x1_0000_0000 : Word).setWidth 32 = 0#32) ∧
    (0x80000000 : Word).setWidth 32 = 0x80000000#32 ∧ (0xFFFFFFFFFFFFFFFF : Word).setWidth 32 = 0xFFFFFFFF#32 := by decide

/-- GroupsAreCheckedAtIssue: a group the core does not belong to, though a field without its valid bit names it; both
modes; and group 0. -/
theorem witness_group_checks :
    (run app).me.act = some appAct ∧ (run sys).me.act = some sysAct ∧ appAct.mode = .app ∧ sysAct.mode = .system ∧ (9 : BitVec 8) ≠ 0 ∧
    (runOn app { core0 with grp := 9 }).myCore.grp = 9 ∧
    (∀ j, j < 4 → (9 : Word).getLsbD (32 + j) = true → bits (9 : Word).toNat (8 * j + 7) (8 * j) ≠ (9 : BitVec 8).toNat) := by decide

/-- GroupsAreCheckedAtIssue: a group that a valid slot of GRP holds, and group 0. -/
theorem witness_groups_held : holdsGroup (runOn app { core0 with grp := 0x1_0000_0009 }) 9 ∧ holdsGroup (run sys) 0 :=
  ⟨.inr ⟨0, by decide, by decide, by decide⟩, .inl rfl⟩
/-! ## Results of single instructions, from the spec's worked examples and rules -/

/-- What an instruction leaves, read off the next state. -/
def after {α : Type} (i : Instr) (x : Ctx) (f : Ctx → α) : Option α :=
  match exec i (run x) with
  | .next t => some (f t.me)
  | .fault _ => none
  | .refused _ => none

/-- x10 and x11 hold two words; v2 and v3 hold vectors. -/
def twoWords (a b : Word) : Ctx := { app with win := [(2, a), (3, b)] }
def twoVecs (a b : Vec) : Ctx := { app with v := [(2, a), (3, b)] }

/-- R15, R16: x8 to x15 are i0 to i7 of the current window, so window 0 holds x10 as its third place. -/
theorem test_register_places : (twoWords 5 6).readX 10 = 5 ∧ (twoWords 5 6).readX 11 = 6 := by decide

/-- R60: addition wraps; ADDIW extends bit 31. -/
theorem test_add_wraps :
    after (.add 5 10 11) (twoWords 0xFFFFFFFFFFFFFFFF 2) (fun c => c.readX 5) = some 1 ∧
    after (.addiw 5 10 1) (twoWords 0x7FFFFFFF 0) (fun c => c.readX 5) = some 0xFFFFFFFF80000000 := by decide

/-- R60: SLT is signed, SLTU unsigned; SRAI copies the sign. -/
theorem test_signs :
    after (.slt 5 10 11) (twoWords 0xFFFFFFFFFFFFFFFF 1) (fun c => c.readX 5) = some 1 ∧
    after (.sltu 5 10 11) (twoWords 0xFFFFFFFFFFFFFFFF 1) (fun c => c.readX 5) = some 0 ∧
    after (.srai 5 10 63) (twoWords 0x8000000000000000 0) (fun c => c.readX 5) = some 0xFFFFFFFFFFFFFFFF := by decide

/-- R60, R61: high products and division corners. -/
theorem test_products_and_quotients :
    after (.mulh 5 10 11) (twoWords 0xFFFFFFFFFFFFFFFF 0xFFFFFFFFFFFFFFFF) (fun c => c.readX 5) = some 0 ∧
    after (.mulhu 5 10 11) (twoWords 0xFFFFFFFFFFFFFFFF 0xFFFFFFFFFFFFFFFF) (fun c => c.readX 5) = some 0xFFFFFFFFFFFFFFFE ∧
    after (.mulhsu 5 10 11) (twoWords 0xFFFFFFFFFFFFFFFF 0xFFFFFFFFFFFFFFFF) (fun c => c.readX 5) = some 0xFFFFFFFFFFFFFFFF ∧
    after (.div 5 10 11) (twoWords 0xFFFFFFFFFFFFFFF9 2) (fun c => c.readX 5) = some 0xFFFFFFFFFFFFFFFD ∧
    after (.rem 5 10 11) (twoWords 0xFFFFFFFFFFFFFFF9 2) (fun c => c.readX 5) = some 0xFFFFFFFFFFFFFFFF ∧
    after (.divw 5 10 11) (twoWords 0x80000000 0xFFFFFFFF) (fun c => c.readX 5) = some 0xFFFFFFFF80000000 := by decide

/-- R60: branch and jump targets are relative to the instruction, JALR clears bit 0, the link is the next instruction. -/
theorem test_control :
    after (.beq 10 11 0xFFE) (twoWords 1 1) (fun c => c.pc) = some 0xFC ∧ after (.beq 10 11 0xFFE) (twoWords 1 2) (fun c => c.pc) = some 0x104 ∧
    after (.jal 1 8) app (fun c => (c.pc, c.readX 1)) = some (0x110, 0x104) ∧
    after (.auipc 5 1) app (fun c => c.readX 5) = some 0x1100 ∧ after (.lui 5 0x80000) app (fun c => c.readX 5) = some 0xFFFFFFFF80000000 := by
  decide

/-- Words from lane 0 up. -/
def lanes (l : List Nat) : Vec := BitVec.ofNat 256 (l.foldr (fun w n => w + 2 ^ 32 * n) 0)

/-- Section 5's worked conversion, under RNE: lanes 0 to 7 and the flags. -/
def e4m3Inputs : Vec := lanes [0x40533333, 0x43FA0000, 0x3BA3D70A, 0x80000000, 0x7FC00000, 0x7F800001, 0x7F800000, 0]
theorem test_convert_to_e4m3 :
    after (.vcvtTo .f32 9 2 8 0) (twoVecs e4m3Inputs 0) (fun c => c.readV 9) = some 0x007E7F7F80037E45 := by decide
theorem test_convert_flags :
    after (.vcvtTo .f32 9 2 8 0) (twoVecs e4m3Inputs 0) (fun c => c.vflags) = some 0x17 := by decide

/-- R137's example: the tree of VRED.add, whole and with element 1 absent. -/
def redInput : Vec := lanes [0x4B800000, 0x3F800000, 0x3F800000, 0x3F800000, 0, 0, 0, 0]
theorem test_reduction :
    after (.vredAdd .f32 7 3 0) (twoVecs 0 redInput) (fun c => (c.readV 7, c.vflags)) = some (0x4B800001, 1) ∧
    after (.vredAdd .f32 7 3 2) { twoVecs 0 redInput with k := [(2, 0xFD)] } (fun c => (c.readV 7, c.vflags)) = some (0x4B800001, 0) := by
  decide

/-- R118, R119: opposite infinities are invalid; 2^24 + 1 is a tie and rounds to even. -/
theorem test_vector_add :
    after (.vadd .f32 7 2 3 0) (twoVecs 0x7F8000004B800000 0xFF8000003F800000) (fun c => (c.readV 7, c.vflags)) =
      some (0x7FC000004B800000, 0x11) := by decide

/-- R329 names SHAKE256: the first 16 bytes of its answer to no bytes at all, 46 B9 DD 2B 0B A8 8D 13 23 3B 3F EB 74 3E EB 24,
as FIPS 202's published value gives them. -/
theorem test_shake : shake256 [] = 0x24EB3E74EB3F3B23138DA80B2BDDB946 := by decide +kernel
end Sys2Proof.Tests
end

section
/-! SUPPORT and PROOFS. Scalar arithmetic (R60, R61): what each result is as an integer, and the statements about it. -/

namespace Sys2Proof.ScalarProofs

open Sys2Proof Sys2Proof.Machine Sys2Proof.Safety Sys2Proof.Laws

/-! ### From the value of a result to the statement about its instruction -/

theorem regResult_of_value {i : Reg → Reg → Reg → Instr} {f : Word → Word → Int} (g : Word → Word → Word)
    (run : ∀ s d a b, exec (i d a b) s = .next (s.putX d (g (s.x a) (s.x b))))
    (value : ∀ x y, g x y = BitVec.ofInt 64 (f x y)) : RegResult i f := fun s d a b =>
  ⟨_, run s d a b, value (s.x a) (s.x b) ▸ putX_writesX s d _⟩

theorem immResult_of_value {i : Reg → Reg → BitVec 12 → Instr} {f : Word → Int → Int} (g : Word → Word → Word)
    (run : ∀ s d a imm, exec (i d a imm) s = .next (s.putX d (g (s.x a) (imm12 imm))))
    (value : ∀ x (imm : BitVec 12), g x (imm12 imm) = BitVec.ofInt 64 (f x imm.toInt)) : ImmResult i f := fun s d a imm =>
  ⟨_, run s d a imm, value (s.x a) imm ▸ putX_writesX s d _⟩

theorem shiftResult_of_value {n : Nat} {i : Reg → Reg → BitVec n → Instr} {f : Word → Nat → Int} (g : Word → Nat → Word)
    (run : ∀ s d a sh, exec (i d a sh) s = .next (s.putX d (g (s.x a) sh.toNat)))
    (value : ∀ x k, g x k = BitVec.ofInt 64 (f x k)) : ShiftResult i f := fun s d a sh =>
  ⟨_, run s d a sh, value (s.x a) sh.toNat ▸ putX_writesX s d _⟩

/-! ### Operations of any width as wrapped integers -/

section AnyWidth

variable {w : Nat} (x y : BitVec w)

theorem eq_ofInt_toNat : x = BitVec.ofInt w x.toNat := by simp

theorem add_eq_ofInt : x + y = BitVec.ofInt w (x.toNat + y.toNat) := by
  rw [BitVec.ofInt_add, ← eq_ofInt_toNat, ← eq_ofInt_toNat]

theorem sub_eq_ofInt : x - y = BitVec.ofInt w (x.toNat - y.toNat) := by
  rw [Int.sub_eq_add_neg, BitVec.ofInt_add, BitVec.ofInt_neg, ← eq_ofInt_toNat, ← eq_ofInt_toNat, BitVec.sub_eq_add_neg]

theorem mul_eq_ofInt : x * y = BitVec.ofInt w (x.toNat * y.toNat) := by
  rw [BitVec.ofInt_mul, ← eq_ofInt_toNat, ← eq_ofInt_toNat]

theorem shiftLeft_eq_ofInt (k : Nat) : x <<< k = BitVec.ofInt w (x.toNat * 2 ^ k) := by
  have h : (x.toNat * 2 ^ k : Int) = (x.toNat * 2 ^ k : Nat) := by push_cast; rfl
  apply BitVec.eq_of_toNat_eq
  rw [h, BitVec.ofInt_natCast, BitVec.toNat_shiftLeft, Nat.shiftLeft_eq, BitVec.toNat_ofNat]

theorem ushiftRight_eq_ofInt (k : Nat) : x >>> k = BitVec.ofInt w (x.toNat / 2 ^ k) := by
  have h : (x.toNat / 2 ^ k : Int) = (x.toNat / 2 ^ k : Nat) := by push_cast; rfl
  apply BitVec.eq_of_toNat_eq
  rw [h, BitVec.ofInt_natCast, BitVec.toNat_ushiftRight, Nat.shiftRight_eq_div_pow, BitVec.toNat_ofNat,
    Nat.mod_eq_of_lt (Nat.lt_of_le_of_lt (Nat.div_le_self _ _) x.isLt)]

theorem sshiftRight_eq_ofInt (k : Nat) : x.sshiftRight k = BitVec.ofInt w (x.toInt / 2 ^ k) := by
  rw [← BitVec.ofInt_toInt (x := x.sshiftRight k), BitVec.toInt_sshiftRight, Int.shiftRight_eq_div_pow]
  simp

theorem allOnes_eq_ofInt : BitVec.allOnes w = BitVec.ofInt w (-1) :=
  BitVec.neg_one_eq_allOnes.symm.trans (BitVec.ofInt_neg (n := 1)).symm

theorem divS_eq_ofInt : divS x y = BitVec.ofInt w (if y = 0 then -1 else x.toInt.tdiv y.toInt) := by
  unfold divS
  split
  · exact allOnes_eq_ofInt
  · rfl

theorem divU_eq_ofInt : divU x y = BitVec.ofInt w (if y = 0 then -1 else x.toNat / y.toNat) := by
  unfold divU
  split
  · exact allOnes_eq_ofInt
  · rw [← BitVec.ofInt_natCast, Int.natCast_ediv]

theorem remU_eq_ofInt : remU x y = BitVec.ofInt w (if y = 0 then x.toNat else x.toNat % y.toNat) := by
  unfold remU
  split
  · exact eq_ofInt_toNat x
  · rw [← BitVec.ofInt_natCast, Int.natCast_emod]

theorem remS_eq_srem : remS x y = x.srem y := by
  unfold remS
  split
  · next h => subst h; simp
  · rw [← BitVec.toInt_srem, BitVec.ofInt_toInt]

theorem toInt_remS : (remS x y).toInt = if y = 0 then x.toInt else x.toInt.tmod y.toInt := by
  split
  · next h => simp [remS, h]
  · rw [remS_eq_srem, BitVec.toInt_srem]

end AnyWidth

/-! ### The W forms: a 32-bit value sign-extended -/

theorem toNat_low32 (x : Word) : ((low32 x).toNat : Int) = u32 x := by simp [low32, u32]

theorem toInt_low32 (x : Word) : (low32 x).toInt = s32 x := BitVec.toInt_setWidth x

theorem low32_eq_ofInt (x : Word) : low32 x = BitVec.ofInt 32 x.toNat := by simp [low32]

theorem low32_ofInt (k : Int) : low32 (BitVec.ofInt 64 k) = BitVec.ofInt 32 k := by
  apply BitVec.eq_of_toNat_eq
  rw [low32, BitVec.toNat_setWidth, BitVec.toNat_ofInt, BitVec.toNat_ofInt]
  omega

theorem low32_eq_zero_iff (x : Word) : low32 x = 0 ↔ u32 x = 0 := by
  rw [← toNat_low32, Int.natCast_eq_zero]
  exact BitVec.toNat_inj.symm

theorem sext32_eq_ofInt (v : BitVec 32) : sext32 v = BitVec.ofInt 64 v.toInt := rfl

theorem sext32_ofInt (k : Int) : sext32 (BitVec.ofInt 32 k) = BitVec.ofInt 64 (wrap32 k) := by
  rw [sext32_eq_ofInt, BitVec.toInt_ofInt, wrap32]

theorem wrap32_neg_one : wrap32 (-1) = -1 := by decide

theorem sext32_add (x y : Word) : sext32 (low32 x + low32 y) = BitVec.ofInt 64 (wrap32 (x.toNat + y.toNat)) := by
  rw [low32_eq_ofInt, low32_eq_ofInt, ← BitVec.ofInt_add, sext32_ofInt]

theorem sext32_sub (x y : Word) : sext32 (low32 x - low32 y) = BitVec.ofInt 64 (wrap32 (x.toNat - y.toNat)) := by
  rw [low32_eq_ofInt, low32_eq_ofInt, BitVec.sub_eq_add_neg, ← BitVec.ofInt_neg, ← BitVec.ofInt_add, ← Int.sub_eq_add_neg,
    sext32_ofInt]

theorem sext32_mul (x y : Word) : sext32 (low32 x * low32 y) = BitVec.ofInt 64 (wrap32 (x.toNat * y.toNat)) := by
  rw [low32_eq_ofInt, low32_eq_ofInt, ← BitVec.ofInt_mul, sext32_ofInt]

theorem sext32_shiftLeft (x : Word) (k : Nat) : sext32 (low32 x <<< k) = BitVec.ofInt 64 (wrap32 (x.toNat * 2 ^ k)) := by
  have h : low32 x <<< k = low32 (x <<< k) := (BitVec.setWidth_shiftLeft_of_le (by decide)).symm
  rw [h, shiftLeft_eq_ofInt, low32_ofInt, sext32_ofInt]

theorem sext32_ushiftRight (x : Word) (k : Nat) : sext32 (low32 x >>> k) = BitVec.ofInt 64 (wrap32 (u32 x / 2 ^ k)) := by
  rw [ushiftRight_eq_ofInt, toNat_low32, sext32_ofInt]

theorem sext32_sshiftRight (x : Word) (k : Nat) :
    sext32 ((low32 x).sshiftRight k) = BitVec.ofInt 64 (wrap32 (s32 x / 2 ^ k)) := by
  rw [sshiftRight_eq_ofInt, toInt_low32, sext32_ofInt]

theorem sext32_divS (x y : Word) :
    sext32 (divS (low32 x) (low32 y)) = BitVec.ofInt 64 (if u32 y = 0 then -1 else wrap32 ((s32 x).tdiv (s32 y))) := by
  rw [divS_eq_ofInt, sext32_ofInt, toInt_low32, toInt_low32, apply_ite wrap32, wrap32_neg_one]
  simp only [low32_eq_zero_iff]

theorem sext32_divU (x y : Word) :
    sext32 (divU (low32 x) (low32 y)) = BitVec.ofInt 64 (if u32 y = 0 then -1 else wrap32 (u32 x / u32 y)) := by
  rw [divU_eq_ofInt, sext32_ofInt, toNat_low32, toNat_low32, apply_ite wrap32, wrap32_neg_one]
  simp only [low32_eq_zero_iff]

theorem sext32_remS (x y : Word) :
    sext32 (remS (low32 x) (low32 y)) = BitVec.ofInt 64 (if u32 y = 0 then s32 x else (s32 x).tmod (s32 y)) := by
  rw [sext32_eq_ofInt, toInt_remS, toInt_low32, toInt_low32]
  simp only [low32_eq_zero_iff]

theorem sext32_remU (x y : Word) :
    sext32 (remU (low32 x) (low32 y)) = BitVec.ofInt 64 (if u32 y = 0 then s32 x else wrap32 (u32 x % u32 y)) := by
  have h : wrap32 (u32 x) = s32 x := by rw [← toNat_low32, ← toInt_low32, BitVec.toInt_eq_toNat_bmod]; rfl
  rw [remU_eq_ofInt, sext32_ofInt, toNat_low32, toNat_low32, apply_ite wrap32, h]
  simp only [low32_eq_zero_iff]

/-! ### Immediates and comparisons -/

theorem imm12_eq_ofInt (imm : BitVec 12) : imm12 imm = BitVec.ofInt 64 imm.toInt := rfl

theorem toNat_imm12 (imm : BitVec 12) : (imm12 imm).toNat = (imm.toInt % 2 ^ 64).toNat := BitVec.toNat_ofInt _

theorem toInt_imm12 (imm : BitVec 12) : (imm12 imm).toInt = imm.toInt := BitVec.toInt_signExtend_of_le (by decide)

theorem imm20_eq_ofInt (imm : BitVec 20) : imm20 imm = BitVec.ofInt 64 (imm.toInt * 4096) := by
  rw [BitVec.ofInt_mul, imm20, BitVec.shiftLeft_eq_mul_twoPow]
  rfl

theorem flag_eq_ofInt {b : Bool} {p : Prop} [Decidable p] (h : b = true ↔ p) : flag b = BitVec.ofInt 64 (if p then 1 else 0) := by
  unfold flag
  simp only [h]
  split <;> rfl

/-! ### The statements -/

theorem registerArithmeticResults : Claims.RegisterArithmeticResults := by
  refine ⟨?add, ?sub, ?and, ?or, ?xor, ?slt, ?sltu, ?sll, ?srl, ?sra⟩
  case add => exact regResult_of_value (· + ·) (fun _ _ _ _ => rfl) add_eq_ofInt
  case sub => exact regResult_of_value (· - ·) (fun _ _ _ _ => rfl) sub_eq_ofInt
  case and =>
    exact regResult_of_value (· &&& ·) (fun _ _ _ _ => rfl) fun x y => by rw [← BitVec.toNat_and, ← eq_ofInt_toNat]
  case or =>
    exact regResult_of_value (· ||| ·) (fun _ _ _ _ => rfl) fun x y => by rw [← BitVec.toNat_or, ← eq_ofInt_toNat]
  case xor =>
    exact regResult_of_value (· ^^^ ·) (fun _ _ _ _ => rfl) fun x y => by rw [← BitVec.toNat_xor, ← eq_ofInt_toNat]
  case slt =>
    exact regResult_of_value (fun x y => flag (x.slt y)) (fun _ _ _ _ => rfl) fun _ _ => flag_eq_ofInt BitVec.slt_iff_toInt_lt
  case sltu =>
    exact regResult_of_value (fun x y => flag (x.ult y)) (fun _ _ _ _ => rfl) fun _ _ => flag_eq_ofInt BitVec.ult_iff_toNat_lt
  case sll =>
    exact regResult_of_value (fun x y => x <<< (y.toNat % 64)) (fun _ _ _ _ => rfl) fun x y => shiftLeft_eq_ofInt x _
  case srl =>
    exact regResult_of_value (fun x y => x >>> (y.toNat % 64)) (fun _ _ _ _ => rfl) fun x y => ushiftRight_eq_ofInt x _
  case sra =>
    exact regResult_of_value (fun x y => x.sshiftRight (y.toNat % 64)) (fun _ _ _ _ => rfl) fun x y => sshiftRight_eq_ofInt x _

theorem immediateArithmeticResults : Claims.ImmediateArithmeticResults := by
  refine ⟨?addi, ?slti, ?sltiu, ?xori, ?ori, ?andi, ?slli, ?srli, ?srai, ?lui, ?auipc⟩
  case addi =>
    exact immResult_of_value (· + ·) (fun _ _ _ _ => rfl) fun x imm => by
      rw [BitVec.ofInt_add, ← eq_ofInt_toNat, imm12_eq_ofInt]
  case slti =>
    exact immResult_of_value (fun x i => flag (x.slt i)) (fun _ _ _ _ => rfl) fun x imm =>
      flag_eq_ofInt (by rw [BitVec.slt_iff_toInt_lt, toInt_imm12])
  case sltiu =>
    exact immResult_of_value (fun x i => flag (x.ult i)) (fun _ _ _ _ => rfl) fun x imm =>
      flag_eq_ofInt (by rw [BitVec.ult_iff_toNat_lt, toNat_imm12]; omega)
  case xori =>
    exact immResult_of_value (· ^^^ ·) (fun _ _ _ _ => rfl) fun x imm => by
      rw [← toNat_imm12, ← BitVec.toNat_xor, ← eq_ofInt_toNat]
  case ori =>
    exact immResult_of_value (· ||| ·) (fun _ _ _ _ => rfl) fun x imm => by
      rw [← toNat_imm12, ← BitVec.toNat_or, ← eq_ofInt_toNat]
  case andi =>
    exact immResult_of_value (· &&& ·) (fun _ _ _ _ => rfl) fun x imm => by
      rw [← toNat_imm12, ← BitVec.toNat_and, ← eq_ofInt_toNat]
  case slli => exact shiftResult_of_value (· <<< ·) (fun _ _ _ _ => rfl) shiftLeft_eq_ofInt
  case srli => exact shiftResult_of_value (· >>> ·) (fun _ _ _ _ => rfl) ushiftRight_eq_ofInt
  case srai => exact shiftResult_of_value BitVec.sshiftRight (fun _ _ _ _ => rfl) sshiftRight_eq_ofInt
  case lui => exact fun s d imm => ⟨_, rfl, imm20_eq_ofInt imm ▸ putX_writesX s d _⟩
  case auipc =>
    refine fun s d imm => ⟨_, rfl, ?_⟩
    rw [BitVec.ofInt_add, ← eq_ofInt_toNat, ← imm20_eq_ofInt]
    exact putX_writesX s d _

theorem wordArithmeticResults : Claims.WordArithmeticResults := by
  refine ⟨?addw, ?subw, ?sllw, ?srlw, ?sraw, ?addiw, ?slliw, ?srliw, ?sraiw⟩
  case addw => exact regResult_of_value (fun x y => sext32 (low32 x + low32 y)) (fun _ _ _ _ => rfl) sext32_add
  case subw => exact regResult_of_value (fun x y => sext32 (low32 x - low32 y)) (fun _ _ _ _ => rfl) sext32_sub
  case sllw =>
    exact regResult_of_value (fun x y => sext32 (low32 x <<< (y.toNat % 32))) (fun _ _ _ _ => rfl) fun x _ => sext32_shiftLeft x _
  case srlw =>
    exact regResult_of_value (fun x y => sext32 (low32 x >>> (y.toNat % 32))) (fun _ _ _ _ => rfl) fun x _ => sext32_ushiftRight x _
  case sraw =>
    exact regResult_of_value (fun x y => sext32 ((low32 x).sshiftRight (y.toNat % 32))) (fun _ _ _ _ => rfl) fun x _ =>
      sext32_sshiftRight x _
  case addiw =>
    refine immResult_of_value (fun x i => sext32 (low32 x + low32 i)) (fun _ _ _ _ => rfl) fun x imm => ?_
    rw [imm12_eq_ofInt, low32_ofInt, low32_eq_ofInt, ← BitVec.ofInt_add, sext32_ofInt]
  case slliw => exact shiftResult_of_value (fun x k => sext32 (low32 x <<< k)) (fun _ _ _ _ => rfl) sext32_shiftLeft
  case srliw => exact shiftResult_of_value (fun x k => sext32 (low32 x >>> k)) (fun _ _ _ _ => rfl) sext32_ushiftRight
  case sraiw => exact shiftResult_of_value (fun x k => sext32 ((low32 x).sshiftRight k)) (fun _ _ _ _ => rfl) sext32_sshiftRight

theorem multiplyDivideResults : Claims.MultiplyDivideResults := by
  refine ⟨?mul, ?mulh, ?mulhsu, ?mulhu, ?div, ?divu, ?rem, ?remu, ?mulw, ?divw, ?divuw, ?remw, ?remuw⟩
  case mul => exact regResult_of_value (· * ·) (fun _ _ _ _ => rfl) mul_eq_ofInt
  case mulh => exact regResult_of_value (fun x y => high (x.toInt * y.toInt)) (fun _ _ _ _ => rfl) fun _ _ => rfl
  case mulhsu => exact regResult_of_value (fun x y => high (x.toInt * y.toNat)) (fun _ _ _ _ => rfl) fun _ _ => rfl
  case mulhu => exact regResult_of_value (fun x y => high ((x.toNat * y.toNat : Nat) : Int)) (fun _ _ _ _ => rfl) fun _ _ => rfl
  case div => exact regResult_of_value divS (fun _ _ _ _ => rfl) divS_eq_ofInt
  case divu => exact regResult_of_value divU (fun _ _ _ _ => rfl) divU_eq_ofInt
  case rem =>
    exact regResult_of_value remS (fun _ _ _ _ => rfl) fun x y => by rw [← toInt_remS, BitVec.ofInt_toInt]
  case remu => exact regResult_of_value remU (fun _ _ _ _ => rfl) remU_eq_ofInt
  case mulw => exact regResult_of_value (fun x y => sext32 (low32 x * low32 y)) (fun _ _ _ _ => rfl) sext32_mul
  case divw => exact regResult_of_value (fun x y => sext32 (divS (low32 x) (low32 y))) (fun _ _ _ _ => rfl) sext32_divS
  case divuw => exact regResult_of_value (fun x y => sext32 (divU (low32 x) (low32 y))) (fun _ _ _ _ => rfl) sext32_divU
  case remw => exact regResult_of_value (fun x y => sext32 (remS (low32 x) (low32 y))) (fun _ _ _ _ => rfl) sext32_remS
  case remuw => exact regResult_of_value (fun x y => sext32 (remU (low32 x) (low32 y))) (fun _ _ _ _ => rfl) sext32_remU

/-- Settles O12: every result is a wrapped integer, and completing writes that one register. -/
theorem scalarArithmetic : Obligations.ScalarArithmetic :=
  ⟨registerArithmeticResults, immediateArithmeticResults, wordArithmeticResults, multiplyDivideResults⟩

/-! ### Division (R61) -/

/-- An instruction completes and writes one register with a value. -/
def Gives (s : State) (d : Reg) (i : Instr) (v : Word) : Prop := ∃ t, exec i s = .next t ∧ WritesX s t d v

theorem gives_of_exec {s : State} {d : Reg} {i : Instr} {v : Word} (h : exec i s = .next (s.putX d v)) : Gives s d i v :=
  ⟨_, h, putX_writesX s d v⟩

section Division

variable {w : Nat} (x : BitVec w)

theorem divS_zero : divS x 0 = BitVec.allOnes w := if_pos rfl
theorem divU_zero : divU x 0 = BitVec.allOnes w := if_pos rfl
theorem remS_zero : remS x 0 = x := if_pos rfl
theorem remU_zero : remU x 0 = x := if_pos rfl

end Division

/-- Settles O10: a division is one write of a register, at every divisor. -/
theorem divisionNeverTraps : Obligations.DivisionNeverTraps := by
  intro s d a b x y gives ones x32
  have run {i : Instr} {u : Word} (h : exec i s = .next (s.putX d u)) : ∃ v, gives i v := ⟨u, gives_of_exec h⟩
  have yields {i : Instr} (u v : Word) (h : exec i s = .next (s.putX d u)) (huv : u = v) : gives i v := gives_of_exec (huv ▸ h)
  refine ⟨?completes, ?zero, ?overflow, ?zeroW, ?overflowW⟩
  case completes =>
    simp only [List.forall_mem_cons, List.not_mem_nil, false_imp_iff, implies_true, and_true]
    exact ⟨run rfl, run rfl, run rfl, run rfl, run rfl, run rfl, run rfl, run rfl⟩
  case zero =>
    intro hy
    exact ⟨yields (divS x y) _ rfl (by rw [hy, divS_zero]; rfl), yields (divU x y) _ rfl (by rw [hy, divU_zero]; rfl),
      yields (remS x y) _ rfl (by rw [hy, remS_zero]), yields (remU x y) _ rfl (by rw [hy, remU_zero])⟩
  case overflow =>
    intro hx hy
    exact ⟨yields (divS x y) _ rfl (by rw [hx, hy]; decide), yields (remS x y) _ rfl (by rw [hx, hy]; decide)⟩
  case zeroW =>
    intro hy
    have hy' : low32 y = 0 := hy
    exact ⟨yields (sext32 (divS (low32 x) (low32 y))) _ rfl (by rw [hy', divS_zero]; decide),
      yields (sext32 (divU (low32 x) (low32 y))) _ rfl (by rw [hy', divU_zero]; decide),
      yields (sext32 (remS (low32 x) (low32 y))) _ rfl (by rw [hy', remS_zero]; rfl),
      yields (sext32 (remU (low32 x) (low32 y))) _ rfl (by rw [hy', remU_zero]; rfl)⟩
  case overflowW =>
    intro hx hy
    have hx' : low32 x = 0x80000000#32 := hx
    have hy' : low32 y = 0xFFFFFFFF#32 := hy
    exact ⟨yields (sext32 (divS (low32 x) (low32 y))) _ rfl (by rw [hx', hy', show x32 = sext32 (low32 x) from rfl, hx']; decide),
      yields (sext32 (remS (low32 x) (low32 y))) _ rfl (by rw [hx', hy']; decide)⟩

end Sys2Proof.ScalarProofs
end

section
/-! SUPPORT and PROOFS. States that refute statements about accesses and commands: what sets out from a core lets a PUSH into the
router that has waited behind the local port (R218, R252); an AMO that stalls records nothing; a part of an element stands in one
group with an access of another owner. -/

namespace Sys2Proof.AccessRefutations

open Sys2Proof Sys2Proof.Machine Sys2Proof.Safety

/-! ### A PUSH behind the local port -/

/-- The object of the PUSH. -/
def object : Place := ⟨.sync, 0, 0⟩

/-- The request of the PUSH, of context 1 of core 0, charged to a class. -/
def pushRequest (k : CountClass) : Req :=
  { Req.blank with
    id := 7, group := 7, owner := .ctx 0 1 0, cls := some k, target := .pair .push 0 object false false 0,
    route := some (⟨[], 0, 0⟩, []) }

/-- Its packet, which waits behind local port 0 of site 0. -/
def pushPacket : Flight :=
  { id := 8, stamp := 8, pkt := ⟨{ hdrBlank with kind := .pairReq }, .pairReq 7 .push 0 object false false 0 [] 0⟩, site := 0,
    came := 0, inDir := none, inPort := 0, cls := 0, nonW := false, first := true, spot := .queued, treated := false }

/-- Context 1 with one operation outstanding in each of the classes to which its PUSH is charged here. -/
def pushContext : Ctx := { Ctx.blank with ld := 1, sy := 1 }

/-- The first byte of the scratchpad of core 1 in the window of core 0's cluster (R96): an access to it takes a route. -/
def neighbour : Nat := 0x408000

/-- Context 0 of core 0 is in focus with the neighbour's address in x1, and the PUSH of context 1 waits behind the local port. -/
def pushWaits (k : CountClass) : State :=
  { State.reset with
    ctxs := [(0, { Ctx.blank with glob := [(1, w64 neighbour)] }), (1, pushContext)], reqs := [pushRequest k], net := [pushPacket],
    fresh := 10 }

/-! ### What is evaluated -/

/-- The state once an access has passed its checks, has been recorded and has its route, if it gets so far. -/
def reachedState (s : State) (a : Acc) (va n : Nat) (needReply : Bool) : Option State :=
  match s.translate s.meWho s.me.mode a va with
  | .ok t l near own =>
    let v := t.record t.focus.core l n a.r a.w
    match v.reach v.focus.core l near own needReply with
    | .own => some v
    | .routed _ _ u => some u
    | .miss _ => none
  | .wait _ | .fault _ _ => none

theorem reaches_of_reachedState {s u : State} {a : Acc} {va n : Nat} {needReply : Bool}
    (h : reachedState s a va n needReply = some u) : ∃ t l route, Reaches s a va n needReply t u l route := by
  unfold reachedState at h
  split at h
  case h_1 t l near own ht =>
    dsimp only at h
    split at h
    case h_1 hr => exact ⟨t, l, none, near, own, ht, .inl ⟨hr, rfl, (Option.some.inj h).symm⟩⟩
    case h_2 f r v hr => exact ⟨t, l, some (f, r), near, own, ht, .inr ⟨f, r, Option.some.inj h ▸ hr, rfl⟩⟩
    case h_3 => cases h
  all_goals cases h

/-- What the state after an instruction shows. -/
def shownAfter {α : Type} (f : State → α) (i : Instr) (s : State) : Option α :=
  match exec i s with
  | .next t => some (f t)
  | .fault _ | .refused _ => none

theorem shownAfter_eq {α : Type} (f : State → α) {i : Instr} {s t : State} (h : exec i s = .next t) :
    shownAfter f i s = some (f t) := by rw [shownAfter, h]

/-- Operations of context 1 of core 0 in class LD and in class SY. -/
def loadsOfOne (s : State) : Nat := (s.ctxs.at 1 .blank).ld
def syOfOne (s : State) : Nat := (s.ctxs.at 1 .blank).sy

/-- Where nothing of context 1 has changed but what a PUSH of class SY changes, its loads are as before. -/
theorem loadsOfOne_eq_of_butPushes {i : Instr} {s t : State} (h : exec i s = .next t)
    (hb : ButPushes (s.ctxs.at 1 .blank) (t.ctxs.at 1 .blank)) : shownAfter loadsOfOne i s = some (loadsOfOne s) :=
  (shownAfter_eq loadsOfOne h).trans (congrArg (fun x => some x.ld) hb)

theorem load_reaches_neighbour : (reachedState (pushWaits .ld) accLoad neighbour 1 true).isSome = true := by decide

theorem loads_fall_with_lb : shownAfter loadsOfOne (.lb 2 1 0) (pushWaits .ld) = some 0 := by decide

/-- Refutes O24: a load leaves other contexts as they are, but for PUSHes that enter the router before its packet and leave the count
of SY. The statement also speaks of a state in which the request of such a PUSH is charged to LD, against R75: there the load count
of that context falls. -/
theorem not_scalarAccessesIssue : ¬ Obligations.ScalarAccessesIssue := by
  rintro ⟨⟨lb, -⟩, -⟩
  obtain ⟨u, hu⟩ := Option.isSome_iff_exists.mp load_reaches_neighbour
  obtain ⟨t, l, route, hr⟩ := reaches_of_reachedState hu
  obtain ⟨-, -, issues⟩ := lb (pushWaits .ld) 2 1 0
  obtain ⟨-, issues⟩ := issues (by decide) (by decide) (by decide)
  obtain ⟨v, hv, issued⟩ := issues (by decide) t u l route hr
  have same := loadsOfOne_eq_of_butPushes hv (issued.contexts.others 1 (by decide))
  rw [loads_fall_with_lb] at same
  exact absurd same (by decide)

/-! ### A release -/

/-- A STREL of context 0 that waits to set out over a route. -/
def release : Req :=
  { Req.blank with
    id := 5, group := 5, owner := .ctx 0 0 0, cls := some .st, target := .mem .store ⟨.scratch, 1, 0⟩ 8 (natLE 8 0) allBytes,
    route := some (⟨[], 1, 0⟩, []), stage := .release }

def releaseWaits : State := { pushWaits .ld with reqs := [release, pushRequest .ld] }

theorem loads_fall_with_release : shownAfter loadsOfOne (.strelInject 5) releaseWaits = some 0 := by decide

/-- Refutes O44: the release that sets out lets in a PUSH that is charged to LD, as in the refutation of O24. -/
theorem not_routedRequestsAndReplies : ¬ Obligations.RoutedRequestsAndReplies := by
  rintro ⟨-, -, ⟨-, releases⟩, -⟩
  obtain ⟨setsOut, -⟩ := releases releaseWaits 5 release 0 0 0 rfl rfl rfl
  have nothingEarlier : ∀ q ∈ releaseWaits.reqs, ¬ q.id < 5 := by decide
  obtain ⟨t, ht, -, -, others, -⟩ := setsOut (fun q hq hlt => absurd hlt (nothingEarlier q hq)) (by decide) (by decide) rfl
  have same := loadsOfOne_eq_of_butPushes ht (others 1)
  rw [loads_fall_with_release] at same
  exact absurd same (by decide)

/-! ### A command of an engine -/

/-- A QWAIT on the neighbour's scratchpad that has started and read nothing. -/
def qwait : Instr := .qwait true (BitVec.ofNat 48 neighbour) 0

def qwaitJob : Job :=
  { cmd := ⟨0, .app, 0⟩, instr := qwait, cfg := .blank, loop := none, cursor := 0, pos := 0, buf := [], hdr := none, idx := none,
    done := false, polled := none }

/-- The QWAIT is in focus while a PUSH, charged to SY as R75 says, waits behind the core's local port. -/
def qwaitReads : State :=
  { pushWaits .sy with cores := [(0, { Core.blank 0 with jobs := [(queueNo .cpq0, qwaitJob)] })], focus := ⟨0, 0, .cpq0, false⟩ }

/-- An access of a command has its place and route. -/
def engLocOk : EngLoc → Bool
  | .ok _ _ _ => true
  | .wait _ | .fault _ _ _ => false

theorem exists_of_engLocOk {e : EngLoc} (h : engLocOk e = true) : ∃ u l route, e = .ok u l route := by
  cases e with
  | ok u l route => exact ⟨u, l, route, rfl⟩
  | wait u => cases h
  | fault u r addr => cases h

theorem qwait_reaches_neighbour : engLocOk (qwaitReads.engLoc qwaitJob accLoad false true 8 neighbour) = true := by decide

theorem sy_falls_with_qwait : shownAfter syOfOne qwait qwaitReads = some 0 := by decide

/-- Refutes O36: a command's read is said to leave every context as it is; but its packet lets in a PUSH that waits behind the local
port, which leaves its count (R75, R252). -/
theorem not_commandLife : ¬ Obligations.CommandLife := by
  rintro ⟨-, ⟨-, waits, -⟩, -⟩
  obtain ⟨u, l, route, hl⟩ := exists_of_engLocOk qwait_reaches_neighbour
  obtain ⟨reads, -⟩ := waits qwaitReads true (BitVec.ofNat 48 neighbour) 0 qwaitJob ⟨rfl, rfl, rfl⟩ rfl (by decide)
  obtain ⟨t, ht, access⟩ := reads rfl (by decide) u l route hl (by decide)
  have same : shownAfter syOfOne qwait qwaitReads = some (syOfOne qwaitReads) := by
    rw [← show syOfOne t = syOfOne qwaitReads by rw [syOfOne, access.ctxs, syOfOne]]
    exact shownAfter_eq syOfOne ht
  rw [sy_falls_with_qwait] at same
  exact absurd same (by decide)

/-! ### An AMO that stalls -/

/-- Context 0 of core 0 has 16 operations of class SY outstanding, and the block of its core records its accesses. -/
def syFull : State :=
  { State.reset with
    ctxs := [(0, { Ctx.blank with sy := 16 })], cores := [(0, { Core.blank 0 with trace := { Trace.blank with recording := true } })] }

/-- An AMO on the first doubleword of the own scratchpad. -/
def ownAmo : Instr := .amoAdd 2 0 3 false false false

theorem recording_takes_number : (reachedState syFull accAmo 0 8 true).map State.fresh = some 1 := by decide

theorem stalled_amo_takes_no_number : shownAfter State.fresh ownAmo syFull = some 0 := by decide

/-- Refutes O25: an AMO for which class SY has no room is said to leave the state in which its access has been recorded; but it stalls
in the state in which it began, with nothing recorded. -/
theorem not_atomicAccessesIssue : ¬ Obligations.AtomicAccessesIssue := by
  rintro ⟨-, ⟨amoAdd, -⟩, -⟩
  obtain ⟨u, hu, fresh⟩ := Option.map_eq_some_iff.mp recording_takes_number
  obtain ⟨t, l, route, hr⟩ := reaches_of_reachedState hu
  obtain ⟨-, -, issues⟩ := amoAdd syFull 2 0 3 false false false
  obtain ⟨-, stalls⟩ := issues (by decide) (by decide) t u l route hr
  have recorded : shownAfter State.fresh ownAmo syFull = some u.fresh := shownAfter_eq State.fresh (stalls (.inl (by decide)))
  rw [stalled_amo_takes_no_number, fresh] at recorded
  exact absurd recorded (by decide)

/-! ### Parts of several owners in one group -/

/-- A part of a stream element at its home in the core's own memory. -/
def streamPart : Req :=
  { Req.blank with id := 1, group := 5, owner := .stream 0 0 0, target := .mem .load ⟨.scratch, 0, 0⟩ 8 [] 0 }

/-- A held access of its group that no activation awaits: the owner is a context, and there is no class and no destination. -/
def leftPart : Req :=
  { Req.blank with
    id := 2, group := 5, owner := .ctx 0 0 0, target := .mem .load ⟨.scratch, 0, 8⟩ 8 [] 0, stage := .held none }

def mixedGroup : State := { State.reset with reqs := [streamPart, leftPart], fresh := 10 }

/-- Numbers of the outstanding accesses. -/
def requestNumbers (s : State) : List Nat := s.reqs.map Req.id

theorem leftPart_is_discarded : shownAfter requestNumbers (.memoryRequestArrival (.own 1)) mixedGroup = some [1] := by decide

/-- Refutes O43: both parts of an element are said to stand performed; but what goes with the arriving part is found by its group
alone, and where it is an access that a move left behind, what it returns is discarded (R207). -/
theorem not_ownAccessesArePerformed : ¬ Obligations.OwnAccessesArePerformed := by
  rintro ⟨-, -, ⟨-, together⟩, -⟩
  obtain ⟨t, ht, -, -, x, hx, hid, -⟩ := together mixedGroup 1 streamPart leftPart ⟨.scratch, 0, 0⟩ 8 ⟨.scratch, 0, 8⟩ 8
    rfl rfl rfl rfl (by decide) (by decide) rfl rfl (by decide) (by unfold NothingQueued; decide)
  have only : requestNumbers t = [1] := Option.some.inj ((shownAfter_eq requestNumbers ht).symm.trans leftPart_is_discarded)
  have two : x.id ∈ requestNumbers t := List.mem_map_of_mem hx
  rw [hid, only] at two
  exact absurd two (by decide)

end Sys2Proof.AccessRefutations
end

section
/-! SUPPORT and PROOFS. Rounding (R113, R117, R119): the codes of finite values, and what rounding gives for an exact value. -/

namespace Sys2Proof.RoundingProofs

open Sys2Proof Sys2Proof.Machine

/-! ### Bits of a number -/

theorem bitLen_le {m n : Nat} (h : m < 2 ^ n) : bitLen m ≤ n := by
  unfold bitLen
  split
  · exact Nat.zero_le n
  · next h0 => exact (Nat.log2_lt h0).2 h

theorem bitLen_eq {m n : Nat} (lo : 2 ^ n ≤ m) (hi : m < 2 ^ (n + 1)) : bitLen m = n + 1 := by
  have h0 : m ≠ 0 := Nat.ne_of_gt (Nat.lt_of_lt_of_le (Nat.two_pow_pos n) lo)
  rw [bitLen, if_neg h0, (Nat.log2_eq_iff h0).2 ⟨lo, hi⟩]

theorem bits_field (x : Nat) {p n : Nat} (h : 0 < p + n) : bits x (p + n - 1) n = x / 2 ^ n % 2 ^ p := by
  rw [bits, Nat.shiftRight_eq_div_pow, show p + n - 1 + 1 - n = p by omega]

/-! ### Rounding of an exact value -/

@[simp] theorem up_of_exact (mode : RMode) (neg odd : Bool) : mode.up neg odd 0 = false := by
  cases mode <;> simp [RMode.up]

/-- A value counted in its own unit is exact in every mode. -/
theorem quantum_self (mode : RMode) (neg : Bool) (m : Nat) (e : Int) : quantum mode neg m e e false = (m, false) := by
  simp [quantum]

/-- The value ± m · 2^e in the steps of a format: `t` is 0 for zeros and subnormals, else one less than the exponent field; the
magnitude code is t · 2^M + m (R113). -/
structure OnGrid (f : Fmt) (t m : Nat) (e : Int) : Prop where
  exponent : e = t + 1 - f.bias - f.mbits
  small    : m < 2 ^ (f.mbits + 1)
  leading  : t = 0 ∨ 2 ^ f.mbits ≤ m
  field    : t ≤ 2 ^ f.ebits
  finite   : t * 2 ^ f.mbits + m ≤ f.maxCode

/-- The exponent at which `roundFin` takes the unit of a value on the grid. -/
theorem OnGrid.unit_exponent {f : Fmt} {t m : Nat} {e : Int} (h : OnGrid f t m e) :
    (if e + bitLen m - 1 < 1 - (f.bias : Int) then 1 - (f.bias : Int) else e + bitLen m - 1) = e + f.mbits := by
  obtain ⟨he, small, leading, -, -⟩ := h
  by_cases full : 2 ^ f.mbits ≤ m
  · have := bitLen_eq full small
    split <;> omega
  · have := bitLen_le (Nat.not_le.mp full)
    have : t = 0 := leading.resolve_right full
    split <;> omega

theorem OnGrid.roundFin {f : Fmt} {t m : Nat} {e : Int} (h : OnGrid f t m e) (mode : RMode) (neg : Bool) :
    f.roundFin mode neg m e false = ⟨f.signed neg (t * 2 ^ f.mbits + m), 0⟩ := by
  have unit : e + f.mbits - f.mbits = e := by omega
  have top : e + f.mbits + f.bias - 1 = t := by rw [h.exponent]; omega
  have field : ¬ (t : Int) > 2 ^ f.ebits := by exact_mod_cast Nat.not_lt.mpr h.field
  simp only [Fmt.roundFin, h.unit_exponent, unit, quantum_self, top, Int.toNat_natCast, if_neg field, if_neg (Nat.not_lt.mpr h.finite),
    Bool.false_and, Bool.false_eq_true, if_false, Nat.add_zero]

theorem OnGrid.round {f : Fmt} {t m : Nat} {e : Int} (h : OnGrid f t m e) (mode : RMode) (neg : Bool) :
    f.round mode (.fin neg m e) = ⟨f.signed neg (t * 2 ^ f.mbits + m), 0⟩ := by
  rw [Fmt.round]
  split
  · next zero =>
    have := Nat.two_pow_pos f.mbits
    have t0 : t = 0 := h.leading.resolve_right (by omega)
    rw [zero, t0, Nat.zero_mul]
  · exact h.roundFin mode neg

/-! ### The codes of finite values -/

section Code

variable {f : Fmt} {code : Nat}

theorem code_eq_signed (h : code < 2 ^ f.width) :
    code = f.signed (bit code (f.ebits + f.mbits)) (code % 2 ^ (f.ebits + f.mbits)) := by
  have sum : code % 2 ^ (f.ebits + f.mbits) + 2 ^ (f.ebits + f.mbits) * (code / 2 ^ (f.ebits + f.mbits)) = code :=
    Nat.mod_add_div ..
  have small : code / 2 ^ (f.ebits + f.mbits) < 2 := by
    rw [Nat.div_lt_iff_lt_mul (Nat.two_pow_pos _), ← Nat.pow_succ', show (f.ebits + f.mbits).succ = f.width by unfold Fmt.width; omega]
    exact h
  unfold Fmt.signed bit
  rw [Nat.shiftRight_eq_div_pow]
  obtain z | o := Nat.le_one_iff_eq_zero_or_eq_one.mp (Nat.le_of_lt_succ small)
  · rw [z] at sum ⊢; simpa using sum.symm
  · rw [o] at sum ⊢; simp; omega

/-- A magnitude code is its exponent field above its fraction. -/
theorem magnitude_eq (f : Fmt) (code : Nat) :
    code % 2 ^ (f.ebits + f.mbits) = code / 2 ^ f.mbits % 2 ^ f.ebits * 2 ^ f.mbits + code % 2 ^ f.mbits := by
  rw [Nat.add_comm f.ebits, Nat.pow_add, Nat.mod_mul, Nat.add_comm, Nat.mul_comm]

/-- A code that stands for no infinity and no NaN is at most the code of the largest value. -/
theorem magnitude_le_maxCode
    (ieee : ¬ (f.top = .ieee ∧ code / 2 ^ f.mbits % 2 ^ f.ebits = 2 ^ f.ebits - 1))
    (oneNan : ¬ (f.top = .oneNan ∧ code % 2 ^ (f.ebits + f.mbits) = 2 ^ (f.ebits + f.mbits) - 1)) :
    code % 2 ^ (f.ebits + f.mbits) ≤ f.maxCode := by
  have lt := Nat.mod_lt code (Nat.two_pow_pos (f.ebits + f.mbits))
  have ltField := Nat.mod_lt (code / 2 ^ f.mbits) (Nat.two_pow_pos f.ebits)
  have ltFraction := Nat.mod_lt code (Nat.two_pow_pos f.mbits)
  unfold Fmt.maxCode
  split
  case h_1 top =>
    have below : code / 2 ^ f.mbits % 2 ^ f.ebits + 1 ≤ 2 ^ f.ebits - 1 := by
      have : code / 2 ^ f.mbits % 2 ^ f.ebits ≠ 2 ^ f.ebits - 1 := fun e => ieee ⟨top, e⟩
      omega
    have := Nat.mul_le_mul_right (2 ^ f.mbits) below
    rw [Nat.add_mul] at this
    rw [magnitude_eq]
    omega
  case h_2 top =>
    have : code % 2 ^ (f.ebits + f.mbits) ≠ 2 ^ (f.ebits + f.mbits) - 1 := fun e => oneNan ⟨top, e⟩
    omega
  case h_3 => omega

/-- The value of the code of a finite number lies on the grid of its format, with the code's own magnitude and sign (R113). -/
theorem onGrid_of_value {neg : Bool} {m : Nat} {e : Int} (hf : 0 < f.ebits) (h : f.value code = .fin neg m e) :
    neg = bit code (f.ebits + f.mbits) ∧ ∃ t, OnGrid f t m e ∧ t * 2 ^ f.mbits + m = code % 2 ^ (f.ebits + f.mbits) := by
  have ltField := Nat.mod_lt (code / 2 ^ f.mbits) (Nat.two_pow_pos f.ebits)
  have ltFraction := Nat.mod_lt code (Nat.two_pow_pos f.mbits)
  have double : 2 ^ (f.mbits + 1) = 2 ^ f.mbits * 2 := Nat.pow_succ ..
  simp only [Fmt.value, bits_field code (show 0 < f.ebits + f.mbits by omega)] at h
  split at h
  · split at h <;> cases h
  next ieee =>
  split at h
  · cases h
  next oneNan =>
  have finite := magnitude_le_maxCode ieee oneNan
  have mag := magnitude_eq f code
  split at h
  · next subnormal =>
    cases h
    have mag0 : 0 * 2 ^ f.mbits + code % 2 ^ f.mbits = code % 2 ^ (f.ebits + f.mbits) := by rw [mag, subnormal]
    refine ⟨rfl, 0, ⟨?_, ?_, .inl rfl, Nat.zero_le _, mag0 ▸ finite⟩, mag0⟩
    · simp
    · omega
  · next normal =>
    obtain ⟨t, ht⟩ := Nat.exists_eq_add_one_of_ne_zero normal
    cases h
    have magT : t * 2 ^ f.mbits + (2 ^ f.mbits + code % 2 ^ f.mbits) = code % 2 ^ (f.ebits + f.mbits) := by
      rw [mag, ht, Nat.succ_mul, Nat.add_assoc]
    refine ⟨rfl, t, ⟨?_, ?_, .inr (Nat.le_add_right ..), ?_, magT ▸ finite⟩, magT⟩
    · rw [ht]; omega
    · omega
    · omega

end Code

/-- Settles O33: a finite code is a sign and a number of steps of its format, and rounding counts just those steps. -/
theorem roundingIsExactOnFormatValues : Obligations.RoundingIsExactOnFormatValues := by
  intro f mode code hf hcode neg m e hvalue
  have ebits : ∀ g ∈ [fmtF64, fmtF32, fmtF16, fmtBF16, fmtE5M2, fmtE4M3, fmtE3M2, fmtE2M3, fmtE2M1], 0 < g.ebits := by decide
  obtain ⟨rfl, t, grid, magnitude⟩ := onGrid_of_value (ebits f hf) hvalue
  rw [grid.round, magnitude, ← code_eq_signed hcode]

end Sys2Proof.RoundingProofs
end

section
/-! SUPPORT and PROOFS. Elementwise vector instructions (R127, R128, R130, R132): elements of a packed register, what completing
with a list of elements writes, and the results of the two-source and the fused forms. -/

namespace Sys2Proof.VectorProofs

open Sys2Proof Sys2Proof.Machine Sys2Proof.Safety Sys2Proof.Laws

/-! ### Elements of a packed register (R127) -/

section Lanes

variable {w : Nat}

theorem lane_eq (hw : 0 < w) (v : Vec) (i : Nat) : lane v w i = v.toNat / 2 ^ (w * i) % 2 ^ w := by
  rw [lane, bits, Nat.shiftRight_eq_div_pow, show w * (i + 1) - 1 + 1 - w * i = w by rw [Nat.mul_succ]; omega]

theorem lane_lt (hw : 0 < w) (v : Vec) (i : Nat) : lane v w i < 2 ^ w := by
  rw [lane_eq hw]
  exact Nat.mod_lt _ (Nat.two_pow_pos w)

theorem packLanes_lt : ∀ l : List Nat, packLanes w l < 2 ^ (w * l.length)
  | [] => by simp [packLanes]
  | x :: t => by
    have hx := Nat.mod_lt x (Nat.two_pow_pos w)
    have ht := Nat.mul_le_mul_left (2 ^ w) (packLanes_lt t)
    rw [packLanes, List.length_cons, Nat.mul_succ, Nat.add_comm (w * t.length), Nat.pow_add]
    rw [Nat.mul_succ] at ht
    omega

theorem packLanes_div_mod : ∀ (l : List Nat) (i : Nat), packLanes w l / 2 ^ (w * i) % 2 ^ w = l.getD i 0 % 2 ^ w
  | [], i => by simp [packLanes]
  | x :: t, 0 => by simp [packLanes]
  | x :: t, i + 1 => by
    have tail : packLanes w (x :: t) / 2 ^ w = packLanes w t := by
      rw [packLanes, Nat.add_mul_div_left _ _ (Nat.two_pow_pos w), Nat.div_eq_of_lt (Nat.mod_lt x (Nat.two_pow_pos w)), Nat.zero_add]
    rw [Nat.mul_succ, Nat.add_comm, Nat.pow_add, ← Nat.div_div_eq_div_mul, tail, packLanes_div_mod t i, List.getD_cons_succ]

theorem toNat_vecOf {l : List Nat} (h : w * l.length ≤ 256) : (vecOf w l).toNat = packLanes w l := by
  rw [vecOf, BitVec.toNat_ofNat]
  exact Nat.mod_eq_of_lt (Nat.lt_of_lt_of_le (packLanes_lt l) (Nat.pow_le_pow_right (by decide) h))

theorem lane_vecOf (hw : 0 < w) {l : List Nat} (h : w * l.length ≤ 256) (i : Nat) : lane (vecOf w l) w i = l.getD i 0 % 2 ^ w := by
  rw [lane_eq hw, toNat_vecOf h, packLanes_div_mod]

end Lanes

theorem testBit_orFlags (b : Nat) : ∀ l : List FRes, (orFlags l).testBit b = true ↔ ∃ r ∈ l, r.flags.testBit b = true
  | [] => by simp [orFlags]
  | r :: t => by simp [orFlags, testBit_orFlags b t]

/-! ### A list of elements under a predicate (R128) -/

section MapLanes

variable {w n k : Nat} {old : Vec} {f : Nat → FRes}

theorem lane_mapLanes (hw : 0 < w) (hn : w * n ≤ 256) {j : Nat} (hj : j < n) :
    lane (mapLanes w n k old f).1 w j = if bit k j then (f j).code % 2 ^ w else lane old w j := by
  rw [mapLanes, lane_vecOf hw (by simpa using hn)]
  simp only [List.getD_eq_getElem?_getD, List.getElem?_map, List.getElem?_range hj, Option.map_some, Option.getD_some]
  split
  · rfl
  · exact Nat.mod_eq_of_lt (lane_lt hw old j)

theorem toNat_mapLanes_lt (hn : w * n ≤ 256) : (mapLanes w n k old f).1.toNat < 2 ^ (w * n) := by
  have h := packLanes_lt (w := w) (((List.range n).map fun i => if bit k i then f i else ⟨lane old w i, 0⟩).map FRes.code)
  rw [List.length_map, List.length_map, List.length_range] at h
  rwa [mapLanes, toNat_vecOf (by simpa using hn)]

/-- Each flag of the result comes from an active element. -/
theorem testBit_mapLanes (b : Nat) :
    (mapLanes w n k old f).2.testBit b = true ↔ ∃ j, j < n ∧ bit k j = true ∧ (f j).flags.testBit b = true := by
  simp only [mapLanes, testBit_orFlags, List.mem_map, List.mem_range]
  constructor
  · rintro ⟨r, ⟨j, hj, rfl⟩, h⟩
    split at h
    · next active => exact ⟨j, hj, active, h⟩
    · simp at h
  · rintro ⟨j, hj, active, h⟩
    exact ⟨_, ⟨j, hj, rfl⟩, by rwa [if_pos active]⟩

end MapLanes

theorem bit_eq_testBit (x i : Nat) : bit x i = x.testBit i := by
  rw [bit, Nat.testBit_eq_decide_div_mod_eq, Nat.shiftRight_eq_div_pow]
  rfl

/-- A predicate register read as a number: k0 is all ones, and no register has more than 32 elements (R127). -/
theorem bit_readK (s : State) (k : BitVec 3) {j : Nat} (hj : j < 32) : bit (s.me.readK k) j = active s k j := by
  unfold Ctx.readK active
  rw [bit_eq_testBit]
  split
  · next k0 =>
    rw [show (0xFFFF_FFFF : Nat) = 2 ^ 32 - 1 from rfl, Nat.testBit_two_pow_sub_one]
    simp [k0, hj]
  · next k0 => simp [k0, BitVec.getLsbD]

/-! ### Completion with a vector result (R83, R128) -/

theorem me_vdone (s : State) (d : Reg) (r : Vec × Nat) :
    (s.vdone d r).me = ({ s.me.writeV d.toNat r.1 with vflags := s.me.vflags ||| w64 r.2 } : Ctx).next := by
  rw [State.vdone, me_setMe]

theorem readV_vdone (s : State) (d : Reg) (r : Vec × Nat) (q : Nat) :
    (s.vdone d r).me.readV q = if d.toNat = q then r.1 else s.me.readV q := by
  rw [me_vdone]
  exact at_put _ _ _ _ _

/-- What completing with the elements of `mapLanes` does. -/
theorem vdone_mapLanes_writesLanes (s : State) (d : Reg) {w n m : Nat} {act : Nat → Bool} (f : Nat → FRes) (hw : 0 < w)
    (hn : w * n ≤ 256) (hact : ∀ j, j < n → bit m j = act j) :
    WritesLanes s (s.vdone d (mapLanes w n m (s.me.readV d.toNat) f)) d w n act f where
  lanes j hj := by rw [readV_vdone, if_pos rfl, lane_mapLanes hw hn hj, hact j hj]
  above := by rw [readV_vdone, if_pos rfl]; exact toNat_mapLanes_lt hn
  flags b hb := by
    have fromLanes := testBit_mapLanes (w := w) (n := n) (k := m) (old := s.me.readV d.toNat) (f := f) b
    have actives : (∃ j, j < n ∧ bit m j = true ∧ (f j).flags.testBit b = true) ↔
        ∃ j, j < n ∧ act j = true ∧ (f j).flags.testBit b = true :=
      exists_congr fun j => and_congr_right fun hj => by rw [hact j hj]
    rw [me_vdone, ← actives, ← fromLanes]
    simp only [Ctx.next, w64, BitVec.getLsbD_or, BitVec.getLsbD_ofNat, hb, decide_true, Bool.true_and, Bool.or_eq_true]
  others r hr := by rw [readV_vdone, if_neg (Ne.symm hr)]
  context := by rw [me_vdone]; rfl
  elsewhere := onlyMe_setMe s _

/-- Only the low bits of a result and its flags count. -/
theorem writesLanes_congr {s t : State} {d : Reg} {w n : Nat} {act : Nat → Bool} {f g : Nat → FRes}
    (h : WritesLanes s t d w n act f)
    (codes : ∀ j, (f j).code % 2 ^ w = (g j).code % 2 ^ w) (flags : ∀ j, (f j).flags = (g j).flags) :
    WritesLanes s t d w n act g where
  lanes j hj := by rw [h.lanes j hj, codes]
  above := h.above
  flags b hb := by simp only [h.flags b hb, flags]
  others := h.others
  context := h.context
  elsewhere := h.elsewhere

/-! ### Element types -/

theorem width_pos (et : ElemTy) : 0 < et.width := by cases et <;> decide

theorem width_mul_nelem (et : ElemTy) : et.width * et.nelem = 256 := by cases et <;> decide

theorem nelem_le (et : ElemTy) : et.nelem ≤ 32 := by cases et <;> decide

theorem etFmt_isSome (et : ElemTy) : (etFmt et).isSome = et.isFp := by cases et <;> rfl

/-- What completing with one result for each element of a type does, under predicate `k`. -/
theorem vdone_elements_writesLanes (s : State) (et : ElemTy) (d : Reg) (k : BitVec 3) (f : Nat → FRes) :
    WritesLanes s (s.vdone d (mapLanes et.width et.nelem (s.me.readK k) (s.me.readV d.toNat) f)) d et.width et.nelem (active s k) f :=
  vdone_mapLanes_writesLanes s d f (width_pos et) (Nat.le_of_eq (width_mul_nelem et)) fun _ hj =>
    bit_readK s k (Nat.lt_of_lt_of_le hj (nelem_le et))

/-! ### From the form of an instruction to the statement about it -/

section Forms

variable {i : ElemTy → Reg → Reg → Reg → BitVec 3 → Instr}

/-- A form of every element type. -/
theorem laneResult_of_vbin {f : RMode → ElemTy → Nat → Nat → FRes} (g : RMode → ElemTy → Nat → Nat → FRes)
    (run : ∀ s et d a b k, exec (i et d a b k) s = s.vbin et d a b k (g s.mode et))
    (value : ∀ m et x y, g m et x y = f m et x y) : LaneResult i (fun _ => true) (fun m et x y _ => f m et x y) := by
  obtain rfl : g = f := by funext m et x y; exact value m et x y
  exact fun s et d a b k => ⟨fun _ => ⟨_, run s et d a b k, vdone_elements_writesLanes s et d k _⟩, fun h => nomatch h⟩

/-- A form of the integer element types. -/
theorem laneResult_of_vint {f : ElemTy → Nat → Nat → Nat} (g : ElemTy → Nat → Nat → Nat)
    (run : ∀ s et d a b k, exec (i et d a b k) s = s.vint (wordOf (i et d a b k)) et d a b k (g et))
    (value : ∀ et x y, g et x y = f et x y) : LaneResult i (fun et => !et.isFp) (fun _ et x y _ => quiet (f et x y)) := by
  obtain rfl : g = f := by funext et x y; exact value et x y
  intro s et d a b k
  constructor
  · intro legal
    refine ⟨_, (run s et d a b k).trans (if_neg (by simpa using legal)), ?_⟩
    exact writesLanes_congr (vdone_elements_writesLanes s et d k _) (fun _ => Nat.mod_mod _ _) fun _ => rfl
  · intro illegal
    exact (run s et d a b k).trans (if_pos (by simpa using illegal))

/-- A fused form, of the floating-point element types. -/
theorem laneResult_of_vfused (negP negC : Bool)
    (run : ∀ s et d a b k, exec (i et d a b k) s = s.vfused (wordOf (i et d a b k)) et d a b k negP negC) :
    LaneResult i (fun et => et.isFp) (fun m et x y c => fpOr et (fun f => f.fma m negP negC x y c) 0) := by
  intro s et d a b k
  have fp := etFmt_isSome et
  rw [run]
  cases hf : etFmt et with
  | none =>
    rw [hf] at fp
    simp only [State.vfused, hf]
    exact ⟨fun legal => (nomatch fp.trans legal), fun _ => rfl⟩
  | some f =>
    rw [hf] at fp
    simp only [State.vfused, fpOr, hf]
    exact ⟨fun _ => ⟨_, rfl, vdone_elements_writesLanes s et d k _⟩, fun illegal => (nomatch fp.trans illegal)⟩

end Forms

/-! ### The values of the elements (R130) -/

theorem twoForm_eq_fpOr (et : ElemTy) (fp : Fmt → Nat → Nat → FRes) (int : Int → Int → Int) (x y : Nat) :
    twoForm et fp int x y = fpOr et (fun f => fp f x y) (int (sextNat x et.width) (sextNat y et.width)) := rfl

theorem lesser_eq_min (x y : Int) : lesser x y = min x y := by unfold lesser; split <;> omega

theorem larger_eq_max (x y : Int) : larger x y = max x y := by unfold larger; split <;> omega

/-! ### The statements -/

theorem vectorArithmeticResults : Claims.VectorArithmeticResults := by
  refine ⟨?add, ?sub, ?mul, ?min, ?max⟩
  case add =>
    exact laneResult_of_vbin (fun m et => twoForm et (fun f => f.add m) (· + ·)) (fun _ _ _ _ _ _ => rfl) fun _ _ _ _ =>
      twoForm_eq_fpOr ..
  case sub =>
    exact laneResult_of_vbin (fun m et => twoForm et (fun f => f.sub m) (· - ·)) (fun _ _ _ _ _ _ => rfl) fun _ _ _ _ =>
      twoForm_eq_fpOr ..
  case mul =>
    exact laneResult_of_vbin (fun m et => twoForm et (fun f => f.mul m) (· * ·)) (fun _ _ _ _ _ _ => rfl) fun _ _ _ _ =>
      twoForm_eq_fpOr ..
  case min =>
    exact laneResult_of_vbin (fun _ et => twoForm et (fun f => f.minmax false) lesser) (fun _ _ _ _ _ _ => rfl) fun _ _ _ _ => by
      rw [twoForm_eq_fpOr, lesser_eq_min]
  case max =>
    exact laneResult_of_vbin (fun _ et => twoForm et (fun f => f.minmax true) larger) (fun _ _ _ _ _ _ => rfl) fun _ _ _ _ => by
      rw [twoForm_eq_fpOr, larger_eq_max]

theorem vectorBitwiseAndShiftResults : Claims.VectorBitwiseAndShiftResults := by
  refine ⟨?and, ?or, ?xor, ?shl, ?shr, ?sra⟩
  case and => exact laneResult_of_vint (fun _ x y => x &&& y) (fun _ _ _ _ _ _ => rfl) fun _ _ _ => rfl
  case or => exact laneResult_of_vint (fun _ x y => x ||| y) (fun _ _ _ _ _ _ => rfl) fun _ _ _ => rfl
  case xor => exact laneResult_of_vint (fun _ x y => x ^^^ y) (fun _ _ _ _ _ _ => rfl) fun _ _ _ => rfl
  case shl =>
    exact laneResult_of_vint (fun et x n => if n ≥ et.width then 0 else x <<< n) (fun _ _ _ _ _ _ => rfl) fun et x n => by
      rw [Nat.shiftLeft_eq]
  case shr =>
    exact laneResult_of_vint (fun et x n => if n ≥ et.width then 0 else x >>> n) (fun _ _ _ _ _ _ => rfl) fun et x n => by
      rw [Nat.shiftRight_eq_div_pow]
  case sra =>
    refine laneResult_of_vint (fun et => sraLane et.width) (fun _ _ _ _ _ _ => rfl) fun et x n => ?_
    rw [sraLane, wrapInt, show (if n ≥ et.width then et.width else n) = min n et.width by split <;> omega]

theorem vectorFusedResults : Claims.VectorFusedResults := by
  refine ⟨?fma, ?fms, ?fnma⟩
  case fma => exact laneResult_of_vfused false false fun _ _ _ _ _ _ => rfl
  case fms => exact laneResult_of_vfused false true fun _ _ _ _ _ _ => rfl
  case fnma => exact laneResult_of_vfused true false fun _ _ _ _ _ _ => rfl

/-- Settles O28: every form writes its elements' results under the predicate, and the excluded element types trap. -/
theorem vectorLanes : Obligations.VectorLanes :=
  ⟨vectorArithmeticResults, vectorBitwiseAndShiftResults, vectorFusedResults⟩

end Sys2Proof.VectorProofs
end

section
/-! SUPPORT and PROOFS. Vector reductions and products (R137–R139): the model's tree holds the nodes of R137 level by level, an
integer sum does not depend on the tree, and the rows of the outer product are read before any is written. -/

namespace Sys2Proof.ReductionProofs

open Sys2Proof Sys2Proof.Machine Sys2Proof.Safety Sys2Proof.Laws Sys2Proof.VectorProofs

/-! ### Completion with any vector result (R83, R128) -/

/-- A result is known by its elements, the bits above them and its flags. -/
theorem vdone_writesLanes (s : State) (d : Reg) {w n : Nat} {act : Nat → Bool} {f : Nat → FRes} {r : Vec × Nat}
    (lanes : ∀ j, j < n → lane r.1 w j = if act j then (f j).code % 2 ^ w else lane (s.me.readV d.toNat) w j)
    (above : r.1.toNat < 2 ^ (w * n))
    (flags : ∀ b, r.2.testBit b = true ↔ ∃ j, j < n ∧ act j = true ∧ (f j).flags.testBit b = true) :
    WritesLanes s (s.vdone d r) d w n act f where
  lanes j hj := by rw [readV_vdone, if_pos rfl, lanes j hj]
  above := by rwa [readV_vdone, if_pos rfl]
  flags b hb := by
    rw [me_vdone, ← flags b]
    simp only [Ctx.next, w64, BitVec.getLsbD_or, BitVec.getLsbD_ofNat, hb, decide_true, Bool.true_and, Bool.or_eq_true]
  others q hq := by rw [readV_vdone, if_neg (Ne.symm hq)]
  context := by rw [me_vdone]; rfl
  elsewhere := onlyMe_setMe s _

/-- One element with its flags, and 0 above it. -/
theorem vdone_single_writesLanes (s : State) (d : Reg) {w n : Nat} (hw : 0 < w) (hn : 0 < n) (hwn : w * n ≤ 256) (r : FRes) :
    WritesLanes s (s.vdone d (vecOf w [r.code], r.flags)) d w n (fun _ => true) (fun j => if j = 0 then r else quiet 0) := by
  have width : w ≤ w * n := Nat.le_mul_of_pos_right w hn
  have fits : w * [r.code].length ≤ 256 := by rw [List.length_singleton]; omega
  refine vdone_writesLanes s d ?lanes ?above ?flags
  case lanes =>
    intro j _
    rw [lane_vecOf hw fits]
    cases j <;> simp [quiet]
  case above =>
    rw [toNat_vecOf fits]
    refine Nat.lt_of_lt_of_le (packLanes_lt _) (Nat.pow_le_pow_right (by decide) ?_)
    simpa using width
  case flags =>
    intro b
    constructor
    · exact fun h => ⟨0, hn, rfl, h⟩
    · rintro ⟨j, -, -, h⟩
      split at h
      · exact h
      · simp [quiet] at h

/-! ### The list of the model's tree and the nodes of R137 -/

section Tree

variable (op : Nat → Nat → FRes) (leaf : Nat → Option Nat)

/-- What a node makes of its two elements. -/
def meet : Option FRes → Option FRes → Option FRes
  | none, q => q
  | some p, none => some p
  | some p, some q => some ((op p.code q.code).add (p.flags ||| q.flags))

theorem treeNode_succ (lev j : Nat) :
    treeNode op leaf (lev + 1) j = meet op (treeNode op leaf lev (2 * j)) (treeNode op leaf lev (2 * j + 1)) := by
  rw [treeNode]
  cases treeNode op leaf lev (2 * j) <;> cases treeNode op leaf lev (2 * j + 1) <;> rfl

theorem redLevel_pair (p q : Option FRes) (t : List (Option FRes)) :
    redLevel op (p :: q :: t) = meet op p q :: redLevel op t := by
  cases p <;> cases q <;> rfl

theorem redLevel_range : ∀ (n : Nat) (f : Nat → Option FRes),
    redLevel op ((List.range (2 * n)).map f) = (List.range n).map fun j => meet op (f (2 * j)) (f (2 * j + 1))
  | 0, _ => rfl
  | n + 1, f => by
    rw [show 2 * (n + 1) = 2 * n + 1 + 1 by omega, List.range_succ_eq_map, List.range_succ_eq_map, List.range_succ_eq_map]
    simp only [List.map_cons, List.map_map, redLevel_pair]
    rw [redLevel_range n]
    rfl

/-- As many levels as the number of elements has make the root. -/
theorem redTree_treeNodes : ∀ m lev : Nat,
    redTree op m ((List.range (2 ^ m)).map (treeNode op leaf lev)) = [treeNode op leaf (lev + m) 0]
  | 0, _ => rfl
  | m + 1, lev => by
    have level : redLevel op ((List.range (2 ^ (m + 1))).map (treeNode op leaf lev)) =
        (List.range (2 ^ m)).map (treeNode op leaf (lev + 1)) := by
      rw [Nat.pow_succ, Nat.mul_comm, redLevel_range]
      exact List.map_congr_left fun j _ => (treeNode_succ op leaf lev j).symm
    rw [redTree, level, redTree_treeNodes m, Nat.add_assoc, Nat.add_comm 1]

theorem redTree_add : ∀ (m n : Nat) (l : List (Option FRes)), redTree op (m + n) l = redTree op n (redTree op m l)
  | 0, n, l => by rw [Nat.zero_add]; rfl
  | m + 1, n, l => by rw [Nat.succ_add]; exact redTree_add m n (redLevel op l)

/-- Levels above the root pass it on. -/
theorem redTree_singleton (p : Option FRes) : ∀ n, redTree op n [p] = [p]
  | 0 => rfl
  | n + 1 => redTree_singleton p n

end Tree

/-! ### Reductions (R137) -/

theorem two_pow_log2_nelem (et : ElemTy) : 2 ^ Nat.log2 et.nelem = et.nelem := by cases et <;> decide

theorem log2_nelem_le (et : ElemTy) : Nat.log2 et.nelem ≤ 5 := by cases et <;> decide

/-- The elements that take part in a reduction. -/
def activeElement (s : State) (et : ElemTy) (a : Reg) (k : BitVec 3) (j : Nat) : Option Nat :=
  if active s k j then some (lane (s.me.readV a.toNat) et.width j) else none

/-- The root of the tree of a reduction, none where no element takes part. -/
def reduction (s : State) (et : ElemTy) (a : Reg) (k : BitVec 3) (op : Nat → Nat → FRes) : Option FRes :=
  treeNode op (activeElement s et a k) (Nat.log2 et.nelem) 0

theorem redTree_elements (s : State) (et : ElemTy) (a : Reg) (k : BitVec 3) (op : Nat → Nat → FRes) :
    redTree op 5 ((List.range et.nelem).map fun i =>
      if bit (s.me.readK k) i then some ⟨lane (s.me.readV a.toNat) et.width i, 0⟩ else none) = [reduction s et a k op] := by
  have leaves : ((List.range et.nelem).map fun i =>
      if bit (s.me.readK k) i then some ⟨lane (s.me.readV a.toNat) et.width i, 0⟩ else none) =
      (List.range (2 ^ Nat.log2 et.nelem)).map (treeNode op (activeElement s et a k) 0) := by
    rw [two_pow_log2_nelem]
    refine List.map_congr_left fun j hj => ?_
    rw [bit_readK s k (Nat.lt_of_lt_of_le (List.mem_range.mp hj) (nelem_le et)), treeNode, activeElement]
    split <;> rfl
  obtain ⟨above, levels⟩ := Nat.exists_eq_add_of_le (log2_nelem_le et)
  rw [leaves, levels, redTree_add, redTree_treeNodes, redTree_singleton, Nat.zero_add, reduction]

/-- The result of a reduction, before element 0 takes it. -/
def reduced (s : State) (et : ElemTy) (a : Reg) (k : BitVec 3) (op : Nat → Nat → FRes) (ident : Nat) : FRes :=
  let root := (reduction s et a k op).getD (quiet ident)
  ⟨canonical et root.code, root.flags⟩

theorem vred_eq (s : State) (et : ElemTy) (d a : Reg) (k : BitVec 3) (op : Nat → Nat → FRes) (ident : Nat) :
    s.vred et d a k op ident = .next (s.vdone d
      (vecOf et.width [(reduced s et a k op ident).code], (reduced s et a k op ident).flags)) := by
  simp only [State.vred, redTree_elements, List.head?_cons, reduced]
  cases reduction s et a k op <;> rfl

theorem nelem_pos (et : ElemTy) : 0 < et.nelem := by cases et <;> decide

theorem vred_writesLanes (s : State) (et : ElemTy) (d a : Reg) (k : BitVec 3) (op : Nat → Nat → FRes) (ident : Nat) :
    ∃ t, s.vred et d a k op ident = .next t ∧ WritesLanes s t d et.width et.nelem (fun _ => true) fun j =>
      if j = 0 then reduced s et a k op ident else quiet 0 :=
  ⟨_, vred_eq s et d a k op ident,
    vdone_single_writesLanes s d (width_pos et) (nelem_pos et) (Nat.le_of_eq (width_mul_nelem et)) _⟩

theorem reduceResult_of_vred {i : ElemTy → Reg → Reg → BitVec 3 → Instr} {f : RMode → ElemTy → Nat → Nat → FRes}
    {ident : ElemTy → Nat} (g : RMode → ElemTy → Nat → Nat → FRes) (unit : ElemTy → Nat)
    (run : ∀ s et d a k, exec (i et d a k) s = s.vred et d a k (g s.mode et) (unit et))
    (value : ∀ m et x y, g m et x y = f m et x y) (identity : ∀ et, unit et = ident et) : ReduceResult i f ident := by
  obtain rfl : g = f := by funext m et x y; exact value m et x y
  obtain rfl : unit = ident := funext identity
  intro s et d a k
  rw [run]
  exact vred_writesLanes s et d a k _ _

theorem vectorReductionResults : Claims.VectorReductionResults := by
  refine ⟨?add, ?min, ?max⟩
  case add =>
    exact reduceResult_of_vred (fun m et => twoForm et (fun f => f.add m) (· + ·)) (fun _ => 0) (fun _ _ _ _ _ => rfl)
      (fun _ _ _ _ => twoForm_eq_fpOr ..) fun _ => rfl
  case min =>
    refine reduceResult_of_vred (fun _ et => twoForm et (fun f => f.minmax false) lesser) _ (fun _ _ _ _ _ => rfl)
      (fun _ _ _ _ => ?_) fun et => ?_
    · rw [twoForm_eq_fpOr, lesser_eq_min]
    · cases et <;> rfl
  case max =>
    refine reduceResult_of_vred (fun _ et => twoForm et (fun f => f.minmax true) larger) _ (fun _ _ _ _ _ => rfl)
      (fun _ _ _ _ => ?_) fun et => ?_
    · rw [twoForm_eq_fpOr, larger_eq_max]
    · cases et <;> rfl

/-! ### Integer sums (R137) -/

/-- An integer of `w` bits and its two's complement value are congruent. -/
theorem sextNat_emod (x w : Nat) : sextNat x w % (2 : Int) ^ w = x % (2 : Int) ^ w := by
  have natural : ((x % 2 ^ w : Nat) : Int) = (x : Int) % (2 : Int) ^ w := by push_cast; rfl
  unfold sextNat
  split
  · rw [natural, Int.emod_emod]
  · rw [Int.sub_emod_right, natural, Int.emod_emod]

theorem etFmt_of_integer {et : ElemTy} (h : et.isFp = false) : etFmt et = none := by
  rw [← Option.not_isSome_iff_eq_none, etFmt_isSome, h]
  exact Bool.false_ne_true

/-- Integer addition of elements is addition of their patterns, wrapped. -/
theorem code_add_of_integer {et : ElemTy} (h : et.isFp = false) (fp : Fmt → Nat → Nat → FRes) (x y : Nat) :
    (twoForm et fp (· + ·) x y).code = (x + y) % 2 ^ et.width := by
  have wrapped : (sextNat x et.width + sextNat y et.width) % (2 : Int) ^ et.width = ((x + y) % 2 ^ et.width : Nat) := by
    rw [Int.add_emod, sextNat_emod, sextNat_emod, ← Int.add_emod]
    push_cast
    rfl
  rw [twoForm, etFmt_of_integer h, intRes, wrapInt, wrapped, Int.toNat_natCast]

section Sum

variable {w : Nat} {op : Nat → Nat → FRes} (hop : ∀ x y, (op x y).code = (x + y) % 2 ^ w)

/-- What stands at a node, 0 where nothing does. -/
def nodeCode (p : Option FRes) : Nat := (p.getD (quiet 0)).code

include hop in
theorem nodeCode_meet (p q : Option FRes) : nodeCode (meet op p q) % 2 ^ w = (nodeCode p + nodeCode q) % 2 ^ w := by
  cases p with
  | none => simp [nodeCode, meet, quiet]
  | some p =>
    cases q with
    | none => simp [nodeCode, meet, quiet]
    | some q => simp [nodeCode, meet, FRes.add, hop]

include hop in
/-- A node is congruent to the sum of the elements below it. -/
theorem nodeCode_treeNode (leaf : Nat → Option Nat) : ∀ lev j : Nat, nodeCode (treeNode op leaf lev j) % 2 ^ w =
    ((List.range (2 ^ lev)).map fun i => (leaf (2 ^ lev * j + i)).getD 0).sum % 2 ^ w
  | 0, j => by cases h : leaf j <;> simp [treeNode, nodeCode, quiet, h]
  | lev + 1, j => by
    have halves : 2 ^ (lev + 1) = 2 ^ lev + 2 ^ lev := by rw [Nat.pow_succ, Nat.mul_two]
    have left : 2 ^ (lev + 1) * j = 2 ^ lev * (2 * j) := by rw [Nat.pow_succ, Nat.mul_assoc]
    have right (i : Nat) : 2 ^ lev * (2 * j) + (2 ^ lev + i) = 2 ^ lev * (2 * j + 1) + i := by rw [Nat.mul_succ, Nat.add_assoc]
    rw [treeNode_succ, nodeCode_meet hop, Nat.add_mod, nodeCode_treeNode leaf lev, nodeCode_treeNode leaf lev, ← Nat.add_mod,
      left, halves, List.range_add, List.map_append, List.sum_append, List.map_map]
    simp only [Function.comp_def, right]

end Sum

theorem sum_map_filter {α : Type} (p : α → Bool) (f : α → Nat) : ∀ l : List α,
    ((l.filter p).map f).sum = (l.map fun x => if p x then f x else 0).sum
  | [] => rfl
  | x :: t => by
    rw [List.filter_cons, List.map_cons, List.sum_cons, ← sum_map_filter p f t]
    split
    · rw [List.map_cons, List.sum_cons]
    · rw [Nat.zero_add]

/-- The root of an integer sum is congruent to the sum of the active elements. -/
theorem nodeCode_reduction {w : Nat} {op : Nat → Nat → FRes} (hop : ∀ x y, (op x y).code = (x + y) % 2 ^ w) (s : State)
    (et : ElemTy) (a : Reg) (k : BitVec 3) : nodeCode (reduction s et a k op) % 2 ^ w =
      (((List.range et.nelem).filter (active s k)).map fun j => lane (s.me.readV a.toNat) et.width j).sum % 2 ^ w := by
  rw [reduction, nodeCode_treeNode hop, two_pow_log2_nelem, sum_map_filter]
  refine congrArg (fun l : List Nat => l.sum % 2 ^ w) (List.map_congr_left fun j _ => ?_)
  rw [Nat.mul_zero, Nat.zero_add, activeElement]
  split <;> rfl

theorem canonical_of_integer {et : ElemTy} (h : et.isFp = false) (code : Nat) : canonical et code = code := by
  rw [canonical, etFmt_of_integer h]

/-- Settles O31: at every node an integer sum is congruent to the sum of the active elements below it. -/
theorem integerReductionSums : Obligations.IntegerReductionSums := by
  intro s et d a k t integer run
  obtain ⟨t', run', writes⟩ := vred_writesLanes s et d a k (twoForm et (fun f => f.add s.mode) (· + ·)) 0
  obtain rfl : t' = t := Host.Outcome.next.inj (run'.symm.trans run)
  rw [writes.lanes 0 (nelem_pos et), if_pos rfl, if_pos rfl, reduced, canonical_of_integer integer]
  exact nodeCode_reduction (code_add_of_integer integer _) s et a k

/-! ### Dot products (R138) -/

theorem foldl_add_eq {α : Type} (f : α → Int) : ∀ (l : List α) (a : Int), l.foldl (fun n x => n + f x) a = a + (l.map f).sum
  | [], a => (Int.add_zero a).symm
  | x :: t, a => by rw [List.foldl_cons, foldl_add_eq f t, List.map_cons, List.sum_cons, Int.add_assoc]

theorem dotInt_eq_quiet (w j : Nat) (vd va vb : Vec) : dotInt w j vd va vb = quiet
    ((slane vd 32 j + ((List.range (32 / w)).map fun t => slane va w (32 / w * j + t) * slane vb w (32 / w * j + t)).sum)
      % (2 : Int) ^ 32).toNat := by
  rw [dotInt, foldl_add_eq]
  rfl

/-- What a dot product does: eight elements of 32 bits. -/
theorem vdone_dot_writesLanes (s : State) (d : Reg) (k : BitVec 3) (f : Nat → FRes) :
    WritesLanes s (s.vdone d (mapLanes 32 8 (s.me.readK k) (s.me.readV d.toNat) f)) d 32 8 (active s k) f :=
  vdone_mapLanes_writesLanes s d f (by decide) (by decide) fun _ hj => bit_readK s k (Nat.lt_trans hj (by decide))

/-! ### The FP64 outer product (R139) -/

theorem bit_ones {n j : Nat} (hj : j < n) : bit (2 ^ n - 1) j = true := by
  rw [bit_eq_testBit, Nat.testBit_two_pow_sub_one]
  exact decide_eq_true hj

/-- A context that goes on with other flags. -/
def flagged (x : Ctx) (f : Word) : Ctx := ({ x with vflags := f } : Ctx).next

theorem readV_flagged (x : Ctx) (f : Word) (q : Nat) : (flagged x f).readV q = x.readV q := rfl

theorem vflags_flagged (x : Ctx) (f : Word) : (flagged x f).vflags = f := rfl

theorem flagged_of_vectors {x y : Ctx} (f : Word) (h : y = { x with v := y.v }) :
    flagged y f = { x with pc := x.pc + 4, v := (flagged y f).v, vflags := (flagged y f).vflags } := by
  rw [h]
  rfl

/-- Consecutive vector registers are written. -/
theorem writeRows_eq (d : Nat) (row : Nat → Vec) (x : Ctx) : ∀ n : Nat,
    (List.range n).foldl (fun c i => c.writeV (d + i) (row i)) x =
      { x with v := ((List.range n).foldl (fun c i => c.writeV (d + i) (row i)) x).v }
  | 0 => rfl
  | n + 1 => by
    rw [List.range_succ, List.foldl_append, writeRows_eq d row x n]
    rfl

theorem readV_writeRows (d : Nat) (row : Nat → Vec) (x : Ctx) (q : Nat) : ∀ n : Nat,
    ((List.range n).foldl (fun c i => c.writeV (d + i) (row i)) x).readV q =
      if d ≤ q ∧ q < d + n then row (q - d) else x.readV q
  | 0 => by rw [if_neg (by omega)]; rfl
  | n + 1 => by
    rw [List.range_succ, List.foldl_append]
    refine (at_put _ _ _ _ _).trans ?_
    split
    · next last => rw [if_pos (by omega), ← last, Nat.add_sub_cancel_left]
    · next other =>
      refine (readV_writeRows d row x q n).trans (ite_congr (propext ?_) (fun _ => rfl) fun _ => rfl)
      omega

theorem testBit_foldl_or (b : Nat) : ∀ (l : List Nat) (a : Nat),
    (l.foldl (· ||| ·) a).testBit b = true ↔ a.testBit b = true ∨ ∃ x ∈ l, x.testBit b = true
  | [], a => by simp
  | x :: t, a => by simp [testBit_foldl_or b t, or_assoc]

/-- Row `i` of the outer product, and its flags. -/
def productRow (s : State) (d a b : Reg) (i : Nat) : Vec × Nat :=
  mapLanes 64 4 0xF (s.me.readV (d.toNat + i)) fun j =>
    fmtF64.fma s.mode false false (lane (s.me.readV a.toNat) 64 i) (lane (s.me.readV b.toNat) 64 j)
      (lane (s.me.readV (d.toNat + i)) 64 j)

/-- The four rows, each with its flags. -/
def productRows (s : State) (d a b : Reg) : List (Vec × Nat) := (List.range 4).map (productRow s d a b)

theorem getD_productRows (s : State) (d a b : Reg) {i : Nat} (hi : i < 4) :
    (productRows s d a b).getD i (0, 0) = productRow s d a b i := by
  rw [productRows, List.getD_eq_getElem?_getD, List.getElem?_map, List.getElem?_range hi]
  rfl

/-- The context with the four rows of the outer product. -/
def withProduct (s : State) (d a b : Reg) : Ctx :=
  (List.range 4).foldl (fun c i => c.writeV (d.toNat + i) ((productRows s d a b).getD i (0, 0)).1) s.me

/-- The flags of the four rows. -/
def productFlags (s : State) (d a b : Reg) : Nat := ((productRows s d a b).map Prod.snd).foldl (· ||| ·) 0

theorem exec_vmma64 {s : State} {d a b : Reg} (h : d.toNat % 4 = 0) : exec (.vmma64 d a b) s =
    .next (s.setMe (flagged (withProduct s d a b) (s.me.vflags ||| w64 (productFlags s d a b)))) :=
  if_neg (not_not_intro h)

theorem readV_withProduct (s : State) (d a b : Reg) (q : Nat) : (withProduct s d a b).readV q =
    if d.toNat ≤ q ∧ q < d.toNat + 4 then (productRow s d a b (q - d.toNat)).1 else s.me.readV q := by
  rw [withProduct, readV_writeRows d.toNat fun i => ((productRows s d a b).getD i (0, 0)).1]
  split
  · rw [getD_productRows s d a b (by omega)]
  · rfl

theorem testBit_productFlags (s : State) (d a b : Reg) (n : Nat) : (productFlags s d a b).testBit n = true ↔
    ∃ i j, i < 4 ∧ j < 4 ∧ (fmtF64.fma s.mode false false (lane (s.me.readV a.toNat) 64 i) (lane (s.me.readV b.toNat) 64 j)
      (lane (s.me.readV (d.toNat + i)) 64 j)).flags.testBit n = true := by
  simp only [productFlags, productRows, testBit_foldl_or, List.map_map, Function.comp_def, List.mem_map, List.mem_range, Nat.zero_testBit,
    Bool.false_eq_true, false_or]
  constructor
  · rintro ⟨_, ⟨i, hi, rfl⟩, h⟩
    obtain ⟨j, hj, -, hf⟩ := (testBit_mapLanes n).mp h
    exact ⟨i, j, hi, hj, hf⟩
  · rintro ⟨i, j, hi, hj, hf⟩
    exact ⟨_, ⟨i, hi, rfl⟩, (testBit_mapLanes n).mpr ⟨j, hj, bit_ones (n := 4) hj, hf⟩⟩

theorem vectorProductResults : Claims.VectorProductResults := by
  constructor
  · intro s d a b k va vb vd m int
    have integer (w : Nat) : WritesLanes s (s.vdone d (mapLanes 32 8 (s.me.readK k) vd fun j => dotInt w j vd va vb)) d 32 8
        (active s k) (int w) := by
      rw [show int w = fun j => dotInt w j vd va vb from funext fun j => (dotInt_eq_quiet w j vd va vb).symm]
      exact vdone_dot_writesLanes s d k _
    refine ⟨⟨_, rfl, integer 8⟩, ⟨_, rfl, integer 16⟩, ⟨_, rfl, vdone_dot_writesLanes s d k _⟩,
      ⟨_, rfl, vdone_dot_writesLanes s d k _⟩, ?_⟩
    rintro et (rfl | rfl | rfl | rfl) <;> rfl
  · intro s d a b res
    refine ⟨fun h => if_pos h, fun h => ⟨_, exec_vmma64 h, ?rows, ?flags, ?others, ?context, onlyMe_setMe s _⟩⟩
    case rows =>
      intro i j hi hj
      rw [me_setMe, readV_flagged, readV_withProduct, if_pos (by omega), Nat.add_sub_cancel_left, productRow,
        lane_mapLanes (by decide) (by decide) hj]
      exact if_pos (bit_ones (n := 4) hj)
    case flags =>
      intro n hn
      rw [me_setMe, vflags_flagged]
      refine Iff.trans ?_ (or_congr_right (testBit_productFlags s d a b n))
      simp only [w64, BitVec.getLsbD_or, BitVec.getLsbD_ofNat, hn, decide_true, Bool.true_and, Bool.or_eq_true]
    case others =>
      intro r hr
      rw [me_setMe, readV_flagged, readV_withProduct, if_neg (by omega)]
    case context =>
      rw [me_setMe]
      exact flagged_of_vectors _ (writeRows_eq d.toNat _ s.me 4)

/-- Settles O30: the list of the model's tree holds the nodes of R137 level by level, and the products are sums over their elements. -/
theorem vectorReductions : Obligations.VectorReductions := ⟨vectorReductionResults, vectorProductResults⟩

end Sys2Proof.ReductionProofs
end

section
/-! SUPPORT and PROOFS. Vector packs and moves (R129, R134, R141–R145) and mask instructions (R127, R151). -/

namespace Sys2Proof.VectorMoveProofs

open Sys2Proof Sys2Proof.Machine Sys2Proof.Safety Sys2Proof.Laws Sys2Proof.VectorProofs Sys2Proof.ReductionProofs

/-! ### Packing (R141, R142) -/

theorem satInt_eq_max_min {lo hi : Int} (h : lo ≤ hi) (x : Int) : satInt x lo hi = max lo (min x hi) := by
  unfold satInt
  split
  · omega
  · split <;> omega

/-- The range of a signed integer is not empty. -/
theorem signed_range (n : Nat) : -(2 : Int) ^ n ≤ (2 : Int) ^ n - 1 := by
  have : (0 : Int) < 2 ^ n := Int.pow_pos (by decide)
  omega

theorem intRes_eq_quiet (w : Nat) (i : Int) : intRes w i = quiet (i % (2 : Int) ^ w).toNat := rfl

/-- What completing with at most 32 elements does, under predicate `k`. -/
theorem vdone_predicated_writesLanes (s : State) (d : Reg) (k : BitVec 3) {w n : Nat} (f : Nat → FRes) (hw : 0 < w)
    (hwn : w * n ≤ 256) (hn : n ≤ 32) :
    WritesLanes s (s.vdone d (mapLanes w n (s.me.readK k) (s.me.readV d.toNat) f)) d w n (active s k) f :=
  vdone_mapLanes_writesLanes s d f hw hwn fun _ hj => bit_readK s k (Nat.lt_of_lt_of_le hj hn)

theorem vectorPackResults : Claims.VectorPackResults := by
  constructor
  · intro s et d a b k w v
    constructor
    · intro legal
      have packs : ((et.isFp || et == .i8) = false) ∧ 0 < w / 2 ∧ w / 2 * (2 * et.nelem) ≤ 256 ∧ 2 * et.nelem ≤ 32 := by
        rcases legal with rfl | rfl | rfl <;> decide
      obtain ⟨element, width, fits, count⟩ := packs
      refine ⟨_, if_neg (Bool.eq_false_iff.mp element), ?_⟩
      simp only [← intRes_eq_quiet, ← satInt_eq_max_min (signed_range _)]
      exact vdone_predicated_writesLanes s d k _ width fits count
    · rintro (fp | rfl)
      · exact if_pos (by rw [fp]; rfl)
      · rfl
  · intro s et d a hi k w
    constructor
    · intro legal
      have unpacks : ((et.isFp || et == .i64) = false) ∧ 0 < 2 * w ∧ 2 * w * (et.nelem / 2) ≤ 256 ∧ et.nelem / 2 ≤ 32 := by
        rcases legal with rfl | rfl | rfl <;> decide
      obtain ⟨element, width, fits, count⟩ := unpacks
      exact ⟨_, if_neg (Bool.eq_false_iff.mp element), vdone_predicated_writesLanes s d k _ width fits count⟩
    · rintro (fp | rfl)
      · exact if_pos (by rw [fp]; rfl)
      · rfl

/-! ### Moves (R129, R134, R143–R145) -/

/-- A mask register other than k0 reads as its bits, and as 0 beyond them (R127). -/
theorem bit_readK_of_ne_zero (s : State) {k : BitVec 3} (hk : k ≠ 0#3) (j : Nat) : bit (s.me.readK k) j = active s k j := by
  rw [Ctx.readK, if_neg hk, bit_eq_testBit, active, beq_false_of_ne hk, Bool.false_or, BitVec.getLsbD]

theorem bit_two_pow (n j : Nat) : bit (2 ^ n) j = (j == n) := by
  rw [bit_eq_testBit, Nat.testBit_two_pow, Bool.beq_eq_decide_eq]
  exact decide_eq_decide.mpr eq_comm

/-- What completing with one result for each element of a type does, under a mask given as a number. -/
theorem vdone_masked_writesLanes (s : State) (et : ElemTy) (d : Reg) {m : Nat} {act : Nat → Bool} (f : Nat → FRes)
    (hact : ∀ j, j < et.nelem → bit m j = act j) :
    WritesLanes s (s.vdone d (mapLanes et.width et.nelem m (s.me.readV d.toNat) f)) d et.width et.nelem act f :=
  vdone_mapLanes_writesLanes s d f (width_pos et) (Nat.le_of_eq (width_mul_nelem et)) hact

theorem vectorMoveResults : Claims.VectorMoveResults := by
  intro s et d a k w va
  refine ⟨?perm, ?bcast, ?sel, ?element⟩
  case perm => exact fun b => ⟨_, rfl, vdone_elements_writesLanes s et d k _⟩
  case bcast => exact ⟨_, rfl, vdone_elements_writesLanes s et d k _⟩
  case sel =>
    intro b
    refine ⟨fun hk => ⟨_, if_neg hk, ?_⟩, fun hk => if_pos hk⟩
    simp only [bit_readK_of_ne_zero s hk]
    exact vdone_masked_writesLanes s et d _ fun j hj => bit_ones (n := 32) (Nat.lt_of_lt_of_le hj (nelem_le et))
  case element =>
    intro n
    refine ⟨fun inside => ⟨⟨_, if_neg (Nat.not_le.mpr inside), ?_⟩, ⟨_, if_neg (Nat.not_le.mpr inside), putX_writesX s d _⟩⟩,
      fun outside => ⟨if_pos outside, if_pos outside⟩⟩
    exact vdone_masked_writesLanes s et d _ fun j _ => bit_two_pow n.toNat j

/-! ### Mask instructions (R127, R151) -/

theorem readK_lt (x : Ctx) (k : BitVec 3) : x.readK k < 2 ^ 32 := by
  unfold Ctx.readK
  split
  · decide
  · exact BitVec.isLt _

theorem testBit_readK (s : State) (k : BitVec 3) {j : Nat} (hj : j < 32) : (s.me.readK k).testBit j = active s k j := by
  rw [← bit_eq_testBit, bit_readK s k hj]

/-- What completing with a mask does. -/
theorem putK_writesK (s : State) (kd : BitVec 3) {v : Nat} {bits : Nat → Bool} (h : ∀ j, j < 32 → v.testBit j = bits j) :
    ∃ t, s.putK kd v = .next t ∧ WritesK s t kd bits := by
  refine ⟨_, rfl, ?value, ?others, ?pc, onlyMe_setMe s _⟩
  case value =>
    intro hk j hj
    rw [me_setMe, Ctx.writeK, if_neg hk]
    refine (congrArg (fun m : BitVec 32 => m.getLsbD j) (at_put_same _ _ _ _)).trans ?_
    rw [BitVec.getLsbD_ofNat, h j hj, decide_eq_true hj, Bool.true_and]
  case others =>
    intro r hr
    rw [me_setMe, Ctx.writeK]
    split
    · rfl
    · exact at_put_ne _ _ _ (Ne.symm hr)
  case pc =>
    rw [me_setMe, Ctx.writeK]
    split <;> rfl

/-- The mask in a scalar register: 32 bits, and 0 above (R151). -/
theorem eq_w64_readK {s : State} {k : BitVec 3} {v : Word} (h : ∀ j, j < 64 → v.getLsbD j = (decide (j < 32) && active s k j)) :
    v = w64 (s.me.readK k) := by
  refine BitVec.eq_of_getLsbD_eq fun j hj => ?_
  rw [h j hj, w64, BitVec.getLsbD_ofNat, decide_eq_true hj, Bool.true_and]
  by_cases low : j < 32
  · rw [decide_eq_true low, Bool.true_and, testBit_readK s k low]
  · have above := Nat.pow_le_pow_right (n := 2) (by decide) (Nat.not_lt.mp low)
    rw [decide_eq_false low, Bool.false_and, Nat.testBit_lt_two_pow (Nat.lt_of_lt_of_le (readK_lt _ _) above)]

theorem maskInstructionResults : Claims.MaskInstructionResults := by
  intro s kd ka
  have reads (k : BitVec 3) (j : Nat) (hj : j < 32) := testBit_readK s k hj
  refine ⟨fun kb => ⟨?and, ?or, ?xor⟩, ?not, ?copy, ?fromX, ?toX⟩
  case and => exact putK_writesK s kd fun j hj => by rw [Nat.testBit_and, reads ka j hj, reads kb j hj]
  case or => exact putK_writesK s kd fun j hj => by rw [Nat.testBit_or, reads ka j hj, reads kb j hj]
  case xor => exact putK_writesK s kd fun j hj => by rw [Nat.testBit_xor, reads ka j hj, reads kb j hj]
  case not =>
    exact putK_writesK s kd fun j hj => by
      rw [Nat.testBit_xor, reads ka j hj, ← bit_eq_testBit 0xFFFF_FFFF, show bit 0xFFFF_FFFF j = true from bit_ones hj, Bool.xor_true]
  case copy => exact putK_writesK s kd (reads ka)
  case fromX =>
    exact fun a => putK_writesK s kd fun j hj => by rw [Nat.testBit_mod_two_pow, decide_eq_true hj, Bool.true_and, BitVec.getLsbD]
  case toX => exact fun d v hv => ⟨_, rfl, eq_w64_readK hv ▸ putX_writesX s d _⟩

/-- Settles O32: the packs and moves are lists of elements under a predicate, VINS and VSEL under a mask of their own; the mask
instructions work bit by bit. -/
theorem vectorMovesAndMasks : Obligations.VectorMovesAndMasks :=
  ⟨vectorPackResults, vectorMoveResults, maskInstructionResults⟩

end Sys2Proof.VectorMoveProofs
end

section
/-! SUPPORT and PROOFS. A VLD whose packets let a PUSH into the router that has waited behind the local port (R218, R252). -/

namespace Sys2Proof.VectorAccessRefutation

open Sys2Proof Sys2Proof.Machine Sys2Proof.Safety Sys2Proof.AccessRefutations

/-- A VLD of four elements at the address in x1, which is the neighbour's. -/
def neighbourVld : Instr := .vld .f64 2 1 0 0

theorem block_reaches_neighbour : (reachedState (pushWaits .ld) accLoad neighbour 32 true).isSome = true := by decide

theorem loads_fall_with_vld : shownAfter loadsOfOne neighbourVld (pushWaits .ld) = some 0 := by decide

/-- Refutes O34: VLD is said to leave other contexts as they are, but for PUSHes that enter the router before its packets and leave the
count of SY. The statement also speaks of a state in which the request of such a PUSH is charged to LD, against R75, as in the
refutation of O24: there the load count of that context falls. -/
theorem not_vectorAccesses : ¬ Obligations.VectorAccesses := by
  rintro ⟨blocks, -⟩
  obtain ⟨u, hu⟩ := Option.isSome_iff_exists.mp block_reaches_neighbour
  obtain ⟨t, l, route, hr⟩ := reaches_of_reachedState hu
  obtain ⟨-, -, issues⟩ := blocks (pushWaits .ld) .f64 2 1 0 0 rfl
  obtain ⟨loads, -⟩ := issues (by decide) (by decide) (by decide) (by decide) t u l route
  obtain ⟨v, hv, ownIssued, routedIssued⟩ := loads (by decide) hr
  have sent : SentFrom (pushWaits .ld) v ((pushWaits .ld).me.addCount .ld 1).next := by
    by_cases own : l.place.space = .scratch ∧ l.place.owner = (pushWaits .ld).myCore.site
    · exact (ownIssued own).contexts
    · exact (routedIssued own).contexts
  have same : shownAfter loadsOfOne neighbourVld (pushWaits .ld) = some (loadsOfOne (pushWaits .ld)) :=
    loadsOfOne_eq_of_butPushes hv (sent.others 1 (by decide))
  rw [loads_fall_with_vld] at same
  exact absurd same (by decide)

end Sys2Proof.VectorAccessRefutation
end

section
/-! SUPPORT and PROOFS. A router that drops a packet and a core that sends its save on a move let a PUSH into the router that has waited
behind the local port (R218, R252); the statements bound what that changes in its context by its count of SY alone. -/

namespace Sys2Proof.MeshRefutations

open Sys2Proof Sys2Proof.Machine Sys2Proof.Safety Sys2Proof.AccessRefutations

/-! ### A drop at the local port -/

/-- A message at the head of local port 0 of site 0, in the module's north-west corner; its route leads north, where there is neither a
router nor an optical port (R225). -/
def strayMessage : Flight :=
  { id := 6, stamp := 6, pkt := ⟨{ hdrBlank with kind := .data, runs := [⟨.n, false, false, 0⟩] }, .message []⟩, site := 0,
    came := 0, inDir := none, inPort := 0, cls := 0, nonW := false, first := true, spot := .buffer, treated := false }

/-- The stray message takes three of the four flits of its lane, so that the PUSH of context 1, which is charged to LD here, has no
credit. -/
def dropWaits : State :=
  { pushWaits .ld with net := [strayMessage, pushPacket], used := [(bufKey 0 8 0, 3)] }

theorem strayMessage_is_dropped : dropWaits.hopOf strayMessage = .drop 2 := by decide

theorem loads_fall_with_drop : shownAfter loadsOfOne (.routerHeaderStep strayMessage.id) dropWaits = some 0 := by decide

/-- Refutes O47: a router that drops a packet is said to leave every context as it is, but for PUSHes that enter the router and leave the
count of SY. The drop at a local port gives back the credits a PUSH has waited for; where the request of that PUSH is charged to LD,
against R75, as the statement allows, the load count of its context falls. -/
theorem not_meshRouting : ¬ Obligations.MeshRouting := by
  rintro ⟨-, routerSteps, -⟩
  obtain ⟨drops, -⟩ := routerSteps dropWaits strayMessage rfl rfl (by decide)
  obtain ⟨t, ht, -, -, contexts, -⟩ := drops 2 strayMessage_is_dropped (by decide)
  have same : shownAfter loadsOfOne (.routerHeaderStep strayMessage.id) dropWaits = some (loadsOfOne dropWaits) :=
    loadsOfOne_eq_of_butPushes ht (contexts 1)
  rw [loads_fall_with_drop] at same
  exact absurd same (by decide)

/-! ### The save of a move -/

/-- The move of core 0 to the spare site of its row, from its save's first unit on (R207, R209). -/
def moveToSpare : Migration :=
  { target := defaultSkip, full := false, phase := 2, part := 0, unit := 0, since := 0, dark := false, leaves := [] }

/-- Core 0 sends its save while the PUSH of its context 1, which is charged to LD here, waits behind its local port. -/
def saveSetsOut : State := { pushWaits .ld with cores := [(0, { Core.blank 0 with mig := some moveToSpare })] }

theorem loads_fall_with_save : shownAfter loadsOfOne (.migrationTransfer 0 true [] []) saveSetsOut = some 0 := by decide

/-- Refutes O51: a transfer packet that sets out is said to leave every context as it is, but for PUSHes that enter the router before it
and leave the count of SY. The statement also speaks of a state in which the request of such a PUSH is charged to LD, against R75, as in
the refutation of O24: there the load count of that context falls. -/
theorem not_migration : ¬ Obligations.Migration := by
  rintro ⟨-, -, ⟨-, transfers⟩, -⟩
  obtain ⟨sends, -⟩ := transfers saveSetsOut 0 moveToSpare true [] [] rfl rfl (by decide)
  obtain ⟨t, f, ht, -, -, -, -, -, -, -, -, -, contexts, -⟩ := sends (by decide) (by decide)
  have same : shownAfter loadsOfOne (.migrationTransfer 0 true [] []) saveSetsOut = some (loadsOfOne saveSetsOut) :=
    loadsOfOne_eq_of_butPushes ht (contexts 1)
  rw [loads_fall_with_save] at same
  exact absurd same (by decide)

end Sys2Proof.MeshRefutations
end

section
/-! SUPPORT and PROOFS. A fence that lets in a PUSH of its own context, which has waited behind the local port (R218, R235, R252). -/

namespace Sys2Proof.RouteBindingRefutation

open Sys2Proof Sys2Proof.Machine Sys2Proof.Safety Sys2Proof.AccessRefutations

/-- The record of a binding with a fence: one run to the east, to site 1 (R224). -/
def fenceWords : List Word := [0x4000, 0, 0x2080000000001, 0]

def fenceRecord : RouteRec := RouteRec.ofWords fenceWords

/-- A context at pc 0 that has read the record at address 0, with one operation of class SY outstanding. -/
def bindingContext : Ctx := { Ctx.blank with sy := 1, gather := some ⟨0, [0], (List.range 4).zip fenceWords⟩ }

/-- Slot 0 of the core holds a route to site 1. -/
def boundSlot : Slot := { Slot.blank with route := some ⟨[⟨.e, false, false, 0⟩], 1, 0⟩ }

/-- The context is about to rebind slot 0 while its own PUSH, charged to SY as R75 says, waits behind the core's local port. -/
def bindingWaits : State :=
  { pushWaits .sy with
    ctxs := [(0, bindingContext)], cores := [(0, { Core.blank 0 with slots := [(0, boundSlot)] })],
    reqs := [{ pushRequest .sy with owner := .ctx 0 0 0 }] }

/-- Operations of class SY of the context in focus. -/
def ownSy (s : State) : Nat := s.me.sy

theorem bindingWaits_record_read : bindingWaits.readRecords (bindingWaits.x 0) 1 = .got [fenceRecord] bindingWaits := rfl

theorem ownSy_falls_with_rtbind : shownAfter ownSy (.rtbind 0 0) bindingWaits = some 0 := by decide

/-- Refutes O27: RTBIND is said to leave its context as it is, but for pc and the reads it forgets. The statement also speaks of a state
in which a PUSH of that context waits behind the core's local port although there is a credit: the fence lets the PUSH into the router,
and it leaves its context's count of SY (R75, R252). -/
theorem not_routeInstructions : ¬ Obligations.RouteInstructions := by
  rintro ⟨-, binding⟩
  obtain ⟨-, binds⟩ := binding bindingWaits 0 0 fenceRecord (by decide) (by decide) bindingWaits_record_read
  obtain ⟨t, ht, context, -⟩ := binds (by decide) (by decide) (by decide) (by decide)
  have same : shownAfter ownSy (.rtbind 0 0) bindingWaits = some (ownSy bindingWaits) :=
    (shownAfter_eq ownSy ht).trans (congrArg (fun x => some x.sy) context)
  rw [ownSy_falls_with_rtbind] at same
  exact absurd same (by decide)

end Sys2Proof.RouteBindingRefutation
end
